-- ==== Sys2Proof/Word.lean ====
section
/-! DEFINITION. The word types of the Psilux 4 and the plainest readings of them (spec/00 R2, R3; spec/05 R79). -/

namespace Sys2Proof

/-- One byte of a memory. -/
abbrev Byte := BitVec 8
/-- One instruction word, one lane element, one k-register (05 R79). -/
abbrev Word := BitVec 32
/-- A 64-bit value, an even and odd register pair or a device register (05 R79). -/
abbrev Word64 := BitVec 64
/-- A set of lanes, bit L for lane L. -/
abbrev LaneSet := BitVec 32
/-- One register row: 32 lane elements, lane 0 first (06 R98). -/
abbrev Row := List Word
/-- A sparse table: keys strictly rising, no entry equal to the table's default. -/
abbrev Tab (α : Type) := List (Nat × α)

/-- The pair's 64-bit value, its even register in the low half (05 R79). -/
abbrev pair64 (lo hi : Word) : Word64 := hi ++ lo
/-- Bits [31:0]. -/
abbrev lo32 (v : Word64) : Word := v.extractLsb' 0 32
/-- Bits [63:32]. -/
abbrev hi32 (v : Word64) : Word := v.extractLsb' 32 32

end Sys2Proof
end

