-- ==== Sys2Proof/Machine/Num.lean ====
section
/-! DEFINITION. Number formats to the bit (spec/05): exact values, the one rounding of R82 and R83, the flushes of
R84, the log and asymmetric formats. Every operation forms its exact value first and narrows once. -/

namespace Sys2Proof.Machine

/-- A set of flags in the bit order of 06 Table 6.5. -/
abbrev Flags := BitVec 8

def flagNV : Flags := 1#8
def flagDZ : Flags := 2#8
def flagOF : Flags := 4#8
def flagUF : Flags := 8#8
def flagNX : Flags := 16#8
def flagLS : Flags := 32#8
def flagID : Flags := 64#8
def flagXO : Flags := 128#8

/-- `f` when `b`, else no flag. -/
def flagIf (b : Bool) (f : Flags) : Flags := if b then f else 0#8

/-- The rounding modes of 05 Table 5.3. -/
inductive RMode where
  | rn | ra | rz | ru | rm
  deriving DecidableEq, Repr

/-- The mode an `rm` code of 04 Table 4.6 names; `none` for 000, 110 and 111. -/
def RMode.ofCode : Nat → Option RMode
  | 1 => some .rn
  | 2 => some .rz
  | 3 => some .ru
  | 4 => some .rm
  | 5 => some .ra
  | _ => none

/-- What a binary format holds (05 Tables 5.2, 5.4): its width, its precision with the hidden bit, the exponent of its
smallest normal, the codes (sign clear) of its largest finite, its infinity and its produced NaN, and whether it has
an infinity and follows the flush bits. -/
structure Fmt where
  width : Nat
  prec : Nat
  emin : Int
  maxFin : Nat
  infCode : Nat
  nanCode : Nat
  hasInf : Bool
  flushes : Bool
  deriving DecidableEq, Repr

def fmt64 : Fmt := ⟨64, 53, -1022, 0x7FEFFFFFFFFFFFFF, 0x7FF0000000000000, 0x7FF8000000000000, true, false⟩
def fmt32 : Fmt := ⟨32, 24, -126, 0x7F7FFFFF, 0x7F800000, 0x7FC00000, true, true⟩
def fmtBf16 : Fmt := ⟨16, 8, -126, 0x7F7F, 0x7F80, 0x7FC0, true, true⟩
def fmt16 : Fmt := ⟨16, 11, -14, 0x7BFF, 0x7C00, 0x7E00, true, true⟩
def fmtE4m3 : Fmt := ⟨8, 4, -6, 0x7E, 0x7F, 0x7F, false, false⟩
def fmtE5m2 : Fmt := ⟨8, 3, -14, 0x7B, 0x7C, 0x7E, true, false⟩

/-- An exact value: NaN, an infinity, or (-1)^neg × m × 2^e. -/
inductive Val where
  | nan (signalling : Bool)
  | inf (neg : Bool)
  | fin (neg : Bool) (m : Nat) (e : Int)
  deriving DecidableEq, Repr

def Val.isNan : Val → Bool
  | .nan _ => true
  | _ => false

def Val.isSnan : Val → Bool
  | .nan s => s
  | _ => false

def Val.isZero : Val → Bool
  | .fin _ m _ => m == 0
  | _ => false

def Val.sign : Val → Bool
  | .nan _ => false
  | .inf n => n
  | .fin n _ _ => n

def Val.neg : Val → Val
  | .nan s => .nan s
  | .inf n => .inf (!n)
  | .fin n m e => .fin (!n) m e

/-- The value of a code (05 R80, R85). Every FP8 NaN is quiet. -/
def Fmt.decode (f : Fmt) (bits : Nat) : Val :=
  let s := bits / 2 ^ (f.width - 1) % 2 == 1
  let mag := bits % 2 ^ (f.width - 1)
  let h := 2 ^ (f.prec - 1)
  let ex := mag / h
  let fr := mag % h
  if f.maxFin < mag then
    if f.hasInf && mag == f.infCode then .inf s
    else .nan (decide (8 < f.width) && decide (fr < h / 2))
  else if ex == 0 then .fin s fr (f.emin - ((f.prec : Int) - 1))
  else .fin s (h + fr) (f.emin + (ex : Int) - 1 - ((f.prec : Int) - 1))

/-- A code subnormal in its format. -/
def Fmt.isSub (f : Fmt) (bits : Nat) : Bool :=
  let mag := bits % 2 ^ (f.width - 1)
  decide (0 < mag) && decide (mag < 2 ^ (f.prec - 1))

/-- The sign bit of a code as a Nat with the magnitude cleared. -/
def Fmt.signBit (f : Fmt) (neg : Bool) : Nat := if neg then 2 ^ (f.width - 1) else 0

/-- Input flush of R84: with `fi` set, a subnormal operand reads as zero of the same sign. -/
def Fmt.flushIn (f : Fmt) (fi : Bool) (bits : Nat) : Nat :=
  if fi && f.flushes && f.isSub bits then bits / 2 ^ (f.width - 1) % 2 * 2 ^ (f.width - 1) else bits

/-- Whether a magnitude between `n` and `n + 1` quanta goes up: `half` compares the part above `n` with one half, `odd`
is the parity of `n` (05 Table 5.3). -/
def roundsUp (md : RMode) (neg odd : Bool) (half : Ordering) : Bool :=
  match md with
  | .rn => half == .gt || (half == .eq && odd)
  | .ra => half != .lt
  | .rz => false
  | .ru => !neg
  | .rm => neg

/-- The magnitude m × 2^e (a little more when `st`) rounded to a multiple of 2^q: the multiple, and whether it is
inexact. With `st` the caller gives e below q. -/
def roundAt (md : RMode) (neg : Bool) (m : Nat) (e : Int) (st : Bool) (q : Int) : Nat × Bool :=
  if q ≤ e then
    let n := m * 2 ^ (e - q).toNat
    if st then ((if roundsUp md neg (n % 2 == 1) .lt then n + 1 else n), true) else (n, false)
  else
    let sh := (q - e).toNat
    let n := m / 2 ^ sh
    let r := m % 2 ^ sh
    let h := 2 ^ (sh - 1)
    let inexact := r != 0 || st
    let half : Ordering := if r < h then .lt else if h < r || st then .gt else .eq
    if inexact && roundsUp md neg (n % 2 == 1) half then (n + 1, inexact) else (n, inexact)

/-- R82 and R83: the magnitude m × 2^e (a little more when `st`), m > 0, delivered in the format; `fo` is the output
flush of R84. -/
def Fmt.roundMag (f : Fmt) (md : RMode) (fo : Bool) (neg : Bool) (m : Nat) (e : Int) (st : Bool) : Nat × Flags :=
  let p1 : Int := (f.prec : Int) - 1
  let ex : Int := e + (Nat.log2 m : Int)
  let u := roundAt md neg m e st (ex - p1)
  let exU : Int := if u.1 == 2 ^ f.prec then ex + 1 else ex
  let exQ : Int := if ex < f.emin then f.emin else ex
  let r := roundAt md neg m e st (exQ - p1)
  let mag := (exQ - f.emin).toNat * 2 ^ (f.prec - 1) + r.1
  if exU < f.emin then
    if fo && f.flushes then (f.signBit neg, flagUF ||| flagNX)
    else (f.signBit neg + mag, flagIf r.2 (flagUF ||| flagNX))
  else if f.maxFin < mag then
    let toInf := f.hasInf && (match md with
      | .rn | .ra => true
      | .rz => false
      | .ru => !neg
      | .rm => neg)
    (f.signBit neg + (if toInf then f.infCode else f.maxFin), flagOF ||| flagNX)
  else (f.signBit neg + mag, flagIf r.2 flagNX)

/-- The rounding of an exact value into a format. -/
def Fmt.round (f : Fmt) (md : RMode) (fo : Bool) : Val → Nat × Flags
  | .nan _ => (f.nanCode, 0#8)
  | .inf n => if f.hasInf then (f.signBit n + f.infCode, 0#8) else (f.signBit n + f.maxFin, flagOF ||| flagNX)
  | .fin n m e => if m == 0 then (f.signBit n, 0#8) else f.roundMag md fo n m e false

/-- NV when an operand is a signalling NaN (R81). -/
def snanFlags (l : List Val) : Flags := flagIf (l.any Val.isSnan) flagNV

/-- The exact product of R81, with NV for 0 × ∞. -/
def vMul (a b : Val) : Val × Flags :=
  match a, b with
  | .nan _, _ => (.nan false, 0#8)
  | _, .nan _ => (.nan false, 0#8)
  | .inf s, .inf t => (.inf (s != t), 0#8)
  | .inf s, .fin t m _ => if m == 0 then (.nan false, flagNV) else (.inf (s != t), 0#8)
  | .fin s m _, .inf t => if m == 0 then (.nan false, flagNV) else (.inf (s != t), 0#8)
  | .fin s m e, .fin t n g => (.fin (s != t) (m * n) (e + g), 0#8)

/-- The exact sum of R81 and R83: NV for ∞ − ∞; an exact zero sum of unlike signs is +0, and −0 only under `.rm`. -/
def vAdd (md : RMode) (a b : Val) : Val × Flags :=
  match a, b with
  | .nan _, _ => (.nan false, 0#8)
  | _, .nan _ => (.nan false, 0#8)
  | .inf s, .inf t => if s == t then (.inf s, 0#8) else (.nan false, flagNV)
  | .inf s, _ => (.inf s, 0#8)
  | _, .inf t => (.inf t, 0#8)
  | .fin s m e, .fin t n g =>
    let q := if e ≤ g then e else g
    let x : Int := (m * 2 ^ (e - q).toNat : Nat)
    let y : Int := (n * 2 ^ (g - q).toNat : Nat)
    let z := (if s then -x else x) + (if t then -y else y)
    if z == 0 then (.fin (if s == t then s else md == .rm) 0 q, 0#8)
    else (.fin (decide (z < 0)) z.natAbs q, 0#8)

/-- The order of two values that are no NaN, −0 below +0 (R139). -/
def vLt (a b : Val) : Bool :=
  match a, b with
  | .nan _, _ => false
  | _, .nan _ => false
  | .inf s, .inf t => s && !t
  | .inf s, _ => s
  | _, .inf t => !t
  | .fin s m e, .fin t n g =>
    let q := if e ≤ g then e else g
    let x : Int := (m * 2 ^ (e - q).toNat : Nat)
    let y : Int := (n * 2 ^ (g - q).toNat : Nat)
    let x' := if s then -x else x
    let y' := if t then -y else y
    decide (x' < y') || (x' == y' && s && !t)

/-- `fadd` in a format (R138, R142, R144). -/
def fAdd (f : Fmt) (md : RMode) (fi fo : Bool) (a b : Nat) : Nat × Flags :=
  let x := f.decode (f.flushIn fi a)
  let y := f.decode (f.flushIn fi b)
  let s := vAdd md x y
  let r := f.round md fo s.1
  (r.1, snanFlags [x, y] ||| s.2 ||| r.2)

/-- `fsub`. -/
def fSub (f : Fmt) (md : RMode) (fi fo : Bool) (a b : Nat) : Nat × Flags :=
  let x := f.decode (f.flushIn fi a)
  let y := f.decode (f.flushIn fi b)
  let s := vAdd md x y.neg
  let r := f.round md fo s.1
  (r.1, snanFlags [x, y] ||| s.2 ||| r.2)

/-- `fmul`. -/
def fMul (f : Fmt) (md : RMode) (fi fo : Bool) (a b : Nat) : Nat × Flags :=
  let x := f.decode (f.flushIn fi a)
  let y := f.decode (f.flushIn fi b)
  let s := vMul x y
  let r := f.round md fo s.1
  (r.1, snanFlags [x, y] ||| s.2 ||| r.2)

/-- ±(a × b) ± c with one rounding (R141, R143, R144): `np` negates the product, `nc` the addend. -/
def fFma (f : Fmt) (md : RMode) (fi fo np nc : Bool) (a b c : Nat) : Nat × Flags :=
  let x := f.decode (f.flushIn fi a)
  let y := f.decode (f.flushIn fi b)
  let z := f.decode (f.flushIn fi c)
  let p := vMul x y
  let s := vAdd md (if np then p.1.neg else p.1) (if nc then z.neg else z)
  let r := f.round md fo s.1
  (r.1, snanFlags [x, y, z] ||| p.2 ||| s.2 ||| r.2)

/-- `fmin` (`mx` false) and `fmax` (R139): exact, one operand delivered after the input flush. -/
def fMinMax (f : Fmt) (fi mx : Bool) (a b : Nat) : Nat × Flags :=
  let xa := f.flushIn fi a
  let yb := f.flushIn fi b
  let x := f.decode xa
  let y := f.decode yb
  let fl := snanFlags [x, y]
  if x.isNan && y.isNan then (f.nanCode, fl)
  else if x.isNan then (yb, fl)
  else if y.isNan then (xa, fl)
  else if mx then ((if vLt x y then yb else xa), fl)
  else ((if vLt y x then yb else xa), fl)

/-! ## Reciprocal and square root (08 R145) -/

/-- The integer square root, `k` bits of it. -/
def isqrtBits : Nat → Nat → Nat → Nat
  | 0, _, r => r
  | k + 1, n, r =>
    let t := r + 2 ^ k
    isqrtBits k n (if t * t ≤ n then t else r)

/-- FP32 `rcp`, correctly rounded. -/
def fRcp (md : RMode) (fi fo : Bool) (a : Nat) : Nat × Flags :=
  match fmt32.decode (fmt32.flushIn fi a) with
  | .nan s => (fmt32.nanCode, flagIf s flagNV)
  | .inf n => (fmt32.signBit n, 0#8)
  | .fin n m e =>
    if m == 0 then (fmt32.signBit n + fmt32.infCode, flagDZ)
    else
      let k : Nat := 60
      fmt32.roundMag md fo n (2 ^ k / m) (-(k : Int) - e) (2 ^ k % m != 0)

/-- A root of m × 2^e as a magnitude with a sticky remainder: the mantissa carries at least 28 bits. -/
def rootMag (m : Nat) (e : Int) : Nat × Int × Bool :=
  let k : Nat := if (e - 60) % 2 == 0 then 60 else 61
  let n := m * 2 ^ k
  let r := isqrtBits 48 n 0
  (r, (e - (k : Int)) / 2, r * r != n)

/-- FP32 `sqrt`, correctly rounded. -/
def fSqrt (md : RMode) (fi fo : Bool) (a : Nat) : Nat × Flags :=
  match fmt32.decode (fmt32.flushIn fi a) with
  | .nan s => (fmt32.nanCode, flagIf s flagNV)
  | .inf n => if n then (fmt32.nanCode, flagNV) else (fmt32.infCode, 0#8)
  | .fin n m e =>
    if m == 0 then (fmt32.signBit n, 0#8)
    else if n then (fmt32.nanCode, flagNV)
    else
      let r := rootMag m e
      fmt32.roundMag md fo false r.1 r.2.1 r.2.2

/-- FP32 1/√x rounded by `md`; `x = 4^k` is exact, and both neighbours of any other result lie within the 1 ulp of
08 Table 8.5. -/
def fRsq (md : RMode) (fi fo : Bool) (a : Nat) : Nat × Flags :=
  match fmt32.decode (fmt32.flushIn fi a) with
  | .nan s => (fmt32.nanCode, flagIf s flagNV)
  | .inf n => if n then (fmt32.nanCode, flagNV) else (0, 0#8)
  | .fin n m e =>
    if m == 0 then (fmt32.signBit n + fmt32.infCode, flagDZ)
    else if n then (fmt32.nanCode, flagNV)
    else
      -- 1/√(m·2^e) = √(2^k/m) · 2^((-e-k)/2), k + e even; the quotient carries 2^100 and more
      let k : Nat := if e % 2 == 0 then 140 else 141
      let q := 2 ^ k / m
      let r := isqrtBits 72 q 0
      fmt32.roundMag md fo false r ((-e - (k : Int)) / 2) (!(r * r == q && 2 ^ k % m == 0))

/-! ## Log formats (05 R87 to R93) -/

/-- 05 Table 5.7. -/
def tableT8 : List Nat :=
  [0x800000, 0x85AAC3, 0x8B95C2, 0x91C3D3, 0x9837F0, 0x9EF532, 0xA5FED7, 0xAD583F,
   0xB504F3, 0xBD08A4, 0xC5672A, 0xCE248C, 0xD744FD, 0xE0CCDF, 0xEAC0C7, 0xF5257D]

/-- 05 Table 5.8, column TH. -/
def tableTH : List Nat :=
  [0x800000, 0x82CD87, 0x85AAC3, 0x88980F, 0x8B95C2, 0x8EA43A, 0x91C3D3, 0x94F4F0,
   0x9837F0, 0x9B8D3A, 0x9EF532, 0xA27043, 0xA5FED7, 0xA9A15B, 0xAD583F, 0xB123F6]
  ++
  [0xB504F3, 0xB8FBAF, 0xBD08A4, 0xC12C4D, 0xC5672A, 0xC9B9BE, 0xCE248C, 0xD2A81E,
   0xD744FD, 0xDBFBB8, 0xE0CCDF, 0xE5B907, 0xEAC0C7, 0xEFE4BA, 0xF5257D, 0xFA83B3]

/-- 05 Table 5.8, column TL. -/
def tableTL : List Nat :=
  [0x800000, 0x801630, 0x802C64, 0x80429C, 0x8058D8, 0x806F17, 0x80855B, 0x809BA2,
   0x80B1ED, 0x80C83C, 0x80DE8F, 0x80F4E7, 0x810B41, 0x81219F, 0x813802, 0x814E68]
  ++
  [0x8164D2, 0x817B40, 0x8191B2, 0x81A828, 0x81BEA1, 0x81D51F, 0x81EBA1, 0x820226,
   0x8218AF, 0x822F3C, 0x8245CE, 0x825C63, 0x8272FC, 0x828998, 0x82A039, 0x82B6DE]

/-- T8[f]. -/
def t8 (f : Nat) : Nat := tableT8.getD f 0
/-- T16[f] of R90: TH[f[9:5]] × TL[f[4:0]] rounded to a multiple of 2^23, ties to even, over 2^23. -/
def t16 (f : Nat) : Nat :=
  (roundAt .rn false (tableTH.getD (f / 32 % 32) 0 * tableTL.getD (f % 32) 0) 0 false 23).1

/-- One of the two log formats (05 Table 5.5): width of the log field, fraction bits, the table. -/
structure LogFmt where
  w : Nat
  fr : Nat
  deriving DecidableEq, Repr

def logL8 : LogFmt := ⟨7, 4⟩
def logL16 : LogFmt := ⟨15, 10⟩

def LogFmt.tab (l : LogFmt) (f : Nat) : Nat := if l.fr == 4 then t8 f else t16 f

/-- A log code: zero, NaR, or a sign and a log field. -/
inductive LogVal where
  | zero
  | nar
  | num (neg : Bool) (lf : Int)
  deriving DecidableEq, Repr

/-- The code's reading by R87. -/
def LogFmt.decode (l : LogFmt) (code : Nat) : LogVal :=
  let s := code / 2 ^ l.w % 2 == 1
  let u := code % 2 ^ l.w
  if u == 2 ^ (l.w - 1) then (if s then .nar else .zero)
  else .num s (if u < 2 ^ (l.w - 1) then (u : Int) else (u : Int) - (2 ^ l.w : Nat))

/-- The linear value of sign, log field and scale (R89, R90). -/
def LogFmt.value (l : LogFmt) (neg : Bool) (lf e : Int) : Val :=
  let d : Int := (2 ^ l.fr : Nat)
  let i := lf / d
  .fin neg (l.tab (lf % d).toNat) (i + e - 23)

/-- R91: a log code with scale `e` converted to FP32. -/
def LogFmt.toF32 (l : LogFmt) (fo : Bool) (code : Nat) (e : Int) : Nat × Flags :=
  match l.decode code with
  | .zero => (0, 0#8)
  | .nar => (fmt32.nanCode, flagNV)
  | .num s lf => fmt32.round .rn fo (l.value s lf e)

/-- a·2^i ≤ b·2^j for naturals a, b. -/
def dyadicLe (a : Nat) (i : Int) (b : Nat) (j : Int) : Bool :=
  let q := if i ≤ j then i else j
  decide (a * 2 ^ (i - q).toNat ≤ b * 2 ^ (j - q).toNat)

/-- The magnitude table of R93 over u = lf + 2^(w-1), in units of 2^-(23+32); u = 0 stands for zero. -/
def LogFmt.mag (l : LogFmt) (u : Nat) : Nat :=
  if u == 0 then 0
  else
    let lf : Int := (u : Int) - (2 ^ (l.w - 1) : Nat)
    let d : Int := (2 ^ l.fr : Nat)
    l.tab (lf % d).toNat * 2 ^ (lf / d + 32).toNat

/-- The greatest u below 2^k + base whose magnitude is at most m × 2^e. -/
def LogFmt.search (l : LogFmt) : Nat → Nat → Int → Nat → Nat
  | 0, _, _, u => u
  | k + 1, m, e, u =>
    l.search k m e (if dyadicLe (l.mag (u + 2 ^ k)) (-55) m e then u + 2 ^ k else u)

/-- R93: an FP32 value converted to a log code with block scale `e`. -/
def LogFmt.ofF32 (l : LogFmt) (x : Nat) (e : Int) : Nat × Flags :=
  let s := x / 2 ^ 31 % 2
  let top := 2 ^ l.w - 1
  match fmt32.decode x with
  | .nan sg => (2 ^ l.w + 2 ^ (l.w - 1), flagIf sg flagNV)
  | .inf _ => (s * 2 ^ l.w + (2 ^ (l.w - 1) - 1), flagLS ||| flagNX)
  | .fin _ m ex =>
    let ee := ex - e
    if m == 0 then (2 ^ (l.w - 1), 0#8)
    else if !dyadicLe m ee (l.mag top) (-55) then (s * 2 ^ l.w + (2 ^ (l.w - 1) - 1), flagLS ||| flagNX)
    else
      let u := l.search l.w m ee 0
      let exact := dyadicLe m ee (l.mag u) (-55)
      -- up: 2m > mag u + mag (u+1), or a tie with u odd
      let two := l.mag u + l.mag (u + 1)
      let up := !exact && (!dyadicLe (2 * m) ee two (-55) || (dyadicLe two (-55) (2 * m) ee && u % 2 == 1))
      let v := if up then u + 1 else u
      let fl := flagIf (!exact) flagNX
      if v == 0 then (2 ^ (l.w - 1), fl ||| flagUF)
      else (s * 2 ^ l.w + (v + 2 ^ (l.w - 1)) % 2 ^ l.w, fl)

/-! ## Asymmetric integers (05 R95) -/

/-- n/d rounded to an integer magnitude by the mode. -/
def roundRatio (md : RMode) (neg : Bool) (n d : Nat) : Nat × Bool :=
  let q := n / d
  let r := n % d
  let half : Ordering := if 2 * r < d then .lt else if 2 * r == d then .eq else .gt
  if r == 0 then (q, false)
  else ((if roundsUp md neg (q % 2 == 1) half then q + 1 else q), true)

/-- Quantisation of R95 to 0..`top` with an FP16 scale and a zero point. -/
def quantise (md : RMode) (top : Nat) (x scale z : Nat) : Nat × Flags :=
  let inf (neg : Bool) : Nat := if neg then 0 else top
  match fmt32.decode x, fmt16.decode scale with
  | .nan _, _ => (z, flagNV)
  | _, .nan _ => (z, flagNV)
  | .inf _, .inf _ => (z, flagNV)
  | .inf s, .fin t _ _ => (inf (s != t), flagOF ||| flagNX)
  | .fin _ _ _, .inf _ => (z, 0#8)
  | .fin s m e, .fin t n g =>
    if n == 0 then
      if m == 0 then (z, flagNV) else (inf (s != t), flagOF ||| flagNX ||| flagDZ)
    else
      let q := if e ≤ g then e else g
      let r := roundRatio md (s != t) (m * 2 ^ (e - q).toNat) (n * 2 ^ (g - q).toNat)
      let v : Int := (if s != t then -(r.1 : Int) else (r.1 : Int)) + (z : Int)
      if v < 0 then (0, flagOF ||| flagNX)
      else if (top : Int) < v then (top, flagOF ||| flagNX)
      else (v.toNat, flagIf r.2 flagNX)

/-- Dequantisation of R95: s × (q − z) rounded once, no flush. -/
def dequantise (md : RMode) (q scale z : Nat) : Nat × Flags :=
  let s := fmt16.decode scale
  let d : Int := (q : Int) - (z : Int)
  let p := vMul s (.fin (decide (d < 0)) d.natAbs 0)
  let r := fmt32.round md false p.1
  (r.1, snanFlags [s] ||| p.2 ||| r.2)

/-! ## Integer conversions (08 R148) -/

/-- An FP32 value rounded to an integer of `lo` to `hi`; NV without NX outside. -/
def f32ToInt (md : RMode) (lo hi : Int) (x : Nat) : Int × Flags :=
  match fmt32.decode x with
  | .nan _ => (0, flagNV)
  | .inf n => ((if n then lo else hi), flagNV)
  | .fin n m e =>
    let r := roundAt md n m e false 0
    let v : Int := if n then -(r.1 : Int) else (r.1 : Int)
    if v < lo then (lo, flagNV) else if hi < v then (hi, flagNV) else (v, flagIf r.2 flagNX)

/-- An integer rounded to FP32. -/
def intToF32 (md : RMode) (v : Int) : Nat × Flags := fmt32.round md false (.fin (decide (v < 0)) v.natAbs 0)

/-- A value of one format delivered in another, R82 and R83. -/
def convert (src dst : Fmt) (md : RMode) (fi fo : Bool) (a : Nat) : Nat × Flags :=
  let x := src.decode (src.flushIn fi a)
  let r := dst.round md fo x
  (r.1, snanFlags [x] ||| r.2)

/-- a × s of FP32 a and s, delivered in an FP8 format (08 codes 6, 7; R86). -/
def scaleTo8 (dst : Fmt) (md : RMode) (a s : Nat) : Nat × Flags :=
  let x := fmt32.decode a
  let y := fmt32.decode s
  let p := vMul x y
  let r := dst.round md false p.1
  (r.1, snanFlags [x, y] ||| p.2 ||| r.2)

/-- An FP8 code times an FP32 scale, rounded to nearest even (08 codes 8, 9). -/
def scaleFrom8 (src : Fmt) (a s : Nat) : Nat × Flags :=
  let x := src.decode a
  let y := fmt32.decode s
  let p := vMul x y
  let r := fmt32.round .rn false p.1
  (r.1, snanFlags [x, y] ||| p.2 ||| r.2)

/-- R150: acc + s32(a) × sa × sb with one rounding. DESIGN CHOICE (log 99): the spec gives no order of the factors for NV; here a × sa
comes first, so that of a zero partial sum, an infinite and a NaN scale, NV is raised where the infinite one is sa. -/
def saccValue (md : RMode) (fi fo : Bool) (acc : Nat) (a : Int) (sb sc : Nat) : Nat × Flags :=
  let x := fmt32.decode (fmt32.flushIn fi acc)
  let y := fmt16.decode (fmt16.flushIn fi sb)
  let z := fmt16.decode (fmt16.flushIn fi sc)
  let p := vMul (.fin (decide (a < 0)) a.natAbs 0) y
  let q := vMul p.1 z
  let s := vAdd md x q.1
  let r := fmt32.round md fo s.1
  (r.1, snanFlags [x, y, z] ||| p.2 ||| q.2 ||| s.2 ||| r.2)

/-- R110: the amax register after folding one live input. A NaN stays until cleared. -/
def amaxFold (cur x : Word) : Word :=
  let mag := x &&& 0x7FFFFFFF#32
  if (0x7F800000#32).ult cur then cur
  else if (0x7F800000#32).ult mag then 0x7FC00000#32
  else if cur.ult mag then mag else cur

/-! ## Exact integers of the log array (11 R207, R208) -/

/-- One product's term of a block sum in units of 2^-31 (L8) or 2^-55 (L16), NaR as `none` (11 Table 11.8). -/
def LogFmt.term (l : LogFmt) (a b : Nat) : Option Int :=
  match l.decode a, l.decode b with
  | .nar, _ => none
  | _, .nar => none
  | .zero, _ => some 0
  | _, .zero => some 0
  | .num s x, .num t y =>
    let d : Int := (2 ^ l.fr : Nat)
    let sum := x + y
    let i := sum / d
    let off : Int := if l.fr == 4 then 8 else 32
    let v : Int := (l.tab (sum % d).toNat * 2 ^ (i + off).toNat : Nat)
    some (if s != t then -v else v)

/-- R207: the exact sum of a block added to the accumulator with its two roundings. -/
def LogFmt.blockAdd (l : LogFmt) (acc : Nat) (terms : List (Option Int)) (ea eb : Int) : Nat × Flags :=
  let nar := terms.any Option.isNone
  let s : Int := (terms.map (fun t => t.getD 0)).foldl (· + ·) 0
  let unit : Int := if l.fr == 4 then 31 else 55
  let v := if nar then (fmt32.nanCode, flagNV)
           else fmt32.round .rn false (.fin (decide (s < 0)) s.natAbs (ea + eb - unit))
  let r := fAdd fmt32 .rn false false acc v.1
  (r.1, v.2 ||| r.2)

/-! ## The exact cell (13 R241) -/

/-- R241: an operand added to an exact cell; the new cell and whether XO is raised. -/
def exactCellAdd (cell : BitVec 128) (x : Val) : BitVec 128 × Bool :=
  match x with
  | .nan _ => (cell ||| (1#128 <<< 121), false)
  | .inf _ => (cell ||| (1#128 <<< 121), false)
  | .fin n m e =>
    let ce : Int := (cell.extractLsb' 112 8).toInt
    let r := roundAt .rz n m e false ce
    let c1 := if r.2 then cell ||| (1#128 <<< 122) else cell
    if 2 ^ 96 ≤ r.1 then (c1 ||| (1#128 <<< 120), true)
    else
      let q : BitVec 112 := BitVec.ofNat 112 r.1
      let acc := cell.extractLsb' 0 112
      (c1.extractLsb' 112 16 ++ (if n then acc - q else acc + q), false)

end Sys2Proof.Machine
end

