-- ==== Sys2Proof/Machine/Lanes.lean ====
section
/-! DEFINITION. Rows of 32 lanes, and the pure parts of the integer words (spec/07) and of the cross-lane words
(spec/09): what each computes from the elements it reads. -/

namespace Sys2Proof.Machine

/-- The row whose lane L holds `f L`. -/
def rowGen (f : Nat → Word) : Row := (List.range 32).map f

/-- Lane `l`'s element; zero beyond the row. -/
def lane (r : Row) (l : Nat) : Word := r.getD l 0#32

/-- The row of one value. -/
def rowBroadcast (v : Word) : Row := rowGen fun _ => v

def rowZero : Row := rowGen fun _ => 0#32

/-- Lane `l` is in the set. -/
def inSet (s : LaneSet) (l : Nat) : Bool := s.getLsbD l

/-- The lanes of a set in increasing order. -/
def lanesOf (s : LaneSet) : List Nat := (List.range 32).filter (inSet s)

/-- The lane set of a predicate. -/
def setOf (p : Nat → Bool) : LaneSet :=
  (List.range 32).foldl (fun acc l => if p l then acc ||| (1#32 <<< l) else acc) 0#32

/-- The lowest lane of a set; 32 where it is empty. -/
def lowestLane (s : LaneSet) : Nat := ((List.range 32).find? (inSet s)).getD 32

/-- Number of lanes of a set. -/
def laneCount (s : LaneSet) : Nat := (lanesOf s).length

/-- Lanes of `act` take `new`, the others keep `old` (06 R102). -/
def rowMerge (act : LaneSet) (old new : Row) : Row :=
  rowGen fun l => if inSet act l then lane new l else lane old l

/-- Lanes of `act` keep their element, the others are zero (06 R103). -/
def rowMask (act : LaneSet) (r : Row) : Row := rowGen fun l => if inSet act l then lane r l else 0#32

/-! ## Integer arithmetic (07 R127 to R134) -/

/-- Shift count of R115: bits [4:0]. -/
def shiftCount (b : Word) : Nat := (b &&& 31#32).toNat

/-- A 16-bit operation on both halves, with no carry between them (05 R79). -/
def onHalves (f : BitVec 16 → BitVec 16 → BitVec 16) (a b : Word) : Word :=
  f (a.extractLsb' 16 16) (b.extractLsb' 16 16) ++ f (a.extractLsb' 0 16) (b.extractLsb' 0 16)

/-- Signed (`s`) or unsigned minimum or maximum (`mx`). -/
def minMax {w : Nat} (s mx : Bool) (a b : BitVec w) : BitVec w :=
  if (if s then a.slt b else a.ult b) != mx then a else b

/-- Quotient, remainder and anomaly of `div.s32`, `rem.s32` (R129). -/
def divS32 (x y : Word) : Word × Word × Bool :=
  if y == 0#32 then ((if x.slt 0#32 then 0x80000000#32 else 0x7FFFFFFF#32), x, true)
  else if x == 0x80000000#32 && y == 0xFFFFFFFF#32 then (x, 0#32, true)
  else (x.sdiv y, x.srem y, false)

/-- Quotient, remainder and anomaly of `divz.z32`, `remz.z32` (R129). -/
def divZ32 (x y : Word) : Word × Word × Bool :=
  if y == 0#32 then (0x7FFFFFFF#32, x, true) else (x / y, x % y, false)

/-- `mulhi.s32`. -/
def mulHiS (a b : Word) : Word := hi32 (a.signExtend 64 * b.signExtend 64)
/-- `mulhz.z32`. -/
def mulHiZ (a b : Word) : Word := hi32 (a.setWidth 64 * b.setWidth 64)

/-- Number of 1 bits (R130). -/
def popCount (a : Word) : Word := BitVec.ofNat 32 (laneCount a)
/-- Leading zeros, 32 for zero (R130). -/
def leadingZeros (a : Word) : Word := if a == 0#32 then 32#32 else BitVec.ofNat 32 (31 - Nat.log2 a.toNat)
/-- Bit i is bit 31 − i of a (R130). -/
def bitReverse (a : Word) : Word := setOf fun i => inSet a (31 - i)

/-- Position and effective length of a bit field, n = min(len, 32 − pos) (R130). -/
def fieldPos (b : Word) : Nat := shiftCount b
def fieldLen (b : Word) : Nat := min ((b >>> 8) &&& 31#32).toNat (32 - fieldPos b)

/-- `bfe.z32`. -/
def bfeZ (a b : Word) : Word := BitVec.ofNat 32 (a.toNat / 2 ^ fieldPos b % 2 ^ fieldLen b)
/-- `bfe.s32`; 0 when n = 0. -/
def bfeS (a b : Word) : Word :=
  if fieldLen b == 0 then 0#32
  else ((bfeZ a b) <<< (32 - fieldLen b)).sshiftRight (32 - fieldLen b)
/-- `bfi.b32` into `d`. -/
def bfi (d a b : Word) : Word :=
  let m : Word := BitVec.ofNat 32 ((2 ^ fieldLen b - 1) * 2 ^ fieldPos b)
  (d &&& ~~~m) ||| ((a <<< fieldPos b) &&& m)

/-- The comparison of R131: `e` counts eq, ne, lt, le, gt, ge. -/
def compare32 (s : Bool) (e : Nat) (a b : Word) : Bool :=
  let lt := if s then a.slt b else a.ult b
  match e with
  | 0 => a == b
  | 1 => a != b
  | 2 => lt
  | 3 => lt || a == b
  | 4 => !(lt || a == b)
  | _ => !lt

/-- Low bit and width of field `i` of a cut (02 R18). -/
def cutLo (ws : List Nat) (i : Nat) : Nat := (ws.take i).foldl (· + ·) 0
def cutW (ws : List Nat) (i : Nat) : Nat := ws.getD i 0

/-- `wext` (R134). -/
def wext (ws : List Nat) (i : Nat) (a : Word64) : Word64 :=
  BitVec.ofNat 64 (a.toNat / 2 ^ cutLo ws i % 2 ^ cutW ws i)
/-- `wpack` (R134). -/
def wpack (ws : List Nat) (i : Nat) (a b : Word64) : Word64 :=
  let m : Word64 := BitVec.ofNat 64 ((2 ^ cutW ws i - 1) * 2 ^ cutLo ws i)
  (a &&& ~~~m) ||| ((b <<< cutLo ws i) &&& m)

/-! ## Cross-lane words (09) -/

/-- Source lane of a shuffle, or `none` where it leaves the warp (R157): `op` is the sub code. -/
def shflSource (op l : Nat) (v : Word) : Option Nat :=
  match op with
  | 0 => some (v.toNat % 32)
  | 1 => if v.toNat % 64 ≤ l then some (l - v.toNat % 64) else none
  | 2 => if l + v.toNat % 64 ≤ 31 then some (l + v.toNat % 64) else none
  | _ => some (Nat.xor l (v.toNat % 32))

/-- R157: the shuffled row. -/
def shuffle (op : Nat) (a b : Row) : Row :=
  rowGen fun l =>
    match shflSource op l (lane b l) with
    | some s => lane a s
    | none => lane a l

/-- The reduction and scan operations of 04 Table 4.7. -/
inductive RedOp where
  | addS32 | maxS32 | minS32 | addF32 | maxZ32 | minZ32 | maxF32 | minF32
  deriving DecidableEq, Repr

/-- The operation's code. -/
def RedOp.code : RedOp → Nat
  | .addS32 => 0 | .maxS32 => 1 | .minS32 => 2 | .addF32 => 3
  | .maxZ32 => 4 | .minZ32 => 5 | .maxF32 => 6 | .minF32 => 7

/-- The operation combines FP32 values. -/
def RedOp.isF32 : RedOp → Bool
  | .addF32 | .maxF32 | .minF32 => true
  | _ => false

/-- One combination with its flags (R154, R160): its operands are elements already read, or earlier combinations. -/
def RedOp.combine (o : RedOp) (md : RMode) (fo : Bool) (x y : Word) : Word × Flags :=
  let ofNat (p : Nat × Flags) : Word × Flags := (BitVec.ofNat 32 p.1, p.2)
  match o with
  | .addS32 => (x + y, 0#8)
  | .maxS32 => (minMax true true x y, 0#8)
  | .minS32 => (minMax true false x y, 0#8)
  | .addF32 => ofNat (fAdd fmt32 md false fo x.toNat y.toNat)
  | .maxZ32 => (minMax false true x y, 0#8)
  | .minZ32 => (minMax false false x y, 0#8)
  | .maxF32 => ofNat (fMinMax fmt32 false true x.toNat y.toNat)
  | .minF32 => ofNat (fMinMax fmt32 false false x.toNat y.toNat)

/-- The identity of `nred` with P = 0 (13 R248). -/
def RedOp.identity : RedOp → Word
  | .addS32 => 0#32 | .maxS32 => 0x80000000#32 | .minS32 => 0x7FFFFFFF#32 | .addF32 => 0#32
  | .maxZ32 => 0#32 | .minZ32 => 0xFFFFFFFF#32 | .maxF32 => 0xFF800000#32 | .minF32 => 0x7F800000#32

/-- An element as a fold first reads it: the input flush for the FP32 codes (R160, R161). -/
def RedOp.read (o : RedOp) (fi : Bool) (x : Word) : Word :=
  if o.isF32 then BitVec.ofNat 32 (fmt32.flushIn fi x.toNat) else x

/-- The segment of each active lane: the lanes that begin a segment (R159). -/
def segHeads (act : LaneSet) (m : LaneSet) : LaneSet :=
  setOf fun l => inSet act l && (inSet m l || l == lowestLane act)

/-- The head of the segment lane `l` belongs to. -/
def segHeadOf (act heads : LaneSet) (l : Nat) : Nat :=
  (((List.range (l + 1)).filter fun j => inSet act j && inSet heads j).getLast?).getD 0

/-- The lanes of the segment that lane `l` belongs to. -/
def segLanes (act heads : LaneSet) (l : Nat) : LaneSet :=
  setOf fun j => inSet act j && segHeadOf act heads j == segHeadOf act heads l

/-- R160: the inclusive scan over the segments of `heads`; the flags are those of the combinations at live lanes (06 R109). -/
def scanRow (o : RedOp) (md : RMode) (fi fo : Bool) (act live heads : LaneSet) (a : Row) : Row × Flags :=
  let go := (lanesOf act).foldl (fun (acc : List Word × Option Word × Flags) l =>
    let x := o.read fi (lane a l)
    match (if inSet heads l then none else acc.2.1) with
    | none => (acc.1 ++ [x], some x, acc.2.2)
    | some t =>
      let r := o.combine md fo t x
      (acc.1 ++ [r.1], some r.1, if inSet live l then acc.2.2 ||| r.2 else acc.2.2)) ([], none, 0#8)
  (rowGen fun l => go.1.getD ((lanesOf act).filter (fun j => decide (j < l))).length 0#32, go.2.2)

/-- Two nodes of the tree of R161 joined, an absent one skipped. -/
def treeJoin (o : RedOp) (md : RMode) (fo : Bool) (x y : Option Word × Flags) : Option Word × Flags :=
  match x, y with
  | (some a, f), (some b, g) =>
    let r := o.combine md fo a b
    (some r.1, f ||| g ||| r.2)
  | (some a, f), (none, g) => (some a, f ||| g)
  | (none, f), (b, g) => (b, f ||| g)

/-- One level of the tree. -/
def treeLevel (o : RedOp) (md : RMode) (fo : Bool) :
    List (Option Word × Flags) → List (Option Word × Flags)
  | x :: y :: rest => treeJoin o md fo x y :: treeLevel o md fo rest
  | [x] => [x]
  | [] => []

/-- `k` levels of the tree. -/
def treeFold (o : RedOp) (md : RMode) (fo : Bool) : Nat → List (Option Word × Flags) → Option Word × Flags
  | 0, l => l.headD (none, 0#8)
  | k + 1, l => treeFold o md fo k (treeLevel o md fo l)

/-- R161: the fold of one segment by the fixed tree over lane positions. -/
def reduceLanes (o : RedOp) (md : RMode) (fi fo : Bool) (seg : LaneSet) (a : Row) : Word × Flags :=
  let r := treeFold o md fo 5
    ((List.range 32).map fun l => if inSet seg l then (some (o.read fi (lane a l)), 0#8) else (none, 0#8))
  (r.1.getD 0#32, r.2)

/-- R161 over all segments: each lane of a segment receives the segment's fold; the flags are those of the segments that hold
a live lane (06 R109). -/
def reduceRow (o : RedOp) (md : RMode) (fi fo : Bool) (act live heads : LaneSet) (a : Row) : Row × Flags :=
  let folds := ((lanesOf heads).map fun h => (h, reduceLanes o md fi fo (segLanes act heads h) a))
  (rowGen fun l => ((folds.find? fun p => p.1 == segHeadOf act heads l).map fun p => p.2.1).getD 0#32,
   folds.foldl (fun f p => if segLanes act heads p.1 &&& live = 0 then f else f ||| p.2.2) 0#8)

/-- The orders of `topk` (R162). -/
inductive TopOp where
  | maxS32 | maxZ32 | maxF32
  deriving DecidableEq, Repr

def TopOp.code : TopOp → Nat
  | .maxS32 => 1 | .maxZ32 => 4 | .maxF32 => 6

/-- A key that orders elements as R162 says; every NaN lies lowest. -/
def TopOp.key (o : TopOp) (x : Word) : Int :=
  match o with
  | .maxS32 => x.toInt
  | .maxZ32 => x.toNat
  | .maxF32 =>
    let mag := (x &&& 0x7FFFFFFF#32).toNat
    if 0x7F800000 < mag then -(0x100000000 : Int)
    else if x.msb then -(mag : Int) - 1 else mag

/-- Insertion into a list sorted by key descending, then lane ascending. -/
def rankInsert (k : Int) (l : Nat) : List (Int × Nat) → List (Int × Nat)
  | [] => [(k, l)]
  | p :: rest => if p.1 < k then (k, l) :: p :: rest else p :: rankInsert k l rest

/-- The lanes of a set ranked as R162 says. -/
def rankLanes (o : TopOp) (s : LaneSet) (a : Row) : List Nat :=
  ((lanesOf s).foldl (fun acc l => rankInsert (o.key (lane a l)) l acc) []).map Prod.snd

/-- R162 for aligned groups of `size` lanes. -/
def topkRow (o : TopOp) (size k : Nat) (act : LaneSet) (a : Row) : Row :=
  rowGen fun p =>
    let base := p / size * size
    let ranks := rankLanes o (setOf fun l => inSet act l && l / size * size == base) a
    if p - base < min k ranks.length then BitVec.ofNat 32 (ranks.getD (p - base) 0) else 0xFFFFFFFF#32

end Sys2Proof.Machine
end

