-- ==== Sys2Proof/Syntax.lean ====
section
/-! DEFINITION. The steps of the Psilux 4: one constructor of `Instr` per row of the opcode table. Rows with an
encoding are words (spec/04); rows without one are events, whose operands say where the event happens and what the
outside brings to it. -/

namespace Sys2Proof

open Sys2Proof.Machine (RMode RedOp TopOp)

/-- The two bits every word has: C, chained to the next slot, and Y, switch on stall (04 R64). -/
structure Pfx where
  c : Bool
  y : Bool
  deriving DecidableEq, Repr

/-- A source selector (04 R71, 03 Table 3.1). -/
inductive Src where
  | n (j : Fin 32)
  | q (i : Fin 16)
  | b (i : Fin 4)
  | st (i : Fin 4)
  | k (i : Fin 4)
  | z
  | lane
  | fid
  deriving DecidableEq, Repr

/-- A destination selector (04 R71). -/
inductive Dst where
  | n (j : Fin 32)
  | q
  | st (i : Fin 4)
  | none
  deriving DecidableEq, Repr

/-- A pair source of the vector formats: an n or a k code (04 R73). -/
inductive PSrc where
  | n (j : Fin 32)
  | k (i : Fin 4)
  deriving DecidableEq, Repr

/-- k0 to k15 of a scalar field (04 R72). -/
abbrev KReg := Fin 16
/-- m0 to m3 (04 R72). -/
abbrev MReg := Fin 4
/-- n0 to n31 of a field that names n-registers only. -/
abbrev NReg := Fin 32

/-- Branch conditions of 04 Table 4.5. -/
inductive Cond where
  | al | kt | kf | any | all | none
  | eod (s : Fin 4)
  | neod (s : Fin 4)
  deriving DecidableEq, Repr

/-- Rounding codes of a mod field (04 Table 4.6). -/
inductive Rnd where
  | rd | rn | rz | ru | rm | ra
  deriving DecidableEq, Repr

/-- Integer types of `add`, `sub`, `min`, `max` (04 Table 4.8). -/
inductive IType where
  | s32 | z32 | s16 | z16
  deriving DecidableEq, Repr

/-- Conditions of `cmp` (07 R131). -/
inductive CmpOp where
  | eq | ne | lt | le | gt | ge
  deriving DecidableEq, Repr

/-- `.f16` or `.bf16` of a packed word. -/
inductive HType where
  | f16 | bf16
  deriving DecidableEq, Repr

/-- Memory order codes (04 R70). -/
inductive MOrd where
  | weak | strong | acq | rel
  deriving DecidableEq, Repr

/-- Memory scope codes (04 R70). -/
inductive Scope where
  | sl | cl | dv | sy
  deriving DecidableEq, Repr

/-- Size codes of `ld` (04 Table 4.4). -/
inductive LdSize where
  | b8 | b16 | b32 | b64 | b128 | s8 | s16
  deriving DecidableEq, Repr

/-- Size codes of `st` (04 Table 4.4). -/
inductive StSize where
  | b8 | b16 | b32 | b64 | b128
  deriving DecidableEq, Repr

/-- Sizes of `ldk`, `stk`, `ldc`, `stc`. -/
inductive KSize where
  | b8 | b16 | b32 | b64
  deriving DecidableEq, Repr

/-- Sizes of `lds`, `sts`. -/
inductive SSize where
  | b16 | b32 | b64 | b128
  deriving DecidableEq, Repr

/-- `.b32` or `.b64` of an atomic. -/
inductive ASize where
  | b32 | b64
  deriving DecidableEq, Repr

/-- A side of the log array (11 R198). -/
inductive Side where
  | a | b
  deriving DecidableEq, Repr

/-- Who issues words: a vector fibre (its number ((cluster × 4 + core) × 16 + slot) × 4 + fibre), the frond stream of
a cluster, the Hawkmoth prologue of a queue, or nobody. -/
inductive Agent where
  | vec (key : Nat)
  | frond (cluster : Nat)
  | prol (queue : Nat)
  | none
  deriving DecidableEq, Repr

/-- A register of the host's and the Lichen cluster's spaces that has no row of its own (26 Tables 26.1, 26.6). -/
inductive DevReg where
  | qctl (q : Nat) | qbase (q : Nat) | dqbase (q : Nat)
  | prectlAck (p : Nat)
  | hostwin | bar2ctl | errbase | errctl
  | fabric (i : Nat) | expwin
  | ctxhb (i : Nat) | ctxtb (i : Nat) | ctxts (i : Nat) | ctxAck (i : Nat)
  | attAck | nonce (i : Nat)
  | debug (c : Nat) (r : Nat)
  | bwcfg | pcfg (p : Nat) | netcfg (p : Nat)
  | fstat (c : Nat)
  | half (off : Nat) (hi : Bool)
  | msixTable (i : Nat) (hi : Bool)
  deriving DecidableEq, Repr

/-- A register with RC fields (26 Table 26.3, R426, R428; 20 R351; 22 Table 22.2). -/
inductive RcReg where
  | qerr (q : Nat) | herr | tstat | errstat
  | soft (unit : Nat) (k : Nat)
  deriving DecidableEq, Repr

/-- A network packet of 25 R405: its class (0 request, 1 response, 2 collective), its payload in bytes, the ports it is bound
for (router × 8 + local port), who sent it, the slot, lanes and lowest address of the word it was sent for, its number among
its sender's packets. -/
structure NetPkt where
  cls : Nat
  payload : Nat
  dests : List Nat
  sender : Agent
  slot : Nat
  lanes : BitVec 32
  addr : Word64
  num : Nat
  deriving DecidableEq, Repr
/-- Its length in flits: one of header, and its payload by 64 bytes (25 R405). -/
def NetPkt.flits (p : NetPkt) : Nat := 1 + (p.payload + 63) / 64

/-- A peer's request on the export window (25 R413): 0 read, 1 write, 2 atomic. -/
structure PeerReq where
  kind : Nat
  off : Nat
  size : Nat
  op : Nat
  val : Word64
  new : Word64
  deriving DecidableEq, Repr

/-- One step of the machine. -/
inductive Instr where
  -- 0x00 to 0x03
  | nop (p : Pfx)
  | halt (p : Pfx)
  | bra (p : Pfx) (k : Cond) (o : BitVec 20)
  | call (p : Pfx) (o : BitVec 20)
  | ret (p : Pfx)
  | jmp (p : Pfx) (k : KReg)
  | brd (p : Pfx) (m : MReg) (o : BitVec 20)
  | join (p : Pfx)
  | mand (p : Pfx) (d a b : MReg)
  | mor (p : Pfx) (d a b : MReg)
  | mnot (p : Pfx) (d a : MReg)
  | mmov (p : Pfx) (d a : MReg)
  -- 0x04
  | kadd (p : Pfx) (d a b : KReg)
  | ksub (p : Pfx) (d a b : KReg)
  | kand (p : Pfx) (d a b : KReg)
  | kor (p : Pfx) (d a b : KReg)
  | kxor (p : Pfx) (d a b : KReg)
  | kshl (p : Pfx) (d a b : KReg)
  | kshrZ32 (p : Pfx) (d a b : KReg)
  | kshrS32 (p : Pfx) (d a b : KReg)
  | kmul (p : Pfx) (d a b : KReg)
  | kminS32 (p : Pfx) (d a b : KReg)
  | kminZ32 (p : Pfx) (d a b : KReg)
  | kmaxS32 (p : Pfx) (d a b : KReg)
  | kmaxZ32 (p : Pfx) (d a b : KReg)
  | kcmpEq (p : Pfx) (d a b : KReg)
  | kcmpNe (p : Pfx) (d a b : KReg)
  | kcmpS32Lt (p : Pfx) (d a b : KReg)
  | kcmpZ32Lt (p : Pfx) (d a b : KReg)
  | kcmpS32Le (p : Pfx) (d a b : KReg)
  | kcmpZ32Le (p : Pfx) (d a b : KReg)
  | kmov (p : Pfx) (d a : KReg)
  -- 0x05
  | kaddi (p : Pfx) (d a : KReg) (i : BitVec 9)
  | kandi (p : Pfx) (d a : KReg) (i : BitVec 9)
  | kori (p : Pfx) (d a : KReg) (i : BitVec 9)
  | kxori (p : Pfx) (d a : KReg) (i : BitVec 9)
  | kshli (p : Pfx) (d a : KReg) (i : Fin 32)
  | kshriZ32 (p : Pfx) (d a : KReg) (i : Fin 32)
  | kshriS32 (p : Pfx) (d a : KReg) (i : Fin 32)
  | kmovi (p : Pfx) (d : KReg) (i : BitVec 9)
  -- 0x06, 0x07
  | wait (p : Pfx) (x : Fin 4) (i : BitVec 8)
  | yield (p : Pfx)
  | fbar (p : Pfx) (s : BitVec 4)
  | fstop (p : Pfx) (f : Fin 4)
  | fwake (p : Pfx) (f : Fin 4)
  | trap (p : Pfx) (i : BitVec 8)
  | tret (p : Pfx)
  | csrr (p : Pfx) (x : KReg) (i : BitVec 8)
  | csrw (p : Pfx) (x : KReg) (i : BitVec 8)
  | rgrow (p : Pfx) (i : BitVec 8)
  | rshrink (p : Pfx) (i : BitVec 8)
  -- 0x08
  | ldk (p : Pfx) (d a : KReg) (z : KSize) (o : Fin 32) (r : MOrd) (s : Scope)
  | stk (p : Pfx) (d a : KReg) (z : KSize) (o : Fin 32) (r : MOrd) (s : Scope)
  -- 0x09
  | setrm (p : Pfx) (m : BitVec 3)
  | rdflags (p : Pfx) (x : KReg)
  | clrflags (p : Pfx) (f : BitVec 8)
  | rdamax (p : Pfx) (x : KReg) (s : Bool)
  | clramax (p : Pfx) (s : Bool)
  -- 0x0A, 0x0B
  | sbind (p : Pfx) (x : KReg) (s : Fin 4)
  | srst (p : Pfx) (s : Fin 4)
  | sadv (p : Pfx) (x : KReg) (s : Fin 4)
  | sstat (p : Pfx) (x : KReg) (s : Fin 4)
  | enq (p : Pfx) (x : KReg) (q : Fin 32)
  -- 0x10, 0x11
  | add (p : Pfx) (d : Dst) (a b : Src) (t : IType)
  | sub (p : Pfx) (d : Dst) (a b : Src) (t : IType)
  | min (p : Pfx) (d : Dst) (a b : Src) (t : IType)
  | max (p : Pfx) (d : Dst) (a b : Src) (t : IType)
  | and (p : Pfx) (d : Dst) (a b : Src)
  | or (p : Pfx) (d : Dst) (a b : Src)
  | xor (p : Pfx) (d : Dst) (a b : Src)
  | shl (p : Pfx) (d : Dst) (a b : Src)
  | shrS32 (p : Pfx) (d : Dst) (a b : Src)
  | shrZ32 (p : Pfx) (d : Dst) (a b : Src)
  | addi (p : Pfx) (d : Dst) (a : Src) (i : BitVec 9)
  | andi (p : Pfx) (d : Dst) (a : Src) (i : BitVec 9)
  | ori (p : Pfx) (d : Dst) (a : Src) (i : BitVec 9)
  | xori (p : Pfx) (d : Dst) (a : Src) (i : BitVec 9)
  | shli (p : Pfx) (d : Dst) (a : Src) (i : Fin 32)
  | shriZ32 (p : Pfx) (d : Dst) (a : Src) (i : Fin 32)
  | shriS32 (p : Pfx) (d : Dst) (a : Src) (i : Fin 32)
  | rsubi (p : Pfx) (d : Dst) (a : Src) (i : BitVec 9)
  -- 0x12, 0x13
  | mul (p : Pfx) (d : Dst) (a b : Src)
  | mulhi (p : Pfx) (d : Dst) (a b : Src)
  | mulhz (p : Pfx) (d : Dst) (a b : Src)
  | div (p : Pfx) (d : Dst) (a b : Src)
  | divz (p : Pfx) (d : Dst) (a b : Src)
  | rem (p : Pfx) (d : Dst) (a b : Src)
  | remz (p : Pfx) (d : Dst) (a b : Src)
  | popc (p : Pfx) (d : Dst) (a : Src)
  | clz (p : Pfx) (d : Dst) (a : Src)
  | brev (p : Pfx) (d : Dst) (a : Src)
  | bfeZ32 (p : Pfx) (d : Dst) (a b : Src)
  | bfeS32 (p : Pfx) (d : Dst) (a b : Src)
  | bfi (p : Pfx) (d : Dst) (a b : Src)
  -- 0x14, 0x15
  | cmp (p : Pfx) (d : MReg) (a b : Src) (e : CmpOp) (unsigned : Bool)
  | movi (p : Pfx) (d : Dst) (i : BitVec 9)
  | mov (p : Pfx) (d : Dst) (a : Src)
  | sel (p : Pfx) (d : Dst) (a : Src) (m : MReg)
  -- 0x16 to 0x1B
  | faddF32 (p : Pfx) (d : Dst) (a b : Src) (r : Rnd)
  | fsubF32 (p : Pfx) (d : Dst) (a b : Src) (r : Rnd)
  | fmulF32 (p : Pfx) (d : Dst) (a b : Src) (r : Rnd)
  | fminF32 (p : Pfx) (d : Dst) (a b : Src) (r : Rnd)
  | fmaxF32 (p : Pfx) (d : Dst) (a b : Src) (r : Rnd)
  | fabsF32 (p : Pfx) (d : Dst) (a : Src) (r : Rnd)
  | fnegF32 (p : Pfx) (d : Dst) (a : Src) (r : Rnd)
  | ffmaF32 (p : Pfx) (d : Dst) (a b : Src) (u : Fin 16)
  | ffmsF32 (p : Pfx) (d : Dst) (a b : Src) (u : Fin 16)
  | fnmaF32 (p : Pfx) (d : Dst) (a b : Src) (u : Fin 16)
  | faddF16Bf16 (p : Pfx) (d : Dst) (a b : Src) (t : HType) (r : Rnd)
  | fsubF16Bf16 (p : Pfx) (d : Dst) (a b : Src) (t : HType) (r : Rnd)
  | fmulF16Bf16 (p : Pfx) (d : Dst) (a b : Src) (t : HType) (r : Rnd)
  | ffmaF16Bf16 (p : Pfx) (d : Dst) (a b : Src) (t : HType) (u : Fin 16)
  | ffmsF16Bf16 (p : Pfx) (d : Dst) (a b : Src) (t : HType) (u : Fin 16)
  | faddF64 (p : Pfx) (d : NReg) (a b : PSrc) (r : Rnd)
  | fsubF64 (p : Pfx) (d : NReg) (a b : PSrc) (r : Rnd)
  | fmulF64 (p : Pfx) (d : NReg) (a b : PSrc) (r : Rnd)
  | ffmaF64 (p : Pfx) (d : NReg) (a b : PSrc) (r : Rnd)
  | fminF64 (p : Pfx) (d : NReg) (a b : PSrc) (r : Rnd)
  | fmaxF64 (p : Pfx) (d : NReg) (a b : PSrc) (r : Rnd)
  | rcp (p : Pfx) (d : Dst) (a : Src) (r : Rnd)
  | rsq (p : Pfx) (d : Dst) (a : Src) (r : Rnd)
  | sqrt (p : Pfx) (d : Dst) (a : Src) (r : Rnd)
  | exp2 (p : Pfx) (d : Dst) (a : Src) (r : Rnd)
  | log2 (p : Pfx) (d : Dst) (a : Src) (r : Rnd)
  | sin (p : Pfx) (d : Dst) (a : Src) (r : Rnd)
  | cos (p : Pfx) (d : Dst) (a : Src) (r : Rnd)
  -- 0x1C, 0x1D
  | cvtF32F16 (p : Pfx) (d : Dst) (a : Src)
  | cvtF32Bf16 (p : Pfx) (d : Dst) (a : Src)
  | cvtF16F32 (p : Pfx) (d : Dst) (a : Src)
  | cvtBf16F32 (p : Pfx) (d : Dst) (a : Src)
  | cvtF64F32 (p : Pfx) (d : NReg) (a : Src)
  | cvtF32F64 (p : Pfx) (d : Dst) (a : PSrc)
  | cvtE4m3F32 (p : Pfx) (d : Dst) (a b : Src) (x : Bool)
  | cvtE5m2F32 (p : Pfx) (d : Dst) (a b : Src) (x : Bool)
  | cvtF32E4m3 (p : Pfx) (d : Dst) (a b : Src)
  | cvtF32E5m2 (p : Pfx) (d : Dst) (a b : Src)
  | cvtL8F32 (p : Pfx) (d : Dst) (a b : Src) (x : Bool)
  | cvtL16F32 (p : Pfx) (d : Dst) (a b : Src) (x : Bool)
  | cvtF32L8 (p : Pfx) (d : Dst) (a b : Src)
  | cvtF32L16 (p : Pfx) (d : Dst) (a b : Src)
  | cvtQ8F32 (p : Pfx) (d : Dst) (a b : Src) (x : Bool)
  | cvtQ4F32 (p : Pfx) (d : Dst) (a b : Src) (x : Bool)
  | cvtF32Q8 (p : Pfx) (d : Dst) (a b : Src)
  | cvtF32Q4 (p : Pfx) (d : Dst) (a b : Src)
  | cvtS32F32 (p : Pfx) (d : Dst) (a : Src)
  | cvtS32F32Rz (p : Pfx) (d : Dst) (a : Src)
  | cvtZ32F32 (p : Pfx) (d : Dst) (a : Src)
  | cvtF32S32 (p : Pfx) (d : Dst) (a : Src)
  | cvtF32Z32 (p : Pfx) (d : Dst) (a : Src)
  | sacc (p : Pfx) (d : Dst) (a b e : Src)
  -- 0x1E to 0x21
  | shflIdx (p : Pfx) (d : Dst) (a b : Src)
  | shflUp (p : Pfx) (d : Dst) (a b : Src)
  | shflDown (p : Pfx) (d : Dst) (a b : Src)
  | shflXor (p : Pfx) (d : Dst) (a b : Src)
  | voteAny (p : Pfx) (d a : MReg)
  | voteAll (p : Pfx) (d a : MReg)
  | voteUni (p : Pfx) (d a : MReg)
  | ballot (p : Pfx) (d : KReg) (a : MReg)
  | mpopcBelow (p : Pfx) (d : Dst) (a : MReg)
  | mpopcTotal (p : Pfx) (d : Dst) (a : MReg)
  | scan (p : Pfx) (d : Dst) (a : Src) (o : RedOp)
  | red (p : Pfx) (d : Dst) (a : Src) (o : RedOp)
  | redSeg (p : Pfx) (d : Dst) (a : Src) (b : MReg) (o : RedOp)
  | scanSeg (p : Pfx) (d : Dst) (a : Src) (b : MReg) (o : RedOp)
  | topk (p : Pfx) (d : Dst) (a b : Src) (o : TopOp)
  | topkSeg (p : Pfx) (d : Dst) (a b : Src) (o : TopOp)
  | xshuf (p : Pfx) (d : Dst) (a b : Src)
  | regroup (p : Pfx) (d : Dst) (a : Src)
  | lea (p : Pfx) (d : NReg) (a : PSrc) (b : Src) (e : Fin 5)
  | wpack (p : Pfx) (d : NReg) (a b : PSrc) (e : Fin 6)
  | wext (p : Pfx) (d : NReg) (a : PSrc) (e : Fin 6)
  | addD (p : Pfx) (d : NReg) (a b : PSrc)
  | subD (p : Pfx) (d : NReg) (a b : PSrc)
  -- 0x30 to 0x37
  | ld (p : Pfx) (d a : NReg) (z : LdSize) (o : Fin 32) (r : MOrd) (s : Scope)
  | st (p : Pfx) (d a : NReg) (z : StSize) (o : Fin 32) (r : MOrd) (s : Scope)
  | ldc (p : Pfx) (d a : NReg) (z : KSize) (r : MOrd) (s : Scope)
  | stc (p : Pfx) (d a : NReg) (z : KSize) (r : MOrd) (s : Scope)
  | lds (p : Pfx) (d a : NReg) (z : SSize) (o : Fin 32) (r : MOrd) (s : Scope)
  | sts (p : Pfx) (d a : NReg) (z : SSize) (o : Fin 32) (r : MOrd) (s : Scope)
  | atomAdd (p : Pfx) (d a : NReg) (z : ASize) (r : MOrd) (s : Scope)
  | atomAnd (p : Pfx) (d a : NReg) (z : ASize) (r : MOrd) (s : Scope)
  | atomOr (p : Pfx) (d a : NReg) (z : ASize) (r : MOrd) (s : Scope)
  | atomXor (p : Pfx) (d a : NReg) (z : ASize) (r : MOrd) (s : Scope)
  | atomMinS (p : Pfx) (d a : NReg) (z : ASize) (r : MOrd) (s : Scope)
  | atomMaxS (p : Pfx) (d a : NReg) (z : ASize) (r : MOrd) (s : Scope)
  | atomMinZ (p : Pfx) (d a : NReg) (z : ASize) (r : MOrd) (s : Scope)
  | atomMaxZ (p : Pfx) (d a : NReg) (z : ASize) (r : MOrd) (s : Scope)
  | atomExch (p : Pfx) (d a : NReg) (z : ASize) (r : MOrd) (s : Scope)
  | atomCas (p : Pfx) (d a : NReg) (z : ASize) (r : MOrd) (s : Scope)
  | atomFadd (p : Pfx) (d a : NReg) (r : MOrd) (s : Scope)
  | atomXadd (p : Pfx) (d a : NReg) (z : ASize) (r : MOrd) (s : Scope)
  | barArr (p : Pfx) (x : KReg) (i : Fin 64)
  | barWt (p : Pfx) (x : KReg) (i : Fin 64)
  | barTst (p : Pfx) (x : KReg) (i : Fin 64)
  | fence (p : Pfx) (o : MOrd) (s : Scope)
  | seal (p : Pfx) (x w : KReg)
  | unseal (p : Pfx) (x w : KReg)
  | cwb (p : Pfx) (x w : KReg)
  | cinv (p : Pfx) (x w : KReg)
  | nred (p : Pfx) (x w : KReg) (o : RedOp)
  | nbar (p : Pfx) (w : KReg)
  | rsig (p : Pfx) (x w : KReg)
  -- 0x38 to 0x3A
  | axins (p : Pfx) (x w : KReg)
  | axdel (p : Pfx) (x : KReg)
  | axset (p : Pfx) (x w : KReg)
  | axpub (p : Pfx) (s : Scope)
  | axrd (p : Pfx) (x w : KReg)
  | thset (p : Pfx) (x w : KReg)
  | thget (p : Pfx) (x w : KReg)
  | thfill (p : Pfx) (x w : KReg)
  | tbres (p : Pfx) (x : KReg) (t : Fin 32)
  | tbcom (p : Pfx) (t : Fin 32)
  | tbacq (p : Pfx) (x : KReg) (t : Fin 32)
  | tbrel (p : Pfx) (t : Fin 32)
  | tbst (p : Pfx) (x : KReg) (t : Fin 32)
  -- 0x3B to 0x3D
  | mxgat (p : Pfx) (a b : KReg) (s : Side) (k : Fin 32)
  | mxlda (p : Pfx) (a : KReg) (s : Side) (k : Fin 32)
  | mxmul (p : Pfx) (n : Fin 4)
  | mxzero (p : Pfx) (n : Fin 4)
  | mxdrn (p : Pfx) (a : KReg) (n : Fin 4) (f : Bool)
  | mxwait (p : Pfx) (n : Fin 4) (f : Bool)
  | mxmeta (p : Pfx) (a : KReg) (n : Fin 4) (s : Side) (f : Bool)
  -- events of fibres, streams and their engines
  | packetFetch (a : Agent)
  | watchdog (a : Agent)
  | breakpoint (a : Agent)
  | dataWatchpoint (a : Agent) (lanes : LaneSet) (va : Word64)
  | singleStep (a : Agent)
  | releaseEnd (cluster : Nat)
  | releaseReturn (cluster : Nat)
  | registerWrite (r : DevReg) (v : Word64)
  | readClear (r : RcReg)
  | stagingStore (a : Agent) (reg : Fin 4) (v : Word64)
  | go (a : Agent)
  | goAccept (cluster : Nat)
  | copyCommandStart (cluster : Nat)
  | copyLineTransfer (cluster : Nat)
  | copyCommandComplete (cluster : Nat)
  | copyCommandFault (cluster : Nat) (cause sub : Nat)
  | copyFaultDelivery (a : Agent)
  | fstart (a : Agent) (v : Word64)
  | frondStreamStart (cluster : Nat)
  | frondStreamEnd (cluster : Nat)
  | mxLoadComplete (cluster : Nat)
  | mxOperationComplete (cluster : Nat)
  | mxDrainComplete (cluster : Nat)
  | loadDataReturn (a : Agent)
  | storePerformed (a : Agent)
  | slicePassGrant (cluster : Nat)
  | scratchpadWriteRefused (a : Agent) (va : Word64) (lanes : LaneSet)
  | acknowledgementReturn (unit launch : Nat)
  | barrierArrival (launch g : Nat) (i : Nat) (c : Nat) (a : Agent)
  | rsigRefusal (a : Agent) (sig : Word64)
  | exchangeMessageArrival (cluster : Nat)
  | exchangeTimeout (a : Agent)
  | regroupMove (launch g f : Nat)
  | reductionResult (launch j : Nat) (bar : Bool)
  | reductionTimeout (launch j : Nat) (bar : Bool)
  | networkFailureDelivery (a : Agent) (cause : Nat) (lanes : LaneSet) (va : Word64)
  | axpubComplete (a : Agent)
  | sealComplete (a : Agent)
  | unsealComplete (a : Agent)
  | cacheMaintenanceComplete (a : Agent)
  | streamFetch (a : Agent) (s : Fin 4)
  | tileBufferApply (cluster : Nat)
  | rgrowGrant (core : Nat)
  | registerGrowEviction (core : Nat)
  | evictedSlotRestore (core : Nat)
  -- events of the stage scheduler and the Hawkmoth core
  | workgroupPlacement (launch : Nat)
  | warpRetire (warp : Nat)
  | taskNotCreated (launch : Nat)
  | launchCompletion (comp : Nat)
  | qtail (q : Nat) (t : Word)
  | signal (q : Nat)
  | waitPacket (q : Nat)
  | waitPacketPoll (q : Nat)
  | launch (q : Nat)
  | launchIndirect (q : Nat)
  | prologueStepLimit (q : Nat)
  | nopPacket (q : Nat)
  | reservedPacket (q : Nat)
  | overflowDrain (q : Nat)
  | timeTriggeredSlot (i : Nat)
  | timeTriggeredEntryWrite (i w : Nat) (v : Word64)
  | clusterReassignment (part : Nat)
  | batchStart (launch : Nat)
  | tokenRefill
  | portAdmission (cluster : Nat)
  | throttlePeriod (core : Nat)
  | congestionRefresh
  | drain (part : Nat)
  | forced (part : Nat)
  | restore (part : Nat)
  | evict (part : Nat)
  | savedArrivalApply (part : Nat)
  -- events of the host, the Lichen cluster, the network and the package
  | attestationGo
  | attestationDone
  | contextEnable (i : Nat) (v : Word64)
  | contextDisable (i : Nat)
  | cpartWrite (cluster : Nat) (v : Word64)
  | cpartTakesEffect (cluster : Nat)
  | pmemWrite (part j : Nat) (v : Word64)
  | accwWrite (hi : Bool) (v : Word64)
  | bar2Access (write : Bool) (off size : Nat) (v : Word64)
  | peerRequest (r : PeerReq)
  | flitForward (router input : Nat)
  | linkReplay (link : Nat)
  | linkDown (link : Nat)
  | routerGate (router : Nat)
  | routerWake (router : Nat) (pkt : NetPkt)
  | powerGood (fcode : Fin 8)
  | powerLoss
  | conventionalReset
  | functionLevelReset
  | thermalReport (die celsius : Nat)
  | statisticsSample
  | errorRecord (kind unit : Nat) (pa : Nat)
  | scrub (cluster : Nat)
  | lpddr6Refresh (channel bank : Nat)
  | timeCorrection (ahead : Bool) (ns : Nat)
  | linkUp (link : Nat)
  | launchCancellation (comp : Nat)
  deriving DecidableEq, Repr

end Sys2Proof
end

