-- ==== Sys2Proof/WellFormed.lean ====
section
/-! DEFINITION. Which terms of `Instr` stand for a legal step: the pair and quad rules (04 R73), the order and scope
pairings (13 R231), the CSR numbers (06 R107) and row counts (10 Table 10.2) of words; the ranges of units in events. -/

namespace Sys2Proof

/-- The field of a pair names an even register (04 R73). -/
def evenK (k : KReg) : Bool := k.val % 2 == 0
/-- An even n-register. -/
def evenN (n : NReg) : Bool := n.val % 2 == 0
/-- A multiple of 4 (a quad). -/
def quadN (n : NReg) : Bool := n.val % 4 == 0
/-- An even pair source; the code of k j is 56 + j. -/
def PSrc.even : PSrc → Bool
  | .n j => j.val % 2 == 0
  | .k i => i.val % 2 == 0

/-- Loads take no release, stores no acquire, and a weak access carries no scope (13 R231, Table 13.2). -/
def loadOrd (r : MOrd) (s : Scope) : Bool :=
  match r with
  | .weak => s == .sl
  | .rel => false
  | _ => true
/-- Orders of a store (13 Table 13.2). -/
def storeOrd (r : MOrd) (s : Scope) : Bool :=
  match r with
  | .weak => s == .sl
  | .acq => false
  | _ => true
/-- Orders of an atomic (13 Table 13.2). -/
def atomOrd (r : MOrd) (s : Scope) : Bool :=
  match r with
  | .weak => s == .sl
  | _ => true

/-- CSR numbers of a vector core (06 Table 6.3). -/
def csrListed (i : Nat) : Bool :=
  i ≤ 6 || (8 ≤ i && i ≤ 12) || (0x10 ≤ i && i ≤ 0x18) || (0x20 ≤ i && i ≤ 0x3F)
/-- CSR numbers of a frond stream (11 R197). -/
def csrFrond (i : Nat) : Bool :=
  i == 0 || i == 1 || i == 4 || (0x10 ≤ i && i ≤ 0x18) || (0x21 ≤ i && i ≤ 0x3F)
/-- CSRs that `csrw` may name (06 Table 6.3): `fmode`, `fflags` and the handler's own. -/
def csrWritable (i : Nat) : Bool := i == 0 || i == 1 || i == 0x10 || i == 0x16 || i == 0x17
/-- CSRs marked "handler" (06 Table 6.7). -/
def csrHandler (i : Nat) : Bool := i == 0x10 || i == 0x16 || i == 0x17
/-- 1 to 128 rows (10 Table 10.2). -/
def rowCount (i : Nat) : Bool := 1 ≤ i && i ≤ 128

/-- The data field of `ld`, `st` (04 Table 4.4). -/
def ldPair (z : LdSize) (d : NReg) : Bool :=
  match z with
  | .b64 => evenN d
  | .b128 => quadN d
  | _ => true
/-- The data field of `st`. -/
def stPair (z : StSize) (d : NReg) : Bool :=
  match z with
  | .b64 => evenN d
  | .b128 => quadN d
  | _ => true
/-- The data field of `ldc`, `stc`. -/
def kszPair (z : KSize) (even : Bool) : Bool :=
  match z with
  | .b64 => even
  | _ => true
/-- The data field of `lds`, `sts`. -/
def sszPair (z : SSize) (d : NReg) : Bool :=
  match z with
  | .b64 => evenN d
  | .b128 => quadN d
  | _ => true
/-- The data field of an atomic with one value (13 Table 13.5). -/
def aszPair (z : ASize) (d : NReg) : Bool :=
  match z with
  | .b32 => true
  | .b64 => evenN d
/-- The data field of `atom.cas` (13 Table 13.5). -/
def casPair (z : ASize) (d : NReg) : Bool :=
  match z with
  | .b32 => evenN d
  | .b64 => quadN d

/-- An agent that exists: 192 clusters of 4 cores of 16 slots of 4 fibres, 192 frond cores, 32 queues (01 R9, 22). -/
def Agent.wf : Agent → Bool
  | .vec k => k < 192 * 256
  | .frond c => c < 192
  | .prol q => q < 32
  | .none => false

/-- A link of the grid of 10 rows and 8 columns (01 R11): router × 64 + output, to another router. -/
def linkWf (l : Nat) : Bool :=
  let r := l / 64
  let o := l % 64
  r < 80 && ((o < 8 && o ≠ r % 8) || (8 ≤ o && o < 18 && o - 8 ≠ r / 8))
/-- A local port of a router: four of a cluster router, two of a slice router, the third of router 0 (01 R12, R14). -/
def portWf (r p : Nat) : Bool := r < 80 && (p < (if r / 8 < 2 || 8 ≤ r / 8 then 2 else 4) || (r = 0 && p = 2))
/-- An input of a router: a link that reaches it, or a local port. -/
def inputWf (r i : Nat) : Bool :=
  if i / 64 = r then 18 ≤ i % 64 && portWf r (i % 64 - 18)
  else linkWf i && (if i % 64 < 8 then i / 64 / 8 * 8 + i % 64 else (i % 64 - 8) * 8 + i / 64 % 8) = r
/-- A packet whose class, length and ports exist (25 R405, R406). -/
def NetPkt.wf (p : NetPkt) : Bool :=
  p.cls < 3 && p.flits ≤ 256 && p.slot < 3 && p.dests.all fun d => portWf (d / 8) (d % 8)
/-- A cause that a failure in the network delivers (25 R414). -/
def netCause (c : Nat) : Bool := c == 0x1C0 || c == 0x1C1 || c == 0x1C2 || c == 0x1F6 || c == 0x1C7

/-- A register that exists (26 Tables 26.1, 26.6). -/
def DevReg.wf : DevReg → Bool
  | .qctl q | .qbase q | .dqbase q => q < 32
  | .prectlAck p | .pcfg p | .netcfg p => p < 16
  | .fabric i => i < 64
  | .ctxhb i | .ctxtb i | .ctxts i | .ctxAck i => i < 64
  | .nonce i => i < 8
  | .debug c r => c < 192 && r < 8
  | .fstat c => c < 192
  | .half o _ => o < 2 ^ 20 && o % 8 == 0
  | .msixTable i _ => i < 33
  | _ => true

/-- A register with RC fields that exists. -/
def RcReg.wf : RcReg → Bool
  | .qerr q => q < 32
  | _ => true

/-- Legal steps: words that no check of 04 Table 4.10 made on the word alone refuses, events of units that exist. -/
def Instr.wf : Instr → Bool
  | .rgrow _ i | .rshrink _ i => rowCount i.toNat
  | .csrr _ _ i => csrListed i.toNat
  | .csrw _ _ i => csrListed i.toNat && csrWritable i.toNat
  | .ldk _ d a z _ r s => loadOrd r s && evenK a && kszPair z (evenK d)
  | .stk _ d a z _ r s => storeOrd r s && evenK a && kszPair z (evenK d)
  | .sbind _ x _ => evenK x
  | .enq _ x _ => evenK x
  | .faddF64 _ d a b _ | .fsubF64 _ d a b _ | .fmulF64 _ d a b _ | .ffmaF64 _ d a b _ | .fminF64 _ d a b _
  | .fmaxF64 _ d a b _ => evenN d && a.even && b.even
  | .cvtF64F32 _ d _ => evenN d
  | .cvtF32F64 _ _ a => a.even
  | .lea _ d a _ _ => evenN d && a.even
  | .wpack _ d a b _ => evenN d && a.even && b.even
  | .wext _ d a _ => evenN d && a.even
  | .addD _ d a b | .subD _ d a b => evenN d && a.even && b.even
  | .ld _ d a z _ r s => loadOrd r s && ldPair z d && evenN a
  | .st _ d a z _ r s => storeOrd r s && stPair z d && evenN a
  | .ldc _ d a z r s => loadOrd r s && kszPair z (evenN d) && evenN a
  | .stc _ d a z r s => storeOrd r s && kszPair z (evenN d) && evenN a
  | .lds _ d _ z _ r s => loadOrd r s && sszPair z d
  | .sts _ d _ z _ r s => storeOrd r s && sszPair z d
  | .atomAdd _ d a z r s | .atomAnd _ d a z r s | .atomOr _ d a z r s | .atomXor _ d a z r s
  | .atomMinS _ d a z r s | .atomMaxS _ d a z r s | .atomMinZ _ d a z r s | .atomMaxZ _ d a z r s
  | .atomExch _ d a z r s | .atomXadd _ d a z r s => atomOrd r s && aszPair z d && evenN a
  | .atomCas _ d a z r s => atomOrd r s && casPair z d && evenN a
  | .atomFadd _ _ a r s => atomOrd r s && evenN a
  | .fence _ o _ => o != .weak
  | .seal _ x _ | .unseal _ x _ | .cwb _ x _ | .cinv _ x _ => evenK x
  | .rsig _ x _ => evenK x
  | .axins _ _ w | .axset _ _ w | .axrd _ _ w | .thset _ _ w | .thget _ _ w | .thfill _ _ w => evenK w
  | .mxgat _ a _ _ _ => evenK a
  | .mxlda _ a _ _ => evenK a
  | .mxdrn _ a _ _ => evenK a
  | .mxwait _ n f => !f || n == 0
  | .mxmeta _ _ n s f => if f then n == 0 else s == .a
  | .packetFetch a | .watchdog a | .breakpoint a | .dataWatchpoint a _ _ | .singleStep a | .go a
  | .copyFaultDelivery a | .loadDataReturn a | .storePerformed a | .rsigRefusal a _ | .exchangeTimeout a
  | .axpubComplete a | .sealComplete a | .unsealComplete a
  | .cacheMaintenanceComplete a | .streamFetch a _ | .stagingStore a _ _ | .fstart a _
  | .scratchpadWriteRefused a _ _ => a.wf
  | .releaseEnd c | .releaseReturn c | .goAccept c | .copyCommandStart c | .copyLineTransfer c
  | .copyCommandComplete c | .copyCommandFault c _ _ | .frondStreamStart c | .frondStreamEnd c | .mxLoadComplete c
  | .mxOperationComplete c | .mxDrainComplete c | .slicePassGrant c | .exchangeMessageArrival c
  | .tileBufferApply c | .portAdmission c | .cpartWrite c _ | .cpartTakesEffect c | .scrub c => c < 192
  | .registerWrite r _ => r.wf
  | .readClear r => r.wf
  | .barrierArrival _ _ i _ _ => i < 64
  | .rgrowGrant c | .registerGrowEviction c | .evictedSlotRestore c | .throttlePeriod c => c < 768
  | .qtail q _ | .signal q | .waitPacket q | .waitPacketPoll q | .launch q | .launchIndirect q
  | .prologueStepLimit q | .nopPacket q | .reservedPacket q | .overflowDrain q => q < 32
  | .timeTriggeredSlot i => i < 64
  | .timeTriggeredEntryWrite i w _ => i < 64 && w < 4
  | .clusterReassignment p => p < 16
  | .drain p | .forced p | .restore p | .evict p | .savedArrivalApply p => p < 16
  | .contextEnable i _ => i < 64
  | .contextDisable i => i < 64
  | .pmemWrite p j _ => p < 16 && j < 4
  | .peerRequest r => r.kind < 3
  | .networkFailureDelivery a c _ _ => a.wf && netCause c
  | .flitForward r i => r < 80 && inputWf r i
  | .linkReplay l | .linkDown l | .linkUp l => linkWf l
  | .routerGate r => r < 80
  | .routerWake r p => r < 80 && p.wf
  | .nop .. | .halt .. | .bra .. | .call .. | .ret .. | .jmp .. | .brd .. | .join .. | .mand .. | .mor ..
  | .mnot .. | .mmov .. | .kadd .. | .ksub .. | .kand .. | .kor .. | .kxor .. | .kshl .. | .kshrZ32 ..
  | .kshrS32 .. | .kmul .. | .kminS32 .. | .kminZ32 .. | .kmaxS32 .. | .kmaxZ32 .. | .kcmpEq .. | .kcmpNe ..
  | .kcmpS32Lt .. | .kcmpZ32Lt .. | .kcmpS32Le .. | .kcmpZ32Le .. | .kmov .. | .kaddi .. | .kandi .. | .kori ..
  | .kxori .. | .kshli .. | .kshriZ32 .. | .kshriS32 .. | .kmovi .. | .wait .. | .yield .. | .fbar .. | .fstop ..
  | .fwake .. | .trap .. | .tret .. | .setrm .. | .rdflags .. | .clrflags .. | .rdamax .. | .clramax .. | .srst ..
  | .sadv .. | .sstat .. | .add .. | .sub .. | .min .. | .max .. | .and .. | .or .. | .xor .. | .shl ..
  | .shrS32 .. | .shrZ32 .. | .addi .. | .andi .. | .ori .. | .xori .. | .shli .. | .shriZ32 .. | .shriS32 ..
  | .rsubi .. | .mul .. | .mulhi .. | .mulhz .. | .div .. | .divz .. | .rem .. | .remz .. | .popc .. | .clz ..
  | .brev .. | .bfeZ32 .. | .bfeS32 .. | .bfi .. | .cmp .. | .movi .. | .mov .. | .sel .. | .faddF32 ..
  | .fsubF32 .. | .fmulF32 .. | .fminF32 .. | .fmaxF32 .. | .fabsF32 .. | .fnegF32 .. | .ffmaF32 .. | .ffmsF32 ..
  | .fnmaF32 .. | .faddF16Bf16 .. | .fsubF16Bf16 .. | .fmulF16Bf16 .. | .ffmaF16Bf16 .. | .ffmsF16Bf16 .. | .rcp ..
  | .rsq .. | .sqrt .. | .exp2 .. | .log2 .. | .sin .. | .cos .. | .cvtF32F16 .. | .cvtF32Bf16 .. | .cvtF16F32 ..
  | .cvtBf16F32 .. | .cvtE4m3F32 .. | .cvtE5m2F32 .. | .cvtF32E4m3 .. | .cvtF32E5m2 .. | .cvtL8F32 ..
  | .cvtL16F32 .. | .cvtF32L8 .. | .cvtF32L16 .. | .cvtQ8F32 .. | .cvtQ4F32 .. | .cvtF32Q8 .. | .cvtF32Q4 ..
  | .cvtS32F32 .. | .cvtS32F32Rz .. | .cvtZ32F32 .. | .cvtF32S32 .. | .cvtF32Z32 .. | .sacc .. | .shflIdx ..
  | .shflUp .. | .shflDown .. | .shflXor .. | .voteAny .. | .voteAll .. | .voteUni .. | .ballot .. | .mpopcBelow ..
  | .mpopcTotal .. | .scan .. | .red .. | .redSeg .. | .scanSeg .. | .topk .. | .topkSeg .. | .xshuf ..
  | .regroup .. | .barArr .. | .barWt .. | .barTst .. | .nred .. | .nbar .. | .axdel .. | .axpub .. | .tbres ..
  | .tbcom .. | .tbacq .. | .tbrel .. | .tbst .. | .mxmul .. | .mxzero .. | .acknowledgementReturn ..
  | .regroupMove .. | .reductionResult .. | .reductionTimeout .. | .workgroupPlacement .. | .warpRetire ..
  | .taskNotCreated .. | .launchCompletion .. | .batchStart .. | .tokenRefill .. | .congestionRefresh ..
  | .attestationGo .. | .attestationDone .. | .accwWrite .. | .bar2Access .. | .powerGood .. | .powerLoss .. | .conventionalReset .. | .functionLevelReset ..
  | .thermalReport .. | .statisticsSample .. | .errorRecord .. | .lpddr6Refresh ..
  | .timeCorrection .. | .launchCancellation .. => true

end Sys2Proof
end

