-- ==== Sys2Proof/Decode.lean ====
section
/-! DEFINITION. Decoding of one 32-bit word (spec/04, with the fields of 07 to 11, 13, 17, 18, 22, 23), total on any
bits. `decodeRaw` makes the checks of 04 Table 4.10 with causes 0x001 to 0x004 that need the word alone, in the order
of R78; `decode` adds the parity check 0x005, which R78 makes last. After it, `encode`. -/

namespace Sys2Proof

/-- A decoder's answer: the instruction, or the cause of 04 Table 4.10. -/
abbrev Dec := Except Nat Instr

/-- `n` bits of `w` from bit `lo`. -/
def fld (w lo n : Nat) : Nat := w / 2 ^ lo % 2 ^ n

/-- Source codes of 03 Table 3.1; 63 is reserved (04 R71). -/
def srcOf (c : Nat) : Option Src :=
  if c < 32 then some (.n (Fin.ofNat 32 c))
  else if c < 48 then some (.q (Fin.ofNat 16 (c - 32)))
  else if c < 52 then some (.b (Fin.ofNat 4 (c - 48)))
  else if c < 56 then some (.st (Fin.ofNat 4 (c - 52)))
  else if c < 60 then some (.k (Fin.ofNat 4 (c - 56)))
  else if c = 60 then some .z
  else if c = 61 then some .lane
  else if c = 62 then some .fid
  else none
/-- Destination codes (04 R71). -/
def dstOf (c : Nat) : Option Dst :=
  if c < 32 then some (.n (Fin.ofNat 32 c))
  else if c = 32 then some .q
  else if c < 52 then none
  else if c < 56 then some (.st (Fin.ofNat 4 (c - 52)))
  else if c = 63 then some .none
  else none
/-- Pair codes: an n-register or a k-register (04 R73). -/
def psrcOf (c : Nat) : Option PSrc :=
  if c < 32 then some (.n (Fin.ofNat 32 c))
  else if c < 56 then none
  else if c < 60 then some (.k (Fin.ofNat 4 (c - 56)))
  else none
/-- n0 to n31 only. -/
def nOf (c : Nat) : Option NReg := if c < 32 then some (Fin.ofNat 32 c) else none
/-- k0 to k15 (04 R72). -/
def kOf (c : Nat) : Option KReg := if c < 16 then some (Fin.ofNat 16 c) else none
/-- m0 to m3 (04 R72). -/
def mOf (c : Nat) : Option MReg := if c < 4 then some (Fin.ofNat 4 c) else none
/-- An unread source field holds 60 (04 R71). -/
def zOf (c : Nat) : Option Unit := if c = 60 then some () else none

/-- 04 Table 4.5. -/
def condOf (c : Nat) : Option Cond :=
  match c with
  | 0 => some .al | 1 => some .kt | 2 => some .kf | 3 => some .any | 4 => some .all | 5 => some .none
  | 6 => some (.eod 0) | 7 => some (.eod 1) | 8 => some (.eod 2) | 9 => some (.eod 3)
  | 10 => some (.neod 0) | 11 => some (.neod 1) | 12 => some (.neod 2) | 13 => some (.neod 3)
  | _ => none
/-- 04 Table 4.6. -/
def rndOf (c : Nat) : Option Rnd :=
  match c with
  | 0 => some .rd | 1 => some .rn | 2 => some .rz | 3 => some .ru | 4 => some .rm | 5 => some .ra
  | _ => none
/-- The types of `add`, `sub`, `min`, `max` (04 Table 4.7, 07 R127). -/
def itypeOf (c : Nat) : Option IType :=
  match c with
  | 0 => some .s32 | 1 => some .z32 | 3 => some .s16 | 4 => some .z16
  | _ => none
/-- 07 R131. -/
def cmpOf (c : Nat) : Option CmpOp :=
  match c with
  | 0 => some .eq | 1 => some .ne | 2 => some .lt | 3 => some .le | 4 => some .gt | 5 => some .ge
  | _ => none
/-- 04 Table 4.7, reductions. -/
def redOf (c : Nat) : Machine.RedOp :=
  match c with
  | 0 => .addS32 | 1 => .maxS32 | 2 => .minS32 | 3 => .addF32 | 4 => .maxZ32 | 5 => .minZ32 | 6 => .maxF32
  | _ => .minF32
/-- `topk`: mod 001, 100 or 110 only. -/
def topOf (c : Nat) : Option Machine.TopOp :=
  match c with
  | 1 => some .maxS32 | 4 => some .maxZ32 | 6 => some .maxF32
  | _ => none
/-- Order codes (04 R70). -/
def ordOf (c : Nat) : MOrd :=
  match c with
  | 0 => .weak | 1 => .strong | 2 => .acq
  | _ => .rel
/-- Scope codes (04 R70). -/
def scopeOf (c : Nat) : Scope :=
  match c with
  | 0 => .sl | 1 => .cl | 2 => .dv
  | _ => .sy
/-- 04 Table 4.4. -/
def ldSizeOf (c : Nat) : Option LdSize :=
  match c with
  | 0 => some .b8 | 1 => some .b16 | 2 => some .b32 | 3 => some .b64 | 4 => some .b128 | 5 => some .s8
  | 6 => some .s16
  | _ => none
/-- 04 Table 4.4. -/
def stSizeOf (c : Nat) : Option StSize :=
  match c with
  | 0 => some .b8 | 1 => some .b16 | 2 => some .b32 | 3 => some .b64 | 4 => some .b128
  | _ => none
/-- size[1:0] of 0x08 and 0x32. -/
def kSizeOf (c : Nat) : KSize :=
  match c with
  | 0 => .b8 | 1 => .b16 | 2 => .b32
  | _ => .b64
/-- size[1:0] of 0x33. -/
def sSizeOf (c : Nat) : SSize :=
  match c with
  | 0 => .b16 | 1 => .b32 | 2 => .b64
  | _ => .b128
/-- Size codes 010 and 011 of 0x34. -/
def aSizeOf (c : Nat) : Option ASize :=
  match c with
  | 2 => some .b32 | 3 => some .b64
  | _ => none
/-- side of 11 R199. -/
def sideOf (c : Nat) : Side := if c = 0 then .a else .b

/-- The cause 0x002, 0x003 or 0x004 for a field without an instruction, else the instruction. -/
def orCause {α : Type} (o : Option α) (cause : Nat) (k : α → Dec) : Dec :=
  match o with
  | some x => k x
  | none => .error cause
/-- A field that must hold what the tables say, else 0x002. -/
def must (b : Bool) (k : Dec) : Dec := if b then k else .error 0x002

/-- d, a, b of a vector word. -/
def dab (w : Nat) (k : Dst → Src → Src → Instr) : Dec :=
  orCause (dstOf (fld w 18 6)) 4 fun d => orCause (srcOf (fld w 12 6)) 4 fun a =>
  orCause (srcOf (fld w 6 6)) 4 fun b => .ok (k d a b)
/-- d, a of a vector word whose b is not read. -/
def daz (w : Nat) (k : Dst → Src → Instr) : Dec :=
  orCause (dstOf (fld w 18 6)) 4 fun d => orCause (srcOf (fld w 12 6)) 4 fun a =>
  orCause (zOf (fld w 6 6)) 4 fun _ => .ok (k d a)
/-- d, a of a VI word. -/
def daI (w : Nat) (k : Dst → Src → Instr) : Dec :=
  orCause (dstOf (fld w 18 6)) 4 fun d => orCause (srcOf (fld w 12 6)) 4 fun a => .ok (k d a)
/-- d, a, b pairs. -/
def dabP (w : Nat) (k : NReg → PSrc → PSrc → Instr) : Dec :=
  orCause (nOf (fld w 18 6)) 4 fun d => orCause (psrcOf (fld w 12 6)) 4 fun a =>
  orCause (psrcOf (fld w 6 6)) 4 fun b => .ok (k d a b)
/-- d, a, b k-registers. -/
def dabK (w : Nat) (k : KReg → KReg → KReg → Instr) : Dec :=
  orCause (kOf (fld w 18 6)) 4 fun d => orCause (kOf (fld w 12 6)) 4 fun a =>
  orCause (kOf (fld w 6 6)) 4 fun b => .ok (k d a b)
/-- d, a k-registers. -/
def daK (w : Nat) (k : KReg → KReg → Instr) : Dec :=
  orCause (kOf (fld w 18 6)) 4 fun d => orCause (kOf (fld w 12 6)) 4 fun a => .ok (k d a)
/-- d, a of MEM majors 0x30 to 0x34. -/
def daN (w : Nat) (k : NReg → NReg → Instr) : Dec :=
  orCause (nOf (fld w 18 6)) 4 fun d => orCause (nOf (fld w 12 6)) 4 fun a => .ok (k d a)
/-- x of a SYS word as a k-register. -/
def xK (w : Nat) (k : KReg → Instr) : Dec := orCause (kOf (fld w 18 6)) 4 fun x => .ok (k x)
/-- x and y of a SYS word as k-registers. -/
def xyK (w : Nat) (k : KReg → KReg → Instr) : Dec :=
  orCause (kOf (fld w 18 6)) 4 fun x => orCause (kOf (fld w 12 6)) 4 fun y => .ok (k x y)
/-- y of a SYS word as a k-register. -/
def yK (w : Nat) (k : KReg → Instr) : Dec := orCause (kOf (fld w 12 6)) 4 fun y => .ok (k y)

/-- Major 0x00. -/
def dec00 (p : Pfx) (w : Nat) : Dec :=
  must (fld w 12 12 == 0 && fld w 0 8 == 0) <|
  match fld w 8 4 with
  | 0 => .ok (.nop p)
  | 1 => .ok (.halt p)
  | _ => .error 0x002
/-- Major 0x01. -/
def dec01 (p : Pfx) (w : Nat) : Dec :=
  orCause (condOf (fld w 20 4)) 2 fun c => .ok (.bra p c (BitVec.ofNat 20 (fld w 0 20)))
/-- Major 0x02. -/
def dec02 (p : Pfx) (w : Nat) : Dec :=
  match fld w 20 4 with
  | 0 => .ok (.call p (BitVec.ofNat 20 (fld w 0 20)))
  | 1 => must (fld w 0 20 == 0) (.ok (.ret p))
  | 2 => must (fld w 4 16 == 0) (.ok (.jmp p (Fin.ofNat 16 (fld w 0 4))))
  | _ => .error 0x002
/-- Major 0x03. -/
def dec03 (p : Pfx) (w : Nat) : Dec :=
  let d : MReg := Fin.ofNat 4 (fld w 4 2)
  let a : MReg := Fin.ofNat 4 (fld w 2 2)
  let b : MReg := Fin.ofNat 4 (fld w 0 2)
  let o := BitVec.ofNat 20 (fld w 0 20)
  match fld w 20 4 with
  | 0 => .ok (.brd p 0 o)
  | 1 => .ok (.brd p 1 o)
  | 2 => .ok (.brd p 2 o)
  | 3 => .ok (.brd p 3 o)
  | 4 => must (fld w 0 20 == 0) (.ok (.join p))
  | 5 => must (fld w 6 14 == 0) (.ok (.mand p d a b))
  | 6 => must (fld w 6 14 == 0) (.ok (.mor p d a b))
  | 7 => must (fld w 6 14 == 0 && fld w 0 2 == 0) (.ok (.mnot p d a))
  | 8 => must (fld w 6 14 == 0 && fld w 0 2 == 0) (.ok (.mmov p d a))
  | _ => .error 0x002
/-- Major 0x04. -/
def dec04 (p : Pfx) (w : Nat) : Dec :=
  match fld w 0 6 with
  | 0 => dabK w (.kadd p) | 1 => dabK w (.ksub p) | 2 => dabK w (.kand p) | 3 => dabK w (.kor p)
  | 4 => dabK w (.kxor p) | 5 => dabK w (.kshl p) | 6 => dabK w (.kshrZ32 p) | 7 => dabK w (.kshrS32 p)
  | 8 => dabK w (.kmul p) | 9 => dabK w (.kminS32 p) | 10 => dabK w (.kminZ32 p) | 11 => dabK w (.kmaxS32 p)
  | 12 => dabK w (.kmaxZ32 p) | 13 => dabK w (.kcmpEq p) | 14 => dabK w (.kcmpNe p)
  | 15 => dabK w (.kcmpS32Lt p) | 16 => dabK w (.kcmpZ32Lt p) | 17 => dabK w (.kcmpS32Le p)
  | 18 => dabK w (.kcmpZ32Le p)
  | 19 => must (fld w 6 6 == 0) (daK w (.kmov p))
  | _ => .error 0x002
/-- Major 0x05. -/
def dec05 (p : Pfx) (w : Nat) : Dec :=
  let i := BitVec.ofNat 9 (fld w 0 9)
  let u := fld w 0 9
  match fld w 9 3 with
  | 0 => daK w (.kaddi p · · i)
  | 1 => daK w (.kandi p · · i)
  | 2 => daK w (.kori p · · i)
  | 3 => daK w (.kxori p · · i)
  | 4 => must (decide (u < 32)) (daK w (.kshli p · · (Fin.ofNat 32 u)))
  | 5 => must (decide (u < 32)) (daK w (.kshriZ32 p · · (Fin.ofNat 32 u)))
  | 6 => must (decide (u < 32)) (daK w (.kshriS32 p · · (Fin.ofNat 32 u)))
  | _ => must (fld w 12 6 == 0) (xK w (.kmovi p · i))
/-- Major 0x06. -/
def dec06 (p : Pfx) (w : Nat) : Dec :=
  let x := fld w 18 6
  let i := fld w 0 8
  must (fld w 12 6 == 0) <|
  match fld w 8 4 with
  | 0 => must (decide (x < 4)) (.ok (.wait p (Fin.ofNat 4 x) (BitVec.ofNat 8 i)))
  | 1 => must (x == 0 && i == 0) (.ok (.yield p))
  | 2 => must (x == 0 && decide (i < 16)) (.ok (.fbar p (BitVec.ofNat 4 i)))
  | 3 => must (x == 0 && decide (i < 4)) (.ok (.fstop p (Fin.ofNat 4 i)))
  | 4 => must (x == 0 && decide (i < 4)) (.ok (.fwake p (Fin.ofNat 4 i)))
  | _ => .error 0x002
/-- Major 0x07. -/
def dec07 (p : Pfx) (w : Nat) : Dec :=
  let x := fld w 18 6
  let i := fld w 0 8
  must (fld w 12 6 == 0) <|
  match fld w 8 4 with
  | 0 => must (x == 0) (.ok (.trap p (BitVec.ofNat 8 i)))
  | 1 => must (x == 0 && i == 0) (.ok (.tret p))
  | 2 => must (csrListed i) (xK w (.csrr p · (BitVec.ofNat 8 i)))
  | 3 => must (csrListed i && csrWritable i) (xK w (.csrw p · (BitVec.ofNat 8 i)))
  | 4 => must (x == 0 && rowCount i) (.ok (.rgrow p (BitVec.ofNat 8 i)))
  | 5 => must (x == 0 && rowCount i) (.ok (.rshrink p (BitVec.ofNat 8 i)))
  | _ => .error 0x002
/-- Major 0x08. -/
def dec08 (p : Pfx) (w : Nat) : Dec :=
  let r := ordOf (fld w 2 2)
  let s := scopeOf (fld w 0 2)
  let o : Fin 32 := Fin.ofNat 32 (fld w 4 5)
  let z := kSizeOf (fld w 9 2)
  if fld w 11 1 = 0 then must (loadOrd r s) (daK w (.ldk p · · z o r s))
  else must (storeOrd r s) (daK w (.stk p · · z o r s))
/-- Major 0x09. -/
def dec09 (p : Pfx) (w : Nat) : Dec :=
  let x := fld w 18 6
  let i := fld w 0 8
  must (fld w 12 6 == 0) <|
  match fld w 8 4 with
  | 0 => must (x == 0 && decide (i < 8)) (.ok (.setrm p (BitVec.ofNat 3 i)))
  | 1 => must (i == 0) (xK w (.rdflags p))
  | 2 => must (x == 0) (.ok (.clrflags p (BitVec.ofNat 8 i)))
  | 3 => must (decide (i < 2)) (xK w (.rdamax p · (i == 1)))
  | 4 => must (x == 0 && decide (i < 2)) (.ok (.clramax p (i == 1)))
  | _ => .error 0x002
/-- Major 0x0A. -/
def dec0A (p : Pfx) (w : Nat) : Dec :=
  let i : Fin 4 := Fin.ofNat 4 (fld w 0 8)
  must (fld w 12 6 == 0 && decide (fld w 0 8 < 4)) <|
  match fld w 8 4 with
  | 0 => xK w (.sbind p · i)
  | 1 => must (fld w 18 6 == 0) (.ok (.srst p i))
  | 2 => xK w (.sadv p · i)
  | 3 => xK w (.sstat p · i)
  | _ => .error 0x002
/-- Major 0x0B. -/
def dec0B (p : Pfx) (w : Nat) : Dec :=
  must (fld w 12 6 == 0 && decide (fld w 0 8 < 32) && fld w 8 4 == 0) (xK w (.enq p · (Fin.ofNat 32 (fld w 0 8))))
/-- Major 0x10. -/
def dec10 (p : Pfx) (w : Nat) : Dec :=
  let m := fld w 0 3
  match fld w 3 3 with
  | 0 => orCause (itypeOf m) 2 fun t => dab w (.add p · · · t)
  | 1 => orCause (itypeOf m) 2 fun t => dab w (.sub p · · · t)
  | 2 => orCause (itypeOf m) 2 fun t => dab w (.min p · · · t)
  | 3 => orCause (itypeOf m) 2 fun t => dab w (.max p · · · t)
  | 4 => must (m == 2) (dab w (.and p))
  | 5 => must (m == 2) (dab w (.or p))
  | 6 => must (m == 2) (dab w (.xor p))
  | _ =>
    match m with
    | 2 => dab w (.shl p)
    | 0 => dab w (.shrS32 p)
    | 1 => dab w (.shrZ32 p)
    | _ => .error 0x002
/-- Major 0x11. -/
def dec11 (p : Pfx) (w : Nat) : Dec :=
  let u := fld w 0 9
  let i := BitVec.ofNat 9 u
  match fld w 9 3 with
  | 0 => daI w (.addi p · · i)
  | 1 => daI w (.andi p · · i)
  | 2 => daI w (.ori p · · i)
  | 3 => daI w (.xori p · · i)
  | 4 => must (decide (u < 32)) (daI w (.shli p · · (Fin.ofNat 32 u)))
  | 5 => must (decide (u < 32)) (daI w (.shriZ32 p · · (Fin.ofNat 32 u)))
  | 6 => must (decide (u < 32)) (daI w (.shriS32 p · · (Fin.ofNat 32 u)))
  | _ => daI w (.rsubi p · · i)
/-- Major 0x12. -/
def dec12 (p : Pfx) (w : Nat) : Dec :=
  must (fld w 0 3 == 0) <|
  match fld w 3 3 with
  | 0 => dab w (.mul p) | 1 => dab w (.mulhi p) | 2 => dab w (.mulhz p) | 3 => dab w (.div p)
  | 4 => dab w (.divz p) | 5 => dab w (.rem p) | 6 => dab w (.remz p)
  | _ => .error 0x002
/-- Major 0x13. -/
def dec13 (p : Pfx) (w : Nat) : Dec :=
  must (fld w 0 3 == 0) <|
  match fld w 3 3 with
  | 0 => daz w (.popc p) | 1 => daz w (.clz p) | 2 => daz w (.brev p)
  | 3 => dab w (.bfeZ32 p) | 4 => dab w (.bfeS32 p) | 5 => dab w (.bfi p)
  | _ => .error 0x002
/-- Major 0x14. -/
def dec14 (p : Pfx) (w : Nat) : Dec :=
  orCause (cmpOf (fld w 3 3)) 2 fun e =>
  must (decide (fld w 0 3 < 2)) <|
  orCause (mOf (fld w 18 6)) 4 fun d => orCause (srcOf (fld w 12 6)) 4 fun a =>
  orCause (srcOf (fld w 6 6)) 4 fun b => .ok (.cmp p d a b e (fld w 0 3 == 1))
/-- Major 0x15. -/
def dec15 (p : Pfx) (w : Nat) : Dec :=
  let u := fld w 0 9
  match fld w 9 3 with
  | 0 => orCause (dstOf (fld w 18 6)) 4 fun d => orCause (zOf (fld w 12 6)) 4 fun _ =>
      .ok (.movi p d (BitVec.ofNat 9 u))
  | 1 => must (u == 0) (daI w (.mov p))
  | 2 => must (decide (u < 4)) (daI w (.sel p · · (Fin.ofNat 4 u)))
  | _ => .error 0x002
/-- Major 0x16. -/
def dec16 (p : Pfx) (w : Nat) : Dec :=
  let r (k : Rnd → Dec) : Dec := orCause (rndOf (fld w 0 3)) 3 k
  match fld w 3 3 with
  | 0 => r fun r => dab w (.faddF32 p · · · r)
  | 1 => r fun r => dab w (.fsubF32 p · · · r)
  | 2 => r fun r => dab w (.fmulF32 p · · · r)
  | 3 => r fun r => dab w (.fminF32 p · · · r)
  | 4 => r fun r => dab w (.fmaxF32 p · · · r)
  | 5 => r fun r => daz w (.fabsF32 p · · r)
  | 6 => r fun r => daz w (.fnegF32 p · · r)
  | _ => .error 0x002
/-- Major 0x17. -/
def dec17 (p : Pfx) (w : Nat) : Dec :=
  let u : Fin 16 := Fin.ofNat 16 (fld w 0 4)
  match fld w 4 2 with
  | 0 => dab w (.ffmaF32 p · · · u)
  | 1 => dab w (.ffmsF32 p · · · u)
  | 2 => dab w (.fnmaF32 p · · · u)
  | _ => .error 0x002
/-- Major 0x18. -/
def dec18 (p : Pfx) (w : Nat) : Dec :=
  let t : HType := if fld w 5 1 = 0 then .f16 else .bf16
  let r (k : Rnd → Dec) : Dec := orCause (rndOf (fld w 0 3)) 3 k
  match fld w 3 2 with
  | 0 => r fun r => dab w (.faddF16Bf16 p · · · t r)
  | 1 => r fun r => dab w (.fsubF16Bf16 p · · · t r)
  | 2 => r fun r => dab w (.fmulF16Bf16 p · · · t r)
  | _ => .error 0x002
/-- Major 0x19. -/
def dec19 (p : Pfx) (w : Nat) : Dec :=
  let u : Fin 16 := Fin.ofNat 16 (fld w 0 4)
  match fld w 4 2 with
  | 0 => dab w (.ffmaF16Bf16 p · · · .f16 u)
  | 1 => dab w (.ffmaF16Bf16 p · · · .bf16 u)
  | 2 => dab w (.ffmsF16Bf16 p · · · .f16 u)
  | _ => dab w (.ffmsF16Bf16 p · · · .bf16 u)
/-- Major 0x1A. -/
def dec1A (p : Pfx) (w : Nat) : Dec :=
  let r (k : Rnd → Dec) : Dec := orCause (rndOf (fld w 0 3)) 3 k
  match fld w 3 3 with
  | 0 => r fun r => dabP w (.faddF64 p · · · r)
  | 1 => r fun r => dabP w (.fsubF64 p · · · r)
  | 2 => r fun r => dabP w (.fmulF64 p · · · r)
  | 3 => r fun r => dabP w (.ffmaF64 p · · · r)
  | 4 => r fun r => dabP w (.fminF64 p · · · r)
  | 5 => r fun r => dabP w (.fmaxF64 p · · · r)
  | _ => .error 0x002
/-- Major 0x1B. -/
def dec1B (p : Pfx) (w : Nat) : Dec :=
  let r (k : Rnd → Dec) : Dec := orCause (rndOf (fld w 0 3)) 3 k
  match fld w 3 3 with
  | 0 => r fun r => daz w (.rcp p · · r)
  | 1 => r fun r => daz w (.rsq p · · r)
  | 2 => r fun r => daz w (.sqrt p · · r)
  | 3 => r fun r => daz w (.exp2 p · · r)
  | 4 => r fun r => daz w (.log2 p · · r)
  | 5 => r fun r => daz w (.sin p · · r)
  | 6 => r fun r => daz w (.cos p · · r)
  | _ => .error 0x002
/-- Major 0x1C (04 R75, 08 R146). -/
def dec1C (p : Pfx) (w : Nat) : Dec :=
  let x := fld w 5 1
  let y := x == 1
  match fld w 0 5 with
  | 0 => must (x == 0) (daz w (.cvtF32F16 p))
  | 1 => must (x == 0) (daz w (.cvtF32Bf16 p))
  | 2 => must (x == 0) (daz w (.cvtF16F32 p))
  | 3 => must (x == 0) (daz w (.cvtBf16F32 p))
  | 4 => must (x == 0) <| orCause (nOf (fld w 18 6)) 4 fun d => orCause (srcOf (fld w 12 6)) 4 fun a =>
      orCause (zOf (fld w 6 6)) 4 fun _ => .ok (.cvtF64F32 p d a)
  | 5 => must (x == 0) <| orCause (dstOf (fld w 18 6)) 4 fun d => orCause (psrcOf (fld w 12 6)) 4 fun a =>
      orCause (zOf (fld w 6 6)) 4 fun _ => .ok (.cvtF32F64 p d a)
  | 6 => dab w (.cvtE4m3F32 p · · · y)
  | 7 => dab w (.cvtE5m2F32 p · · · y)
  | 8 => must (x == 0) (dab w (.cvtF32E4m3 p))
  | 9 => must (x == 0) (dab w (.cvtF32E5m2 p))
  | 10 => dab w (.cvtL8F32 p · · · y)
  | 11 => dab w (.cvtL16F32 p · · · y)
  | 12 => must (x == 0) (dab w (.cvtF32L8 p))
  | 13 => must (x == 0) (dab w (.cvtF32L16 p))
  | 14 => dab w (.cvtQ8F32 p · · · y)
  | 15 => dab w (.cvtQ4F32 p · · · y)
  | 16 => must (x == 0) (dab w (.cvtF32Q8 p))
  | 17 => must (x == 0) (dab w (.cvtF32Q4 p))
  | 18 => must (x == 0) (daz w (.cvtS32F32 p))
  | 19 => must (x == 0) (daz w (.cvtS32F32Rz p))
  | 20 => must (x == 0) (daz w (.cvtZ32F32 p))
  | 21 => must (x == 0) (daz w (.cvtF32S32 p))
  | 22 => must (x == 0) (daz w (.cvtF32Z32 p))
  | _ => .error 0x002
/-- Major 0x1D. -/
def dec1D (p : Pfx) (w : Nat) : Dec :=
  orCause (dstOf (fld w 18 6)) 4 fun d => orCause (srcOf (fld w 12 6)) 4 fun a =>
  orCause (srcOf (fld w 6 6)) 4 fun b => orCause (srcOf (fld w 0 6)) 4 fun e => .ok (.sacc p d a b e)
/-- Major 0x1E (09 Table 9.4). -/
def dec1E (p : Pfx) (w : Nat) : Dec :=
  let m := fld w 0 3
  match fld w 3 3 with
  | 0 => must (m == 0) (dab w (.shflIdx p))
  | 1 => must (m == 0) (dab w (.shflUp p))
  | 2 => must (m == 0) (dab w (.shflDown p))
  | 3 => must (m == 0) (dab w (.shflXor p))
  | 4 =>
    let mm (k : MReg → MReg → Instr) : Dec :=
      orCause (mOf (fld w 18 6)) 4 fun d => orCause (mOf (fld w 12 6)) 4 fun a =>
      orCause (zOf (fld w 6 6)) 4 fun _ => .ok (k d a)
    match m with
    | 0 => mm (.voteAny p) | 1 => mm (.voteAll p) | 2 => mm (.voteUni p)
    | _ => .error 0x002
  | 5 => must (m == 0) <| orCause (kOf (fld w 18 6)) 4 fun d => orCause (mOf (fld w 12 6)) 4 fun a =>
      orCause (zOf (fld w 6 6)) 4 fun _ => .ok (.ballot p d a)
  | 6 =>
    let dm (k : Dst → MReg → Instr) : Dec :=
      orCause (dstOf (fld w 18 6)) 4 fun d => orCause (mOf (fld w 12 6)) 4 fun a =>
      orCause (zOf (fld w 6 6)) 4 fun _ => .ok (k d a)
    match m with
    | 0 => dm (.mpopcBelow p) | 1 => dm (.mpopcTotal p)
    | _ => .error 0x002
  | _ => daz w (.scan p · · (redOf m))
/-- Major 0x1F. -/
def dec1F (p : Pfx) (w : Nat) : Dec :=
  let m := fld w 0 3
  let seg (k : Dst → Src → MReg → Instr) : Dec :=
    orCause (dstOf (fld w 18 6)) 4 fun d => orCause (srcOf (fld w 12 6)) 4 fun a =>
    orCause (mOf (fld w 6 6)) 4 fun b => .ok (k d a b)
  match fld w 3 3 with
  | 0 => daz w (.red p · · (redOf m))
  | 1 => seg (.redSeg p · · · (redOf m))
  | 2 => seg (.scanSeg p · · · (redOf m))
  | 3 => orCause (topOf m) 2 fun o => dab w (.topk p · · · o)
  | 4 => orCause (topOf m) 2 fun o => dab w (.topkSeg p · · · o)
  | _ => .error 0x002
/-- Major 0x20 (09 Table 9.4). -/
def dec20 (p : Pfx) (w : Nat) : Dec :=
  must (fld w 0 3 == 0) <|
  match fld w 3 3 with
  | 0 => dab w (.xshuf p)
  | 1 => daz w (.regroup p)
  | _ => .error 0x002
/-- Major 0x21 (07 R133). -/
def dec21 (p : Pfx) (w : Nat) : Dec :=
  let m := fld w 0 3
  match fld w 3 3 with
  | 0 => must (decide (m < 5)) <| orCause (nOf (fld w 18 6)) 4 fun d => orCause (psrcOf (fld w 12 6)) 4 fun a =>
      orCause (srcOf (fld w 6 6)) 4 fun b => .ok (.lea p d a b (Fin.ofNat 5 m))
  | 1 => must (decide (m < 6)) (dabP w (.wpack p · · · (Fin.ofNat 6 m)))
  | 2 => must (decide (m < 6)) <| orCause (nOf (fld w 18 6)) 4 fun d => orCause (psrcOf (fld w 12 6)) 4 fun a =>
      orCause (zOf (fld w 6 6)) 4 fun _ => .ok (.wext p d a (Fin.ofNat 6 m))
  | 3 => must (m == 0) (dabP w (.addD p))
  | 4 => must (m == 0) (dabP w (.subD p))
  | _ => .error 0x002
/-- Major 0x30. -/
def dec30 (p : Pfx) (w : Nat) : Dec :=
  let r := ordOf (fld w 2 2)
  let s := scopeOf (fld w 0 2)
  orCause (ldSizeOf (fld w 9 3)) 2 fun z =>
  must (loadOrd r s) (daN w (.ld p · · z (Fin.ofNat 32 (fld w 4 5)) r s))
/-- Major 0x31. -/
def dec31 (p : Pfx) (w : Nat) : Dec :=
  let r := ordOf (fld w 2 2)
  let s := scopeOf (fld w 0 2)
  orCause (stSizeOf (fld w 9 3)) 2 fun z =>
  must (storeOrd r s) (daN w (.st p · · z (Fin.ofNat 32 (fld w 4 5)) r s))
/-- Major 0x32. -/
def dec32 (p : Pfx) (w : Nat) : Dec :=
  let r := ordOf (fld w 2 2)
  let s := scopeOf (fld w 0 2)
  let z := kSizeOf (fld w 9 2)
  must (fld w 4 5 == 0) <|
  if fld w 11 1 = 0 then must (loadOrd r s) (daN w (.ldc p · · z r s))
  else must (storeOrd r s) (daN w (.stc p · · z r s))
/-- Major 0x33. -/
def dec33 (p : Pfx) (w : Nat) : Dec :=
  let r := ordOf (fld w 2 2)
  let s := scopeOf (fld w 0 2)
  let z := sSizeOf (fld w 9 2)
  let o : Fin 32 := Fin.ofNat 32 (fld w 4 5)
  if fld w 11 1 = 0 then must (loadOrd r s) (daN w (.lds p · · z o r s))
  else must (storeOrd r s) (daN w (.sts p · · z o r s))
/-- Major 0x34 (13 Table 13.5). -/
def dec34 (p : Pfx) (w : Nat) : Dec :=
  let r := ordOf (fld w 2 2)
  let s := scopeOf (fld w 0 2)
  orCause (aSizeOf (fld w 9 3)) 2 fun z =>
  must (atomOrd r s) <|
  match fld w 4 5 with
  | 0 => daN w (.atomAdd p · · z r s) | 1 => daN w (.atomAnd p · · z r s)
  | 2 => daN w (.atomOr p · · z r s) | 3 => daN w (.atomXor p · · z r s)
  | 4 => daN w (.atomMinS p · · z r s) | 5 => daN w (.atomMaxS p · · z r s)
  | 6 => daN w (.atomMinZ p · · z r s) | 7 => daN w (.atomMaxZ p · · z r s)
  | 8 => daN w (.atomExch p · · z r s) | 9 => daN w (.atomCas p · · z r s)
  | 10 => must (z == .b32) (daN w (.atomFadd p · · r s))
  | 11 => daN w (.atomXadd p · · z r s)
  | _ => .error 0x002
/-- Major 0x35 (13 R244, R246). -/
def dec35 (p : Pfx) (w : Nat) : Dec :=
  let i := fld w 0 8
  let b : Fin 64 := Fin.ofNat 64 i
  must (fld w 12 6 == 0) <|
  match fld w 8 4 with
  | 0 => must (decide (i < 64)) (xK w (.barArr p · b))
  | 1 => must (decide (i < 64)) (xK w (.barWt p · b))
  | 2 => must (decide (i < 64)) (xK w (.barTst p · b))
  | 3 => must (fld w 18 6 == 0 && decide (i < 16) && fld w 2 2 != 0)
      (.ok (.fence p (ordOf (fld w 2 2)) (scopeOf (fld w 0 2))))
  | _ => .error 0x002
/-- Major 0x36 (13 R247). -/
def dec36 (p : Pfx) (w : Nat) : Dec :=
  must (fld w 0 8 == 0) <|
  match fld w 8 4 with
  | 0 => xyK w (.seal p) | 1 => xyK w (.unseal p) | 2 => xyK w (.cwb p) | 3 => xyK w (.cinv p)
  | _ => .error 0x002
/-- Major 0x37 (13 R248 to R252). -/
def dec37 (p : Pfx) (w : Nat) : Dec :=
  match fld w 8 4 with
  | 0 => must (decide (fld w 0 8 < 8)) (xyK w (.nred p · · (redOf (fld w 0 3))))
  | 1 => must (fld w 0 8 == 0 && fld w 18 6 == 0) (yK w (.nbar p))
  | 2 => must (fld w 0 8 == 0) (xyK w (.rsig p))
  | _ => .error 0x002
/-- Major 0x38 (17 R312). -/
def dec38 (p : Pfx) (w : Nat) : Dec :=
  match fld w 8 4 with
  | 0 => must (fld w 0 8 == 0) (xyK w (.axins p))
  | 1 => must (fld w 0 8 == 0 && fld w 12 6 == 0) (xK w (.axdel p))
  | 2 => must (fld w 0 8 == 0) (xyK w (.axset p))
  | 3 => must (fld w 12 12 == 0 && decide (fld w 0 8 < 4)) (.ok (.axpub p (scopeOf (fld w 0 8))))
  | 4 => must (fld w 0 8 == 0) (xyK w (.axrd p))
  | _ => .error 0x002
/-- Major 0x39 (17 R312, R313). -/
def dec39 (p : Pfx) (w : Nat) : Dec :=
  must (fld w 0 8 == 0) <|
  match fld w 8 4 with
  | 0 => xyK w (.thset p) | 1 => xyK w (.thget p) | 2 => xyK w (.thfill p)
  | _ => .error 0x002
/-- Major 0x3A (23 R384). -/
def dec3A (p : Pfx) (w : Nat) : Dec :=
  let t : Fin 32 := Fin.ofNat 32 (fld w 0 8)
  must (fld w 12 6 == 0 && decide (fld w 0 8 < 32)) <|
  match fld w 8 4 with
  | 0 => xK w (.tbres p · t)
  | 1 => must (fld w 18 6 == 0) (.ok (.tbcom p t))
  | 2 => xK w (.tbacq p · t)
  | 3 => must (fld w 18 6 == 0) (.ok (.tbrel p t))
  | 4 => xK w (.tbst p · t)
  | _ => .error 0x002
/-- Major 0x3B (11 Table 11.4). -/
def dec3B (p : Pfx) (w : Nat) : Dec :=
  let a : KReg := Fin.ofNat 16 (fld w 17 4)
  let s := sideOf (fld w 10 1)
  let k : Fin 32 := Fin.ofNat 32 (fld w 5 5)
  must (fld w 0 5 == 0 && fld w 11 2 == 0) <|
  match fld w 21 3 with
  | 0 => .ok (.mxgat p a (Fin.ofNat 16 (fld w 13 4)) s k)
  | 1 => must (fld w 13 4 == 0) (.ok (.mxlda p a s k))
  | _ => .error 0x002
/-- Major 0x3C. -/
def dec3C (p : Pfx) (w : Nat) : Dec :=
  let n : Fin 4 := Fin.ofNat 4 (fld w 11 2)
  must (fld w 0 11 == 0 && fld w 13 8 == 0) <|
  match fld w 21 3 with
  | 0 => .ok (.mxmul p n)
  | 1 => .ok (.mxzero p n)
  | _ => .error 0x002
/-- Major 0x3D. -/
def dec3D (p : Pfx) (w : Nat) : Dec :=
  let a : KReg := Fin.ofNat 16 (fld w 17 4)
  let n : Fin 4 := Fin.ofNat 4 (fld w 11 2)
  let f := fld w 4 1 == 1
  let s := sideOf (fld w 10 1)
  must (fld w 0 4 == 0 && fld w 5 5 == 0 && fld w 13 4 == 0) <|
  match fld w 21 3 with
  | 0 => must (fld w 10 1 == 0) (.ok (.mxdrn p a n f))
  | 1 => must (fld w 10 1 == 0 && fld w 17 4 == 0 && (!f || n == 0)) (.ok (.mxwait p n f))
  | 2 => must (if f then n == 0 else fld w 10 1 == 0) (.ok (.mxmeta p a n s f))
  | _ => .error 0x002

/-- The instruction of a word, pairs unchecked. -/
def decodeRaw (w : Nat) : Dec :=
  let p : Pfx := ⟨fld w 31 1 == 1, fld w 30 1 == 1⟩
  match fld w 24 6 with
  | 0x00 => dec00 p w | 0x01 => dec01 p w | 0x02 => dec02 p w | 0x03 => dec03 p w
  | 0x04 => dec04 p w | 0x05 => dec05 p w | 0x06 => dec06 p w | 0x07 => dec07 p w
  | 0x08 => dec08 p w | 0x09 => dec09 p w | 0x0A => dec0A p w | 0x0B => dec0B p w
  | 0x10 => dec10 p w | 0x11 => dec11 p w | 0x12 => dec12 p w | 0x13 => dec13 p w
  | 0x14 => dec14 p w | 0x15 => dec15 p w | 0x16 => dec16 p w | 0x17 => dec17 p w
  | 0x18 => dec18 p w | 0x19 => dec19 p w | 0x1A => dec1A p w | 0x1B => dec1B p w
  | 0x1C => dec1C p w | 0x1D => dec1D p w | 0x1E => dec1E p w | 0x1F => dec1F p w
  | 0x20 => dec20 p w | 0x21 => dec21 p w
  | 0x30 => dec30 p w | 0x31 => dec31 p w | 0x32 => dec32 p w | 0x33 => dec33 p w
  | 0x34 => dec34 p w | 0x35 => dec35 p w | 0x36 => dec36 p w | 0x37 => dec37 p w
  | 0x38 => dec38 p w | 0x39 => dec39 p w | 0x3A => dec3A p w
  | 0x3B => dec3B p w | 0x3C => dec3C p w | 0x3D => dec3D p w
  | _ => .error 0x001

/-- The instruction of a word: `decodeRaw`, then 0x005 for an odd pair or a misaligned quad. -/
def decode (w : Nat) : Dec :=
  match decodeRaw w with
  | .ok i => if i.wf then .ok i else .error 0x005
  | .error c => .error c

/-- Four bytes of code, little-endian (04 R60), as one word. -/
def wordOfBytes (b : List Byte) : Nat := b.foldr (fun x acc => x.toNat + 256 * acc) 0

/-- `n` bytes of `w`, lowest first. -/
def bytesOf (w : Nat) : Nat → List Byte
  | 0 => []
  | n + 1 => BitVec.ofNat 8 w :: bytesOf (w / 256) n

/-- The bytes of a word of `nbits` bits as they stand in memory, the bits above `nbits` zero. -/
def tableBytes (nbits w : Nat) : List Byte := bytesOf (w % 2 ^ nbits % 2 ^ 32) 4

/-- The instruction the decoder reads from the bytes of a table word; a row of `nbits` 0 has no encoding. -/
def decodeTableWord (nbits w : Nat) : Option Instr :=
  if nbits = 0 || nbits > 32 then none
  else
    match decode (wordOfBytes (tableBytes nbits w)) with
    | .ok i => some i
    | .error _ => none

/-! The encoder. -/

/-- 03 Table 3.1. -/
def Src.code : Src → Nat
  | .n j => j.val
  | .q i => 32 + i.val
  | .b i => 48 + i.val
  | .st i => 52 + i.val
  | .k i => 56 + i.val
  | .z => 60
  | .lane => 61
  | .fid => 62
/-- 04 R71. -/
def Dst.code : Dst → Nat
  | .n j => j.val
  | .q => 32
  | .st i => 52 + i.val
  | .none => 63
/-- 04 R73. -/
def PSrc.code : PSrc → Nat
  | .n j => j.val
  | .k i => 56 + i.val
/-- 04 Table 4.5. -/
def Cond.code : Cond → Nat
  | .al => 0 | .kt => 1 | .kf => 2 | .any => 3 | .all => 4 | .none => 5
  | .eod s => 6 + s.val
  | .neod s => 10 + s.val
/-- 04 Table 4.6. -/
def Rnd.code : Rnd → Nat
  | .rd => 0 | .rn => 1 | .rz => 2 | .ru => 3 | .rm => 4 | .ra => 5
/-- 04 Table 4.7. -/
def IType.code : IType → Nat
  | .s32 => 0 | .z32 => 1 | .s16 => 3 | .z16 => 4
/-- 07 R131. -/
def CmpOp.code : CmpOp → Nat
  | .eq => 0 | .ne => 1 | .lt => 2 | .le => 3 | .gt => 4 | .ge => 5
/-- sub[2] of 0x18. -/
def HType.code : HType → Nat
  | .f16 => 0 | .bf16 => 1
/-- 04 Table 4.7, reductions. -/
def redCode : Machine.RedOp → Nat
  | .addS32 => 0 | .maxS32 => 1 | .minS32 => 2 | .addF32 => 3 | .maxZ32 => 4 | .minZ32 => 5 | .maxF32 => 6
  | .minF32 => 7
/-- mod of `topk`. -/
def topCode : Machine.TopOp → Nat
  | .maxS32 => 1 | .maxZ32 => 4 | .maxF32 => 6
/-- 04 R70. -/
def MOrd.code : MOrd → Nat
  | .weak => 0 | .strong => 1 | .acq => 2 | .rel => 3
/-- 04 R70. -/
def Scope.code : Scope → Nat
  | .sl => 0 | .cl => 1 | .dv => 2 | .sy => 3
/-- 04 Table 4.4. -/
def LdSize.code : LdSize → Nat
  | .b8 => 0 | .b16 => 1 | .b32 => 2 | .b64 => 3 | .b128 => 4 | .s8 => 5 | .s16 => 6
/-- 04 Table 4.4. -/
def StSize.code : StSize → Nat
  | .b8 => 0 | .b16 => 1 | .b32 => 2 | .b64 => 3 | .b128 => 4
/-- size[1:0] of 0x08, 0x32. -/
def KSize.code : KSize → Nat
  | .b8 => 0 | .b16 => 1 | .b32 => 2 | .b64 => 3
/-- size[1:0] of 0x33. -/
def SSize.code : SSize → Nat
  | .b16 => 0 | .b32 => 1 | .b64 => 2 | .b128 => 3
/-- size of 0x34. -/
def ASize.code : ASize → Nat
  | .b32 => 2 | .b64 => 3
/-- side of 11 Table 11.3. -/
def Side.code : Side → Nat
  | .a => 0 | .b => 1
/-- One bit. -/
def bit (b : Bool) : Nat := if b then 1 else 0

/-- The common bits of 04 Table 4.2 around a body of 24 bits. -/
def wordFrom (p : Pfx) (maj body : Nat) : Nat := bit p.c * 2 ^ 31 + bit p.y * 2 ^ 30 + maj * 2 ^ 24 + body
/-- VR: d, a, b, sub, mod (04 Table 4.3). -/
def vr (p : Pfx) (maj d a b sub mod : Nat) : Nat :=
  wordFrom p maj (d * 2 ^ 18 + a * 2 ^ 12 + b * 2 ^ 6 + sub * 2 ^ 3 + mod)
/-- VF: d, a, b, c. -/
def vf (p : Pfx) (maj d a b c : Nat) : Nat := wordFrom p maj (d * 2 ^ 18 + a * 2 ^ 12 + b * 2 ^ 6 + c)
/-- VI: d, a, sub, imm9. -/
def vi (p : Pfx) (maj d a sub imm : Nat) : Nat := wordFrom p maj (d * 2 ^ 18 + a * 2 ^ 12 + sub * 2 ^ 9 + imm)
/-- BR: cond, offset. -/
def br (p : Pfx) (maj cond off : Nat) : Nat := wordFrom p maj (cond * 2 ^ 20 + off)
/-- MEM: d, a, size, offset5, order, scope. -/
def mem (p : Pfx) (maj d a size off ord sc : Nat) : Nat :=
  wordFrom p maj (d * 2 ^ 18 + a * 2 ^ 12 + size * 2 ^ 9 + off * 2 ^ 4 + ord * 2 ^ 2 + sc)
/-- SYS: x, y, sub, imm8. -/
def sys (p : Pfx) (maj x y sub imm : Nat) : Nat := wordFrom p maj (x * 2 ^ 18 + y * 2 ^ 12 + sub * 2 ^ 8 + imm)
/-- MX: sub, ka, kb, an, side, kk, fl (11 Table 11.3). -/
def mx (p : Pfx) (maj sub ka kb an side kk fl : Nat) : Nat :=
  wordFrom p maj (sub * 2 ^ 21 + ka * 2 ^ 17 + kb * 2 ^ 13 + an * 2 ^ 11 + side * 2 ^ 10 + kk * 2 ^ 5 + fl * 2 ^ 4)

/-- The word of an encoded instruction; an event has none. -/
def encode : Instr → Option Nat
  | .nop p => some (sys p 0 0 0 0 0)
  | .halt p => some (sys p 0 0 0 1 0)
  | .bra p k o => some (br p 1 k.code o.toNat)
  | .call p o => some (br p 2 0 o.toNat)
  | .ret p => some (br p 2 1 0)
  | .jmp p k => some (br p 2 2 k.val)
  | .brd p m o => some (br p 3 m.val o.toNat)
  | .join p => some (br p 3 4 0)
  | .mand p d a b => some (br p 3 5 (d.val * 16 + a.val * 4 + b.val))
  | .mor p d a b => some (br p 3 6 (d.val * 16 + a.val * 4 + b.val))
  | .mnot p d a => some (br p 3 7 (d.val * 16 + a.val * 4))
  | .mmov p d a => some (br p 3 8 (d.val * 16 + a.val * 4))
  | .kadd p d a b => some (vr p 4 d.val a.val b.val 0 0)
  | .ksub p d a b => some (vr p 4 d.val a.val b.val 0 1)
  | .kand p d a b => some (vr p 4 d.val a.val b.val 0 2)
  | .kor p d a b => some (vr p 4 d.val a.val b.val 0 3)
  | .kxor p d a b => some (vr p 4 d.val a.val b.val 0 4)
  | .kshl p d a b => some (vr p 4 d.val a.val b.val 0 5)
  | .kshrZ32 p d a b => some (vr p 4 d.val a.val b.val 0 6)
  | .kshrS32 p d a b => some (vr p 4 d.val a.val b.val 0 7)
  | .kmul p d a b => some (vr p 4 d.val a.val b.val 1 0)
  | .kminS32 p d a b => some (vr p 4 d.val a.val b.val 1 1)
  | .kminZ32 p d a b => some (vr p 4 d.val a.val b.val 1 2)
  | .kmaxS32 p d a b => some (vr p 4 d.val a.val b.val 1 3)
  | .kmaxZ32 p d a b => some (vr p 4 d.val a.val b.val 1 4)
  | .kcmpEq p d a b => some (vr p 4 d.val a.val b.val 1 5)
  | .kcmpNe p d a b => some (vr p 4 d.val a.val b.val 1 6)
  | .kcmpS32Lt p d a b => some (vr p 4 d.val a.val b.val 1 7)
  | .kcmpZ32Lt p d a b => some (vr p 4 d.val a.val b.val 2 0)
  | .kcmpS32Le p d a b => some (vr p 4 d.val a.val b.val 2 1)
  | .kcmpZ32Le p d a b => some (vr p 4 d.val a.val b.val 2 2)
  | .kmov p d a => some (vr p 4 d.val a.val 0 2 3)
  | .kaddi p d a i => some (vi p 5 d.val a.val 0 i.toNat)
  | .kandi p d a i => some (vi p 5 d.val a.val 1 i.toNat)
  | .kori p d a i => some (vi p 5 d.val a.val 2 i.toNat)
  | .kxori p d a i => some (vi p 5 d.val a.val 3 i.toNat)
  | .kshli p d a i => some (vi p 5 d.val a.val 4 i.val)
  | .kshriZ32 p d a i => some (vi p 5 d.val a.val 5 i.val)
  | .kshriS32 p d a i => some (vi p 5 d.val a.val 6 i.val)
  | .kmovi p d i => some (vi p 5 d.val 0 7 i.toNat)
  | .wait p x i => some (sys p 6 x.val 0 0 i.toNat)
  | .yield p => some (sys p 6 0 0 1 0)
  | .fbar p s => some (sys p 6 0 0 2 s.toNat)
  | .fstop p f => some (sys p 6 0 0 3 f.val)
  | .fwake p f => some (sys p 6 0 0 4 f.val)
  | .trap p i => some (sys p 7 0 0 0 i.toNat)
  | .tret p => some (sys p 7 0 0 1 0)
  | .csrr p x i => some (sys p 7 x.val 0 2 i.toNat)
  | .csrw p x i => some (sys p 7 x.val 0 3 i.toNat)
  | .rgrow p i => some (sys p 7 0 0 4 i.toNat)
  | .rshrink p i => some (sys p 7 0 0 5 i.toNat)
  | .ldk p d a z o r s => some (mem p 8 d.val a.val z.code o.val r.code s.code)
  | .stk p d a z o r s => some (mem p 8 d.val a.val (4 + z.code) o.val r.code s.code)
  | .setrm p m => some (sys p 9 0 0 0 m.toNat)
  | .rdflags p x => some (sys p 9 x.val 0 1 0)
  | .clrflags p f => some (sys p 9 0 0 2 f.toNat)
  | .rdamax p x s => some (sys p 9 x.val 0 3 (bit s))
  | .clramax p s => some (sys p 9 0 0 4 (bit s))
  | .sbind p x s => some (sys p 10 x.val 0 0 s.val)
  | .srst p s => some (sys p 10 0 0 1 s.val)
  | .sadv p x s => some (sys p 10 x.val 0 2 s.val)
  | .sstat p x s => some (sys p 10 x.val 0 3 s.val)
  | .enq p x q => some (sys p 11 x.val 0 0 q.val)
  | .add p d a b t => some (vr p 16 d.code a.code b.code 0 t.code)
  | .sub p d a b t => some (vr p 16 d.code a.code b.code 1 t.code)
  | .min p d a b t => some (vr p 16 d.code a.code b.code 2 t.code)
  | .max p d a b t => some (vr p 16 d.code a.code b.code 3 t.code)
  | .and p d a b => some (vr p 16 d.code a.code b.code 4 2)
  | .or p d a b => some (vr p 16 d.code a.code b.code 5 2)
  | .xor p d a b => some (vr p 16 d.code a.code b.code 6 2)
  | .shl p d a b => some (vr p 16 d.code a.code b.code 7 2)
  | .shrS32 p d a b => some (vr p 16 d.code a.code b.code 7 0)
  | .shrZ32 p d a b => some (vr p 16 d.code a.code b.code 7 1)
  | .addi p d a i => some (vi p 17 d.code a.code 0 i.toNat)
  | .andi p d a i => some (vi p 17 d.code a.code 1 i.toNat)
  | .ori p d a i => some (vi p 17 d.code a.code 2 i.toNat)
  | .xori p d a i => some (vi p 17 d.code a.code 3 i.toNat)
  | .shli p d a i => some (vi p 17 d.code a.code 4 i.val)
  | .shriZ32 p d a i => some (vi p 17 d.code a.code 5 i.val)
  | .shriS32 p d a i => some (vi p 17 d.code a.code 6 i.val)
  | .rsubi p d a i => some (vi p 17 d.code a.code 7 i.toNat)
  | .mul p d a b => some (vr p 18 d.code a.code b.code 0 0)
  | .mulhi p d a b => some (vr p 18 d.code a.code b.code 1 0)
  | .mulhz p d a b => some (vr p 18 d.code a.code b.code 2 0)
  | .div p d a b => some (vr p 18 d.code a.code b.code 3 0)
  | .divz p d a b => some (vr p 18 d.code a.code b.code 4 0)
  | .rem p d a b => some (vr p 18 d.code a.code b.code 5 0)
  | .remz p d a b => some (vr p 18 d.code a.code b.code 6 0)
  | .popc p d a => some (vr p 19 d.code a.code 60 0 0)
  | .clz p d a => some (vr p 19 d.code a.code 60 1 0)
  | .brev p d a => some (vr p 19 d.code a.code 60 2 0)
  | .bfeZ32 p d a b => some (vr p 19 d.code a.code b.code 3 0)
  | .bfeS32 p d a b => some (vr p 19 d.code a.code b.code 4 0)
  | .bfi p d a b => some (vr p 19 d.code a.code b.code 5 0)
  | .cmp p d a b e u => some (vr p 20 d.val a.code b.code e.code (bit u))
  | .movi p d i => some (vi p 21 d.code 60 0 i.toNat)
  | .mov p d a => some (vi p 21 d.code a.code 1 0)
  | .sel p d a m => some (vi p 21 d.code a.code 2 m.val)
  | .faddF32 p d a b r => some (vr p 22 d.code a.code b.code 0 r.code)
  | .fsubF32 p d a b r => some (vr p 22 d.code a.code b.code 1 r.code)
  | .fmulF32 p d a b r => some (vr p 22 d.code a.code b.code 2 r.code)
  | .fminF32 p d a b r => some (vr p 22 d.code a.code b.code 3 r.code)
  | .fmaxF32 p d a b r => some (vr p 22 d.code a.code b.code 4 r.code)
  | .fabsF32 p d a r => some (vr p 22 d.code a.code 60 5 r.code)
  | .fnegF32 p d a r => some (vr p 22 d.code a.code 60 6 r.code)
  | .ffmaF32 p d a b u => some (vf p 23 d.code a.code b.code (0 + u.val))
  | .ffmsF32 p d a b u => some (vf p 23 d.code a.code b.code (16 + u.val))
  | .fnmaF32 p d a b u => some (vf p 23 d.code a.code b.code (32 + u.val))
  | .faddF16Bf16 p d a b t r => some (vr p 24 d.code a.code b.code (4 * t.code + 0) r.code)
  | .fsubF16Bf16 p d a b t r => some (vr p 24 d.code a.code b.code (4 * t.code + 1) r.code)
  | .fmulF16Bf16 p d a b t r => some (vr p 24 d.code a.code b.code (4 * t.code + 2) r.code)
  | .ffmaF16Bf16 p d a b t u => some (vf p 25 d.code a.code b.code (16 * t.code + u.val))
  | .ffmsF16Bf16 p d a b t u => some (vf p 25 d.code a.code b.code (32 + 16 * t.code + u.val))
  | .faddF64 p d a b r => some (vr p 26 d.val a.code b.code 0 r.code)
  | .fsubF64 p d a b r => some (vr p 26 d.val a.code b.code 1 r.code)
  | .fmulF64 p d a b r => some (vr p 26 d.val a.code b.code 2 r.code)
  | .ffmaF64 p d a b r => some (vr p 26 d.val a.code b.code 3 r.code)
  | .fminF64 p d a b r => some (vr p 26 d.val a.code b.code 4 r.code)
  | .fmaxF64 p d a b r => some (vr p 26 d.val a.code b.code 5 r.code)
  | .rcp p d a r => some (vr p 27 d.code a.code 60 0 r.code)
  | .rsq p d a r => some (vr p 27 d.code a.code 60 1 r.code)
  | .sqrt p d a r => some (vr p 27 d.code a.code 60 2 r.code)
  | .exp2 p d a r => some (vr p 27 d.code a.code 60 3 r.code)
  | .log2 p d a r => some (vr p 27 d.code a.code 60 4 r.code)
  | .sin p d a r => some (vr p 27 d.code a.code 60 5 r.code)
  | .cos p d a r => some (vr p 27 d.code a.code 60 6 r.code)
  | .cvtF32F16 p d a => some (vf p 28 d.code a.code 60 0)
  | .cvtF32Bf16 p d a => some (vf p 28 d.code a.code 60 1)
  | .cvtF16F32 p d a => some (vf p 28 d.code a.code 60 2)
  | .cvtBf16F32 p d a => some (vf p 28 d.code a.code 60 3)
  | .cvtF64F32 p d a => some (vf p 28 d.val a.code 60 4)
  | .cvtF32F64 p d a => some (vf p 28 d.code a.code 60 5)
  | .cvtE4m3F32 p d a b x => some (vf p 28 d.code a.code b.code (32 * bit x + 6))
  | .cvtE5m2F32 p d a b x => some (vf p 28 d.code a.code b.code (32 * bit x + 7))
  | .cvtF32E4m3 p d a b => some (vf p 28 d.code a.code b.code 8)
  | .cvtF32E5m2 p d a b => some (vf p 28 d.code a.code b.code 9)
  | .cvtL8F32 p d a b x => some (vf p 28 d.code a.code b.code (32 * bit x + 10))
  | .cvtL16F32 p d a b x => some (vf p 28 d.code a.code b.code (32 * bit x + 11))
  | .cvtF32L8 p d a b => some (vf p 28 d.code a.code b.code 12)
  | .cvtF32L16 p d a b => some (vf p 28 d.code a.code b.code 13)
  | .cvtQ8F32 p d a b x => some (vf p 28 d.code a.code b.code (32 * bit x + 14))
  | .cvtQ4F32 p d a b x => some (vf p 28 d.code a.code b.code (32 * bit x + 15))
  | .cvtF32Q8 p d a b => some (vf p 28 d.code a.code b.code 16)
  | .cvtF32Q4 p d a b => some (vf p 28 d.code a.code b.code 17)
  | .cvtS32F32 p d a => some (vf p 28 d.code a.code 60 18)
  | .cvtS32F32Rz p d a => some (vf p 28 d.code a.code 60 19)
  | .cvtZ32F32 p d a => some (vf p 28 d.code a.code 60 20)
  | .cvtF32S32 p d a => some (vf p 28 d.code a.code 60 21)
  | .cvtF32Z32 p d a => some (vf p 28 d.code a.code 60 22)
  | .sacc p d a b e => some (vf p 29 d.code a.code b.code e.code)
  | .shflIdx p d a b => some (vr p 30 d.code a.code b.code 0 0)
  | .shflUp p d a b => some (vr p 30 d.code a.code b.code 1 0)
  | .shflDown p d a b => some (vr p 30 d.code a.code b.code 2 0)
  | .shflXor p d a b => some (vr p 30 d.code a.code b.code 3 0)
  | .voteAny p d a => some (vr p 30 d.val a.val 60 4 0)
  | .voteAll p d a => some (vr p 30 d.val a.val 60 4 1)
  | .voteUni p d a => some (vr p 30 d.val a.val 60 4 2)
  | .ballot p d a => some (vr p 30 d.val a.val 60 5 0)
  | .mpopcBelow p d a => some (vr p 30 d.code a.val 60 6 0)
  | .mpopcTotal p d a => some (vr p 30 d.code a.val 60 6 1)
  | .scan p d a o => some (vr p 30 d.code a.code 60 7 (redCode o))
  | .red p d a o => some (vr p 31 d.code a.code 60 0 (redCode o))
  | .redSeg p d a b o => some (vr p 31 d.code a.code b.val 1 (redCode o))
  | .scanSeg p d a b o => some (vr p 31 d.code a.code b.val 2 (redCode o))
  | .topk p d a b o => some (vr p 31 d.code a.code b.code 3 (topCode o))
  | .topkSeg p d a b o => some (vr p 31 d.code a.code b.code 4 (topCode o))
  | .xshuf p d a b => some (vr p 32 d.code a.code b.code 0 0)
  | .regroup p d a => some (vr p 32 d.code a.code 60 1 0)
  | .lea p d a b e => some (vr p 33 d.val a.code b.code 0 e.val)
  | .wpack p d a b e => some (vr p 33 d.val a.code b.code 1 e.val)
  | .wext p d a e => some (vr p 33 d.val a.code 60 2 e.val)
  | .addD p d a b => some (vr p 33 d.val a.code b.code 3 0)
  | .subD p d a b => some (vr p 33 d.val a.code b.code 4 0)
  | .ld p d a z o r s => some (mem p 48 d.val a.val z.code o.val r.code s.code)
  | .st p d a z o r s => some (mem p 49 d.val a.val z.code o.val r.code s.code)
  | .ldc p d a z r s => some (mem p 50 d.val a.val z.code 0 r.code s.code)
  | .stc p d a z r s => some (mem p 50 d.val a.val (4 + z.code) 0 r.code s.code)
  | .lds p d a z o r s => some (mem p 51 d.val a.val z.code o.val r.code s.code)
  | .sts p d a z o r s => some (mem p 51 d.val a.val (4 + z.code) o.val r.code s.code)
  | .atomAdd p d a z r s => some (mem p 52 d.val a.val z.code 0 r.code s.code)
  | .atomAnd p d a z r s => some (mem p 52 d.val a.val z.code 1 r.code s.code)
  | .atomOr p d a z r s => some (mem p 52 d.val a.val z.code 2 r.code s.code)
  | .atomXor p d a z r s => some (mem p 52 d.val a.val z.code 3 r.code s.code)
  | .atomMinS p d a z r s => some (mem p 52 d.val a.val z.code 4 r.code s.code)
  | .atomMaxS p d a z r s => some (mem p 52 d.val a.val z.code 5 r.code s.code)
  | .atomMinZ p d a z r s => some (mem p 52 d.val a.val z.code 6 r.code s.code)
  | .atomMaxZ p d a z r s => some (mem p 52 d.val a.val z.code 7 r.code s.code)
  | .atomExch p d a z r s => some (mem p 52 d.val a.val z.code 8 r.code s.code)
  | .atomCas p d a z r s => some (mem p 52 d.val a.val z.code 9 r.code s.code)
  | .atomFadd p d a r s => some (mem p 52 d.val a.val 2 10 r.code s.code)
  | .atomXadd p d a z r s => some (mem p 52 d.val a.val z.code 11 r.code s.code)
  | .barArr p x i => some (sys p 53 x.val 0 0 i.val)
  | .barWt p x i => some (sys p 53 x.val 0 1 i.val)
  | .barTst p x i => some (sys p 53 x.val 0 2 i.val)
  | .fence p o s => some (sys p 53 0 0 3 (4 * o.code + s.code))
  | .seal p x w => some (sys p 54 x.val w.val 0 0)
  | .unseal p x w => some (sys p 54 x.val w.val 1 0)
  | .cwb p x w => some (sys p 54 x.val w.val 2 0)
  | .cinv p x w => some (sys p 54 x.val w.val 3 0)
  | .nred p x w o => some (sys p 55 x.val w.val 0 (redCode o))
  | .nbar p w => some (sys p 55 0 w.val 1 0)
  | .rsig p x w => some (sys p 55 x.val w.val 2 0)
  | .axins p x w => some (sys p 56 x.val w.val 0 0)
  | .axdel p x => some (sys p 56 x.val 0 1 0)
  | .axset p x w => some (sys p 56 x.val w.val 2 0)
  | .axpub p s => some (sys p 56 0 0 3 s.code)
  | .axrd p x w => some (sys p 56 x.val w.val 4 0)
  | .thset p x w => some (sys p 57 x.val w.val 0 0)
  | .thget p x w => some (sys p 57 x.val w.val 1 0)
  | .thfill p x w => some (sys p 57 x.val w.val 2 0)
  | .tbres p x t => some (sys p 58 x.val 0 0 t.val)
  | .tbcom p t => some (sys p 58 0 0 1 t.val)
  | .tbacq p x t => some (sys p 58 x.val 0 2 t.val)
  | .tbrel p t => some (sys p 58 0 0 3 t.val)
  | .tbst p x t => some (sys p 58 x.val 0 4 t.val)
  | .mxgat p a b s k => some (mx p 59 0 a.val b.val 0 s.code k.val 0)
  | .mxlda p a s k => some (mx p 59 1 a.val 0 0 s.code k.val 0)
  | .mxmul p n => some (mx p 60 0 0 0 n.val 0 0 0)
  | .mxzero p n => some (mx p 60 1 0 0 n.val 0 0 0)
  | .mxdrn p a n f => some (mx p 61 0 a.val 0 n.val 0 0 (bit f))
  | .mxwait p n f => some (mx p 61 1 0 0 n.val 0 0 (bit f))
  | .mxmeta p a n s f => some (mx p 61 2 a.val 0 n.val s.code 0 (bit f))
  | .packetFetch .. | .watchdog .. | .breakpoint .. | .dataWatchpoint .. | .singleStep .. | .releaseEnd ..
  | .releaseReturn .. | .registerWrite .. | .readClear .. | .stagingStore .. | .go .. | .goAccept ..
  | .copyCommandStart .. | .copyLineTransfer .. | .copyCommandComplete .. | .copyCommandFault ..
  | .copyFaultDelivery .. | .fstart .. | .frondStreamStart .. | .frondStreamEnd .. | .mxLoadComplete ..
  | .mxOperationComplete .. | .mxDrainComplete .. | .loadDataReturn .. | .storePerformed .. | .slicePassGrant ..
  | .scratchpadWriteRefused .. | .acknowledgementReturn .. | .barrierArrival .. | .rsigRefusal ..
  | .exchangeMessageArrival .. | .exchangeTimeout .. | .regroupMove .. | .reductionResult .. | .reductionTimeout ..
  | .networkFailureDelivery .. | .axpubComplete .. | .sealComplete .. | .unsealComplete ..
  | .cacheMaintenanceComplete .. | .streamFetch .. | .tileBufferApply .. | .rgrowGrant ..
  | .registerGrowEviction .. | .evictedSlotRestore .. | .workgroupPlacement .. | .warpRetire ..
  | .taskNotCreated .. | .launchCompletion .. | .qtail .. | .signal .. | .waitPacket .. | .waitPacketPoll ..
  | .launch .. | .launchIndirect .. | .prologueStepLimit .. | .nopPacket .. | .reservedPacket ..
  | .overflowDrain .. | .timeTriggeredSlot .. | .timeTriggeredEntryWrite .. | .clusterReassignment ..
  | .batchStart .. | .tokenRefill .. | .portAdmission .. | .throttlePeriod .. | .congestionRefresh .. | .drain ..
  | .forced .. | .restore .. | .evict .. | .savedArrivalApply .. | .attestationGo .. | .attestationDone ..
  | .contextEnable .. | .contextDisable .. | .cpartWrite .. | .cpartTakesEffect .. | .pmemWrite .. | .accwWrite ..
  | .bar2Access .. | .peerRequest .. | .flitForward .. | .linkReplay .. | .linkDown .. | .routerGate ..
  | .routerWake .. | .powerGood .. | .powerLoss .. | .conventionalReset .. | .functionLevelReset ..
  | .thermalReport .. | .statisticsSample .. | .errorRecord .. | .scrub .. | .lpddr6Refresh .. | .timeCorrection ..
  | .linkUp .. | .launchCancellation .. => none

end Sys2Proof
end

