-- ==== Sys2Proof/Config.lean ====
section
/-! DEFINITION. What one part fixes (the manifest of 26 R421) and the free values: constants without a body, so that a
claim holds whatever they are. -/

namespace Sys2Proof.Config

/-- Arithmetic cycles and nanoseconds that step number `n` takes (log 5). -/
opaque acPerStep : Nat → Nat
/-- See `acPerStep`. -/
opaque nsPerStep : Nat → Nat
/-- Events that a performance counter of timing or caches counts in a step (20 Table 20.4; log 6): CSR number, core or
768 + cluster, tick. -/
opaque perfStep : Nat → Nat → Nat → Nat
/-- How far back a fetch sees a rewritten packet (04 R63): tick, slot; slot 3: whether through tables published over. -/
opaque fetchOld : Nat → Nat → Nat
/-- `rsq` delivers the neighbour above (true) or below of the exact value (08 Table 8.5: within 1 ulp; log 7). -/
opaque rsqUp : Word → Bool
/-- Bits of `exp2`, `log2`, `sin`, `cos` where Table 8.5 gives an accuracy only (log 7): function, operand, fi, fo. -/
opaque special : Nat → Word → Bool → Bool → Word
/-- A partial sum of `mxmul` over sides of unlike group lengths (11 R208; log 41): format, block codes and plane; codes and
group records of the two rows. -/
opaque mxFree : List Nat → List Nat → List Nat → List Nat → List Nat → Word
/-- DEVID (26 R421). -/
opaque devid : BitVec 20
/-- Where the manifest puts a logical cluster: its number among the 52 built on its die (01 R13; log 80). -/
opaque clusterPlace : Nat → Nat
/-- Bytes of a fibre's record and of the engines' part of a save (22 Table 22.8; log 81). -/
opaque saveFibre : Nat
/-- See `saveFibre`. -/
opaque saveEngines : Nat
/-- CAPW (19 R343). -/
opaque capw : BitVec 128
/-- BWCFG.budget, 1 to 94,120 after the limits of 21 Table 21.1. -/
opaque budget : Nat
/-- PCFG defaults of a partition at boot (26 R421, step 3; 21 Table 21.2). -/
opaque pcfg : Nat → BitVec 24
/-- CPART.part of a logical cluster at boot (12 Table 12.9). -/
opaque clusterPart : Nat → BitVec 4
/-- PMEMj of a partition at boot (12 Table 12.10). -/
opaque pmem : Nat → Nat → BitVec 21
/-- NETCFG of a partition at boot (25 Table 25.2). -/
opaque netcfg : Nat → BitVec 17
/-- The four measurements, by byte (26 R424). -/
opaque attKey : Nat → Byte
/-- SHA3-512 (FIPS 202), the digest of some bytes by byte, and ML-DSA-87 key generation (FIPS 204), the public key of a seed by
byte: functions that other standards define (26 R423; log 96). -/
opaque sha3 : List Byte → Nat → Byte
/-- See `sha3`. -/
opaque mldsaPublic : List Byte → Nat → Byte
/-- The part's PUF seed and the manifest's salt (26 R421, R423). -/
opaque pufSeed : List Byte
/-- See `pufSeed`. -/
opaque manifestSalt : List Byte
/-- The port of a peer's request among those its routing entry allows: issuing cluster port, peer, address bits 29 to 7 (25
R412; log 98). -/
opaque fabricHash : Nat → Nat → Nat → Nat
/-- A byte of a save area as the system handler leaves it (22 Table 22.8; log 8): tick, cluster, place. -/
opaque saveByte : Nat → Nat → Nat → Byte
/-- The signature over the bytes of the report before it, by byte (26 R425). -/
opaque attSign : List Byte → Nat → Byte

end Sys2Proof.Config
end

