-- ==== Sys2Proof/Machine/State.lean ====
section
/-! DEFINITION. Everything the spec gives the machine, as plain data (INVENTORY.md, State), and its value after reset. -/

namespace Sys2Proof.Machine

/-- A pending event: one the environment placed, or one that follows from what the machine did (log 3). -/
inductive Ev where
  | env (i : Instr)
  | goAccept (cl : Nat)
  | copyStart (cl : Nat)
  | copyLine (cl : Nat)
  | copyDone (cl : Nat)
  | frondStart (cl : Nat)
  | frondEnd (cl : Nat)
  | mxLoad (cl : Nat)
  | mxOp (cl : Nat)
  | mxDrain (cl : Nat)
  | loadReturn (a : Agent)
  | storeDone (a : Agent)
  | pass (cl : Nat)
  | ack (unit launch : Nat)
  | arrival (launch g i c : Nat) (a : Agent)
  | exchange (cl : Nat)
  | reduction (launch j : Nat) (bar : Bool)
  | published (a : Agent)
  | sealDone (a : Agent)
  | unsealDone (a : Agent)
  | cacheDone (a : Agent)
  | fetch (a : Agent) (st : Fin 4)
  | tbApply (cl : Nat)
  | regroup (launch g f : Nat)
  | rgrow (core : Nat)
  | evict (core : Nat)
  | restoreSlot (core : Nat)
  | place (launch : Nat)
  | retire (warp : Nat)
  | notCreated (launch : Nat)
  | complete (comp : Nat)
  | indirect (q : Nat)
  | drainOvf (q : Nat)
  | port (cl : Nat)
  | retireWg (wg : Nat)
  | round
  | cpart (cl : Nat)
  | enqDone (a : Agent)
  | batch (launch : Nat)
  | savedArrival (p : Nat)
  | saved (p : Nat)
  | restored (p : Nat)
  | refill
  | reassign
  | watchdog (a : Agent)
  | softError (kind unit place : Nat)
  | inject (router : Nat) (pkt : NetPkt)
  | message (launch src g idx fib n : Nat) (row : Row)
  | result (a : Agent) (launch j : Nat) (bar : Bool) (v : Word)
  deriving DecidableEq, Repr

/-- A code address: packet index and slot (04 R60). -/
structure Pos where
  pkt : Word
  slot : Nat
  deriving DecidableEq, Repr

/-- A nest-stack entry: a call's return address (07 R120), or a divergence in phase A (`b` none) or in phase B with
join_pc, the address past that join's group, and held_mask (02 R27, R28). -/
inductive NestEntry where
  | call (ret : Pos)
  | div (resume : Pos) (mask : LaneSet) (b : Option (Pos × Pos × LaneSet))
  deriving DecidableEq, Repr

/-- A split (02 R17, R27 to R30). `parked`: at a `join`, past which it continues at `past`; `faulted`: parked by a fault
while Trapped (10 R179); `buf`: the packet fetched for it (04 R61). -/
structure Split where
  live : Bool
  pos : Pos
  mask : LaneSet
  nest : List NestEntry
  parked : Bool
  faulted : Bool
  buf : Option (Word × List Word)
  past : Pos
  deriving DecidableEq, Repr

/-- A result-queue entry with the lanes not yet filled and the poisoned lanes (06 R103, 10 R182). -/
structure QEnt where
  row : Row
  empty : LaneSet
  pois : LaneSet
  id : Nat
  deriving DecidableEq, Repr

/-- A bypass latch (06 R104); `src`: the load it waits for. -/
structure Latch where
  valid : Bool
  row : Row
  pois : LaneSet
  src : Option Nat
  deriving DecidableEq, Repr

/-- A fetched element of a stream (18 R320, R323, R326): its value, poisoned or not, or the cause and address to raise
where it is consumed; the first of its row, the last of its row, the last of a ragged walk; where a ragged walk stood; `tok`:
the number + 1 of the charged requests it waits for at the port, 0 for none (21 R354). -/
structure SElem where
  v : Word
  bad : Bool
  fault : Option (Nat × Word64)
  head : Bool
  eor : Bool
  eow : Bool
  at3 : Nat × Nat × Nat
  tok : Nat
  deriving DecidableEq, Repr

/-- Stream st0 to st3 (18 R316): the record's 512 bits, the walk position, for a ragged walk the row, its
length (0: to be read) and the element to fetch next, the elements fetched, whether the fetches reached the end, the stream that has captured it (R324), the writes not yet
performed, the number + 1 of the walk's last charged requests (21 R354), the place in program order at which the walk began (R325). -/
structure Stream where
  bound : Bool
  desc : BitVec 512
  pos : Nat
  row : Nat
  len : Nat
  col : Nat
  fetched : List SElem
  fdone : Bool
  eod : BitVec 4
  ended : Bool
  captor : Option Nat
  writes : Nat
  tok : Nat
  po : Nat
  deriving DecidableEq, Repr

/-- Trap registers (06 Table 6.7) and the register beneath: cause, wslot, gslot, resume. -/
structure TrapRegs where
  cause : Nat
  wslot : Nat
  gslot : Nat
  resume : Bool
  tepc : Word
  tword : Word
  taddr : Word64
  tlanes : LaneSet
  tscr0 : Word
  tscr1 : Word
  deriving DecidableEq, Repr

/-- The handler bank (10 Table 10.5), the handler split's number, what it holds aside (10 R178) and the handler staging
bank (16 R283). `after`: where resume = 1 continues; none: after the group at `at`, whose length its words give. -/
structure Handler where
  k : List Word
  kPois : BitVec 8
  kc : Bool
  m3 : LaneSet
  split : Nat
  pos : Pos
  after : Option Pos
  mask : LaneSet
  nest : List NestEntry
  stg : List Word64
  stgSet : BitVec 4
  deriving DecidableEq, Repr

/-- What a Waiting fibre waits for (02 Table 2.3); `held` by a nested trap, with its cause and where the group after the
one that raised it stands (10 R180, R191). -/
inductive Cond2 where
  | counter (c : Nat) (limit : Nat)
  | fbar (set : BitVec 4)
  | barrier (i : Nat) (phase : Word)
  | tbacq (x : Nat) (t : Nat)
  | nred (j : Nat) (x : Nat)
  | nbar (j : Nat)
  | xshuf (n : Nat) (partner : Nat) (dst : Dst)
  | regroup (x : Dst) (key : Row)
  | lands (st : Fin 4) (v : Row)
  | stop
  | held (cause : Nat) (after : Option Pos)
  deriving DecidableEq, Repr

/-- Fibre states of 02 Table 2.3; Trapped and Saved are marks beside it. -/
inductive FState where
  | absent
  | ready
  | issuing
  | waiting (c : List Cond2)
  | ended
  deriving DecidableEq, Repr

/-- A failure held for delivery (16 R293; 25 R414; 13 R251; 14 R263; 10 R191): cause, tword, address, lanes, whether
it names the group that issued last (resume = 1) or the one to issue next, whether the handler split's own access
raised it (10 R180), where the group it names stands if it is neither (11 R217), and the slot of the word (06 R111). -/
structure HeldFail where
  cause : Nat
  tword : Word
  addr : Word64
  lanes : LaneSet
  last : Bool
  hs : Bool
  at1 : Option Pos
  slot : Nat
  deriving DecidableEq, Repr

/-- A fibre, a frond stream (one lane) or a prologue (one lane), with its executing split `sp` of number `cs` taken out
of `splits` (02, 06 Table 6.1, 11 Table 11.2). The four counters are vm, vs, ce, ax, or mo, ml, md, ks. -/
structure Fibre where
  st : FState
  trapped : Bool
  saved : Bool
  sp : Split
  cs : Nat
  splits : List Split
  run : Nat
  live : LaneSet
  q : List QEnt
  b : List Latch
  streams : List Stream
  k : List Word
  kc : Bool
  kPois : BitVec 16
  m : List LaneSet
  fmode : Word
  fflags : Word
  amax : List Word
  trap : TrapRegs
  hnd : Option Handler
  cnt : List Nat
  stg : List Word64
  stgSet : BitVec 4
  goes : Nat
  stopPend : Bool
  wake : Bool
  exch : Nat
  exLost : Option (Nat × Nat)
  xin : List (Nat × Nat × Row)
  tbR : Tab Nat
  tbA : Tab Nat
  lostAxis : Bool
  cyHi : Option Word
  fails : List HeldFail
  gpos : Pos
  seq : Nat
  deriving DecidableEq, Repr

/-- What an address reaches. -/
inductive Loc where
  | dev (pa : Nat)
  | slice (cl off : Nat)
  | host (a : Nat)
  | peer (id off : Nat)
  | own (off : Nat)
  | reg (off : Nat)
  | fill (v : Word64)
  | oob (v : Word64)
  deriving DecidableEq, Repr

/-- What an access in flight is (13 Table 13.1, 17 R314, 16 R287). A publication: the flip still to be made, its scope,
whether it covers handle 1, the accesses translated through older tables that it waits for (17 R309 step 6): fibre, number. A start store: its value and when it arrived (11 R194). -/
inductive PKind where
  | load
  | store
  | arrive (i : Nat) (e : Nat)
  | rsig (g : Nat) (i : Nat) (c : Nat)
  | seal (gr : List Nat)
  | unseal (gr : List Nat)
  | cacheOp (inv : List Nat)
  | publish (flip : Bool) (sc : Scope) (code : Bool) (old : List (Nat × Nat))
  | go (cmd : List Word64)
  | fstart (v : Word64) (age : Nat)
  | enq (q : Nat) (l : Loc)
  | strm (s : Nat) (n : Nat)
  | result
  deriving DecidableEq, Repr

/-- An access in flight: who issued it, where its data go when it returns (06 R102, R103, R104): rows with the lanes still
to be written, the queue entry and latch of number `seq` + 1, k-registers (of the handler bank: `hb`); `wr`: an
acknowledgement is owed (20 R347); `joint`: the number of a word that made several accesses, whose counter the last of
them lowers (13 R229); `bar`: a fence holds the fibre's later stores and atomics (1) or every later access (2) until this
one is performed (13 R246); the word that made it and its slot (06 R111). A GO's values: SRC, DST, SHAPE, FLAGS, the slot passed plus 1, its place in the order of GOs. -/
structure Pend where
  fib : Nat
  seq : Nat
  kind : PKind
  hs : Bool
  rows : List (Nat × LaneSet)
  lanes : LaneSet
  data : List Row
  pois : LaneSet
  ks : List (Nat × Word)
  hb : Bool
  wr : Bool
  joint : Option Nat
  bar : Nat
  word : Word
  slot : Nat
  deriving DecidableEq, Repr

/-- What a fibre's group that waits would leave if it had not issued (04 R66, 09 R165): the fibre before it, the slot's rows
with their poison and accesses in flight, brought up to date as other accesses land and siblings write; the rows as the
group left them, and the lanes of them written by others since (09 R169). -/
structure Image where
  fib : Nat
  f : Fibre
  rows : List Row
  pois : Tab LaneSet
  pend : List Pend
  left : List Row
  leftPois : Tab LaneSet
  wrote : Tab LaneSet
  deriving DecidableEq, Repr

/-- A resident warp: its slot's named file, reservation, lanes' `wid`, accesses in flight (02 R17, 06 R98, R113).
`rg`: pending `rgrow` words (fibre, split, rows, age); `fresh`: no fibre has held the slot yet, so fibre 0 is its first
(R25); `stallAt`: the split whose group the slot stalled on last (10 R190); `retired`: its slot, rows and counter stay reserved
until its workgroup retires (R37); `images`: of its fibres that wait. -/
structure Warp where
  live : Bool
  fresh : Bool
  launch : Nat
  g : Nat
  idx : Nat
  nfib : Nat
  fib : Nat
  rows : List Row
  base : Nat
  resv : Nat
  pois : Tab LaneSet
  wid : List Word64
  pend : List Pend
  stall : Nat
  rg : List (Nat × Nat × Nat × Nat)
  stallAt : Nat
  order : Nat
  retired : Bool
  images : List Image
  deriving DecidableEq, Repr

/-- States of a tile-buffer slot (23 Table 23.1). -/
inductive SlotSt where
  | empty | reserved | full | acquired
  deriving DecidableEq, Repr

/-- An in-kernel tile buffer (23 R382): where its run starts, depth, slot size in bytes, slot states, wp, rp. -/
structure TBuf where
  start : Nat
  depth : Nat
  size : Nat
  slots : List SlotSt
  wp : Nat
  rp : Nat
  deriving DecidableEq, Repr

/-- A slot of a pipeline buffer (23 R389, R390): state, fill number, the stages that have released it. -/
structure PSlot where
  st : SlotSt
  fill : Nat
  rel : List Nat
  deriving DecidableEq, Repr

/-- A pipeline buffer's run and slots; `here`: its run is reserved (23 R389). -/
structure PBuf where
  home : Nat
  start : Nat
  depth : Nat
  size : Nat
  prod : Nat
  cons : Nat
  slots : List PSlot
  here : Bool
  deriving DecidableEq, Repr

/-- A placed workgroup (02 R21, 14 R255): its run in the slice (barrier words among it: 13 R242), tile buffers, warps not yet retired. The
frond stream: not started, queued, running or ended (11 R194, R195). -/
structure Wg where
  live : Bool
  launch : Nat
  g : Nat
  cluster : Nat
  off : Nat
  len : Nat
  tbufs : List TBuf
  warps : List Nat
  saved : Bool
  comTb : List Nat
  relTb : List Nat
  deriving DecidableEq, Repr

/-- A recorded apportioning of a batch (24 R399, R400): the clusters that serve each expert. -/
structure Batch where
  b : Nat
  counts : List Nat
  serve : List (Nat × List Nat)
  deriving DecidableEq, Repr

/-- A launch accepted and not complete (22 R364 to R375): its header copy, trap vector table, context, what it has
placed, its overflow area's packets in order of arrival (queue, place in the area). `empty`: no workgroup is left to place;
`skipped`: tasks beyond `nextG` that retired without placement (24 R401). -/
structure Launch where
  live : Bool
  queue : Nat
  ctx : Nat
  part : Nat
  hdr : BitVec 2048
  tv : BitVec 512
  comp : Nat
  pipe : Option Nat
  stage : Nat
  nextG : Nat
  empty : Bool
  clusters : List Nat
  batch : Option Batch
  overflow : List (Nat × Nat)
  cancelled : Bool
  skipped : List Nat
  deriving DecidableEq, Repr

/-- What completes once and posts one record: a launch, the repeats of an indirect launch, a pipeline (22 R369, R374);
`failAddr`: the failing address that a rejected launch's queue record carries (19 R334, R336; log 74); `counted`: launches, and
pipelines by their first, whose completion QDONE has counted; `rejects`: rejected ones it has still to count (22 R374). -/
structure Comp where
  live : Bool
  queue : Nat
  ctx : Nat
  tag : Word
  addr : Word64
  launches : List Nat
  more : Bool
  cause : Nat
  site : Nat
  orig : Nat
  ncause : Nat
  cancelled : Bool
  drops : Nat
  tt : Option Nat
  failAddr : Word64
  counted : List Nat
  rejects : Nat
  deriving DecidableEq, Repr

/-- A running pipeline (19 R339, 23 R389); `drops`: the drop counter of its apportioned stage (20 R350, 24 R402). -/
structure Pipeline where
  live : Bool
  desc : BitVec 2048
  comp : Nat
  stages : List Nat
  bufs : List PBuf
  placed : Bool
  starved : Bool
  drops : Nat
  deriving DecidableEq, Repr

/-- A copy command (16 R285, R294): the four values, fibre, number, workgroup, cursor (row, byte), the stream record it
walks, the source row of the cursor's row (`some none`: a zero row), the failure that holds it and whether that was
delivered, whether the requests of the line at the cursor have gone to the port (21 R354), whether that line is performed again (R294). -/
structure Cmd where
  src : Word64
  dst : Word64
  shape : Word64
  flags : Word64
  fib : Nat
  num : Nat
  wg : Nat
  tbs : Option (Nat × Nat)
  row : Nat
  byte : Nat
  strec : Option (BitVec 512)
  idx : Option (Option Nat)
  running : Bool
  held : Option (Nat × Nat × Word64)
  delivered : Bool
  paid : Bool
  again : Bool
  deriving DecidableEq, Repr

/-- A bank of an operand latch side (11 R205): format, shape code, K, block code, sparse, codes and scales or records by
row, an uncorrectable error (R217), poisoned bytes loaded (14 R263). -/
structure Bank where
  loaded : Bool
  fmt : Nat
  shape : Nat
  kk : Nat
  blk : Nat
  sp : Bool
  codes : List (List Nat)
  scales : List (List Nat)
  bad : Bool
  pois : Bool
  deriving DecidableEq, Repr

/-- An operand latch side: two banks and the one loaded last. -/
structure LSide where
  bank0 : Bank
  bank1 : Bank
  last : Nat
  deriving DecidableEq, Repr

/-- An accumulator (11 R198): Empty, Live L, Live Q of ng planes, Plane of an owner; M and N codes; values by row. -/
inductive AccSt where
  | empty | liveL | liveQ (ng : Nat) | plane (owner : Nat)
  deriving DecidableEq, Repr

/-- An accumulator's state, values, flags and poison bit (11 R198, R207, Table 11.10). -/
structure Acc where
  st : AccSt
  mcode : Nat
  ncode : Nat
  vals : List (List Nat)
  flags : Nat
  poison : Bool
  deriving DecidableEq, Repr

/-- An operation of the sequencer (11 R214): `mxmul` with the banks it reads, their numbers and its group's address, `mxzero`, `mxdrn` with its
place. -/
inductive MxOp where
  | mul (n : Nat) (a b : Bank) (ia ib : Nat) (pos : Pos)
  | zero (n : Nat)
  | drain (n : Nat) (off : Nat) (clr : Bool) (rel : Option (Nat × Nat))
  deriving DecidableEq, Repr

/-- A load of the gather unit in progress (11 R205): side, bank contents, the slot to release, and what it reads again after a
restore (R217): descriptor, K, the space's place, the index array's offset and the table's rows; its place in program order. -/
structure MxLoad where
  side : Side
  bank : Bank
  rel : Option (Nat × Nat)
  desc : Word64
  k : Nat
  space : Nat
  idx : Option (Nat × Nat)
  po : Nat
  deriving DecidableEq, Repr

/-- The frond core's use of a tile buffer (11 R206): role and the slot it holds. -/
structure FRole where
  producer : Bool
  held : Option Nat
  deriving DecidableEq, Repr

/-- A message on its way (09 R164): launch, sending and receiving workgroup, warp index, fibre, number, row. What has
arrived and is not matched stands in the receiving fibre's `xin`: sending workgroup, number, row. -/
structure XMsg where
  launch : Nat
  src : Nat
  g : Nat
  idx : Nat
  fib : Nat
  n : Nat
  row : Row
  deriving DecidableEq, Repr

/-- A held change of a tile buffer (23 R385): the holder's fibre key, its accesses up to `seq`, buffer, slot, commit or
release; for a pipeline buffer the launch of the stage. -/
structure TbOp where
  wg : Nat
  fib : Nat
  seq : Nat
  t : Nat
  slot : Nat
  commit : Bool
  deriving DecidableEq, Repr

/-- A pass waiting for the slice (14 R257, R258): requester, its fibre and access, a replay pass. -/
structure Pass where
  req : Nat
  fib : Nat
  seq : Nat
  replay : Bool
  deriving DecidableEq, Repr

/-- A save in shadow storage or the cluster's spill area (10 R189, 11 R217, 22 R377): a workgroup's key, or a slot's; its
bytes in each and where they begin there. What they save stays in the records marked Saved (log 8). -/
structure SaveArea where
  slot : Bool
  key : Nat
  inShadow : Nat
  inSpill : Nat
  shAt : Nat
  spAt : Nat
  deriving DecidableEq, Repr

/-- One cluster (10 R191, 11, 12 Tables 12.6, 12.9, 14, 16 R287, 20, 21 R354). `bad`, `single`: words of its slice with an
uncorrectable error, with a single-bit error (14 R263); `shadow`: the bytes of its shadow storage (12 Table 12.1). -/
structure Cluster where
  part : Nat
  newPart : Option Nat
  sprep : Word
  lastReq : Nat
  passes : List Pass
  bad : List Nat
  single : List Nat
  xbuf : List XMsg
  frondQ : List (Nat × Word64)
  frondWg : Option Nat
  refused : Bool
  lastcause : Nat
  roles : List (Nat × FRole)
  sideA : LSide
  sideB : LSide
  accs : List Acc
  ops : List MxOp
  load : Option MxLoad
  cmds : List Cmd
  ceTurn : Nat
  tbq : List TbOp
  brk0 : Word64
  brk1 : Word64
  wpt : Word64
  sstep : Word64
  buckets : List Nat
  portq : List (Nat × Nat × Nat)
  cong : Nat
  perf : List Word
  seqR : Tab Nat
  seqB : Tab Nat
  saves : List SaveArea
  shadow : Tab Byte
  fbuf : Tab Nat
  deriving DecidableEq, Repr

/-- An evicted slot (10 R188, R189), whose warp and fibres stay in their records, Saved: the rows to reserve again, the
fibres to be notified with the split that holds the `rgrow`. -/
structure Evicted where
  slot : Nat
  rows : Nat
  notify : List (Nat × Nat)
  deriving DecidableEq, Repr

/-- One vector core: performance counters 0x23 to 0x34 (20 Table 20.4), throttling (21 R357), evicted slots, the slot
that issued last. -/
structure Core where
  perf : List Word
  permit : Option (List Nat)
  lastPermit : Nat
  evicted : List Evicted
  nextOrder : Nat
  deriving DecidableEq, Repr

/-- A context block (22 Table 22.10). -/
structure Ctx where
  en : Bool
  part : Nat
  bad : Bool
  refused : Bool
  hbase : Nat
  tbase : Nat
  tsize : Nat
  deriving DecidableEq, Repr

/-- A prologue being run (22 R368 to R370): the packet, the header copy, the trap vector table and the pipeline record it
names, the headers of its stages 1 and up with their tables as read at acceptance (19 R333; none: the read failed), the
repeat index, words issued. -/
structure Prol where
  pkt : BitVec 512
  hdr : BitVec 2048
  tv : BitVec 512
  prec : BitVec 2048
  hdrs : List (Option (BitVec 2048 × Option (BitVec 512)))
  r : Nat
  words : Nat
  comp : Nat
  deriving DecidableEq, Repr

/-- A hardware queue (22 Table 22.2) and its lane's parsing state (22 R366, R342); `errAddr`: the failing address of the
last launch rejected with one (19 R334, log 74); `errTag`: the tag posted with the last cause of a bad packet (22 R364). -/
structure Queue where
  qctl : Word64
  qbase : Word64
  tail : Word
  head : Word
  dqbase : Word64
  dtail : Word
  dhead : Word
  errCause : Nat
  errCount : Nat
  errAddr : Word64
  errTag : Word
  done : Word
  devRun : Nat
  ahead : List (Nat × BitVec 512)
  prol : Option Prol
  deriving DecidableEq, Repr

/-- A time-triggered entry (19 Table 19.6), the last slot taken, and the last that had passed when the entry became valid or the
time last moved back (R342). -/
structure TtEntry where
  w0 : Word64
  phase : Word64
  period : Word64
  pkt : Word64
  last : Option Nat
  base : Option Nat
  deriving DecidableEq, Repr

/-- A partition's PRECTL state, PCFG in effect and as last written (`next`, in effect from the next refill: 21 R356),
NETCFG, PMEM (22, 25, 12) and arrival queue (22 R378). -/
structure Part where
  pre : Nat
  refused : Bool
  share : Nat
  en : Bool
  vmth : Nat
  wdlg : Nat
  next : BitVec 24
  seeded : Bool
  netcfg : Word64
  pmem : List Word64
  arrivals : List Ev
  deriving DecidableEq, Repr

/-- A reduction or barrier in progress (13 R248, R250): launch, number, P, operation, contributions. -/
structure Redn where
  launch : Nat
  j : Nat
  bar : Bool
  p : Nat
  op : RedOp
  con : List (Nat × Nat × Word)
  deriving DecidableEq, Repr

/-- Where the split goes after a group (04 R62, R67). -/
inductive Xfer where
  | next
  | jump (p : Pos)
  | brd (taken : LaneSet) (p : Pos)
  | join (slot : Nat)
  | halt
  | yield
  | tret
  deriving DecidableEq, Repr

/-- A chain group being executed (04 R65, R66): what it reads from, its first word's address, its words, the slot of the
word being executed, and what its words asked for: a transfer, conditions to wait for, a fault (cause, slot, lanes,
address), an operand not ready, the flags of each word (slot, pipe, flags), whether a fault keeps reset working
copies; the performance counters of its core and cluster as they stood before it (20 R346). -/
structure Grp where
  f : Fibre
  w : Warp
  base : Pos
  words : List Word
  slot : Nat
  xfer : Xfer
  waits : List Cond2
  fault : Option (Nat × Nat × LaneSet × Word64)
  stalled : Bool
  flags : List (Nat × Nat × BitVec 8)
  keep : Bool
  perf : List Word
  perfCl : List Word
  deriving DecidableEq, Repr

/-- Path classes of 15 R270; `sync`: the operations of 15 Table 15.4, by what they synchronise through. -/
inductive MemCls where
  | m | s | h
  | e (peer : Nat)
  | g | f | sync
  deriving DecidableEq, Repr

/-- An access, or one unit of it (15 R268), in the history of the memory order: its agent (a fibre's key, or 2^32 + fibre ×
2^16 + number of a copy command) and its workgroup, cluster, number among the agent's accesses in flight, place in program order; the class of its
location, the class of the path it took (R270), address and size; whether it reads, writes, is a fence; the bytes written, those there before when it was recorded; order
and scope; the lane it belongs to, the bytes before it in the lane's value, sign extension. -/
structure MUnit where
  ag : Nat
  wg : Nat
  cl : Nat
  seq : Nat
  po : Nat
  cls : MemCls
  via : MemCls
  addr : Nat
  size : Nat
  rd : Bool
  wr : Bool
  fence : Bool
  val : Nat
  old : Nat
  ord : MOrd
  scope : Scope
  lane : Nat
  off : Nat
  sx : Bool
  deriving DecidableEq, Repr

/-- What the memory system does with accesses in flight, as the environment chose (15 R267, R276; log 4): unit i of the history takes
place at j; a weak write is performed again; the next line of a cluster's copy command reads its units, and its index, as memory
stood some units ago; so does the next element of a stream (18 R325), the next load of a cluster's log array (11 R215). -/
inductive MemChoice where
  | move (i j : Nat)
  | again (i : Nat)
  | copyOld (cl : Nat) (ages : List Nat) (idx : Nat)
  | streamOld (a : Agent) (st : Fin 4) (ages : List Nat)
  | loadOld (cl : Nat) (ages : List Nat)
  deriving DecidableEq, Repr

/-- What runs next, as the environment chose (log 3): a group of an agent, the n-th pending event, a choice of the memory
system. -/
inductive Choice where
  | issue (a : Agent)
  | event (n : Nat)
  | memory (m : MemChoice)
  deriving DecidableEq, Repr

/-- The machine. The first fields are the model's own: who issues, its fibre and warp, the group, pending events, the
environment's choices, how the boots of resets to come end (26 R422; log 51), the free-value counter and where it stood at the last
device reset. `hist`: the accesses so far in
memory order, newest first (15; log 4). `msix`: the vectors raised, in order; `msixTab`, `msixPend`: the MSI-X table, address, data
and control of each vector, and the pending bits (26 R416; log 94). `prolTurn`: prologues whose turn has come (22 R370). -/
structure State where
  cur : Agent
  f : Fibre
  w : Warp
  grp : Option Grp
  evq : List Ev
  sched : List Choice
  bootEnds : List (Fin 8)
  tick : Nat
  tick0 : Nat
  fibs : Tab Fibre
  warps : Tab Warp
  wgs : Tab Wg
  launches : Tab Launch
  comps : Tab Comp
  pipes : Tab Pipeline
  nextId : Nat
  clusters : Tab Cluster
  cores : Tab Core
  mem : Tab Byte
  slices : Tab Byte
  hostMem : Tab Byte
  peerMem : Tab Byte
  hist : List MUnit
  memBad : List Nat
  cacheBad : List Nat
  sealMap : Tab Bool
  ctxs : Tab Ctx
  queues : Tab Queue
  prolTurn : List Nat
  parts : Tab Part
  tt : Tab TtEntry
  redns : List Redn
  outst : Tab Nat
  capw : BitVec 128
  accw : BitVec 128
  accepted : Bool
  devid : BitVec 20
  bwBudget : Nat
  bwNext : Nat
  stage : Nat
  fcode : Nat
  power : Bool
  cyc : Word64
  timens : Word64
  locked : Bool
  stepped : Bool
  hostEn : Bool
  hostLg : Nat
  bar2En : Bool
  bar2Win : Nat
  sealw : Nat
  closed : Nat
  errbase : Word64
  errctl : Word64
  errtail : Word
  errlost : Nat
  attBusy : Bool
  attDone : Bool
  nonce : List Word64
  report : List Byte
  stats : List Word64
  soft : Tab Nat
  msix : List Nat
  msixTab : List (BitVec 128)
  msixPend : List Nat
  fabric : List Word64
  expwin : Word64
  netq : List (Nat × Nat × NetPkt)
  gated : List Nat
  linksDown : List Nat
  retries : Tab Nat
  hot : List Nat
  thermTrip : Bool
  clusterMap : List Nat
  revId : BitVec 8
  deriving DecidableEq, Repr

/-- Reasons the machine itself stops. -/
inductive Fault where
  /-- A step with no power-good and no event that brings it (27 R432). Raised by `step`. Safe: nothing executes. -/
  | noPower
  deriving DecidableEq, Repr

/-- Reasons the model gives no meaning. -/
inductive Refusal where
  /-- An instruction of the opcode table without a meaning, by its mnemonic. Raised by `exec`. Safe. -/
  | notModelled (mnemonic : String)
  deriving DecidableEq, Repr

/-- A row of zeros. -/
abbrev zeroRow : Row := List.replicate 32 0#32

/-- No split. -/
def Split.none : Split := ⟨false, ⟨0, 0⟩, 0, [], false, false, Option.none, ⟨0, 0⟩⟩
/-- An unbound stream (18 R316). -/
def Stream.unbound : Stream := ⟨false, 0, 0, 0, 0, 0, [], false, 0, false, Option.none, 0, 0, 0⟩
/-- An element of value zero. -/
def SElem.zero : SElem := ⟨0, false, Option.none, false, false, false, (0, 0, 0), 0⟩
/-- The trap registers at launch. -/
def TrapRegs.zero : TrapRegs := ⟨0, 0, 0, false, 0, 0, 0, 0, 0, 0⟩
/-- An invalid latch (06 R104). -/
def Latch.invalid : Latch := ⟨false, zeroRow, 0, Option.none⟩
/-- A zero entry of the result queue (06 R103). -/
def QEnt.zero : QEnt := ⟨zeroRow, 0, 0, 0⟩

/-- No fibre; also every register at zero, for a fibre that is started. -/
def Fibre.none : Fibre where
  st := .absent
  trapped := false
  saved := false
  sp := Split.none
  cs := 0
  splits := [Split.none, Split.none, Split.none, Split.none]
  run := 0
  live := 0
  q := List.replicate 16 QEnt.zero
  b := List.replicate 4 Latch.invalid
  streams := List.replicate 4 Stream.unbound
  k := List.replicate 16 0#32
  kc := false
  kPois := 0
  m := [0, 0, 0, 0]
  fmode := 0
  fflags := 0
  amax := [0#32, 0#32]
  trap := TrapRegs.zero
  hnd := Option.none
  cnt := [0, 0, 0, 0]
  stg := [0#64, 0#64, 0#64, 0#64]
  stgSet := 0
  goes := 0
  stopPend := false
  wake := false
  exch := 0
  exLost := Option.none
  xin := []
  tbR := []
  tbA := []
  lostAxis := false
  cyHi := Option.none
  fails := []
  gpos := ⟨0, 0⟩
  seq := 0

/-- No warp. -/
def Warp.none : Warp := ⟨false, false, 0, 0, 0, 0, 0, [], 0, 0, [], [], [], 0, [], 0, 0, false, []⟩
/-- No workgroup. -/
def Wg.none : Wg := ⟨false, 0, 0, 0, 0, 0, [], [], false, [], []⟩
/-- No launch. -/
def Launch.none : Launch := ⟨false, 0, 0, 0, 0, 0, 0, Option.none, 0, 0, false, [], Option.none, [], false, []⟩
/-- No completion. -/
def Comp.none : Comp := ⟨false, 0, 0, 0, 0, [], false, 0, 0, 0, 0, false, 0, Option.none, 0, [], 0⟩
/-- No pipeline. -/
def Pipeline.none : Pipeline := ⟨false, 0, 0, [], [], false, false, 0⟩
/-- An unloaded bank. -/
def Bank.none : Bank := ⟨false, 0, 0, 0, 0, false, [], [], false, false⟩
/-- An unloaded side (11 R195). -/
def LSide.none : LSide := ⟨Bank.none, Bank.none, 0⟩
/-- An Empty accumulator (11 R195). -/
def Acc.empty : Acc := ⟨.empty, 0, 0, [], 0, false⟩
/-- A cluster after device reset: the network port was granted last (14 R258); part 0 until the manifest is applied. -/
def Cluster.reset : Cluster where
  part := 0
  newPart := Option.none
  sprep := 0
  lastReq := 7
  passes := []
  bad := []
  single := []
  xbuf := []
  frondQ := []
  frondWg := Option.none
  refused := false
  lastcause := 0
  roles := []
  sideA := LSide.none
  sideB := LSide.none
  accs := [Acc.empty, Acc.empty, Acc.empty, Acc.empty]
  ops := []
  load := Option.none
  cmds := []
  ceTurn := 0
  tbq := []
  brk0 := 0
  brk1 := 0
  wpt := 0
  sstep := 0
  buckets := List.replicate 16 0
  portq := []
  cong := 0
  perf := List.replicate 11 0#32
  seqR := []
  seqB := []
  saves := []
  shadow := []
  fbuf := []
/-- A vector core after device reset. -/
def Core.reset : Core := ⟨List.replicate 18 0#32, Option.none, 63, [], 0⟩
/-- A context that is not enabled (22 Table 22.10). -/
def Ctx.reset : Ctx := ⟨false, 0, false, false, 0, 0, 0⟩
/-- A queue after device reset: lsz 4, all else 0 (22 Table 22.2). -/
def Queue.reset : Queue := ⟨0x80, 0, 0, 0, 0, 0, 0, 0, 0, 0, 0, 0, 0, [], Option.none⟩
/-- A partition after device reset: wdlg 20 (21 Table 21.2). -/
def Part.reset : Part := ⟨0, false, 0, false, 0, 20, 0x500000, false, 0, [0, 0, 0, 0], []⟩
/-- A time-triggered entry after device reset (19 Table 19.6). -/
def TtEntry.reset : TtEntry := ⟨0, 0, 0, 0, Option.none, Option.none⟩

/-- The machine at power-on, before boot: stage 0, power-good present, nothing placed (26 R420; INVENTORY.md). -/
def State.reset : State where
  cur := .none
  f := Fibre.none
  w := Warp.none
  grp := Option.none
  evq := []
  sched := []
  bootEnds := []
  tick := 0
  tick0 := 0
  fibs := []
  warps := []
  wgs := []
  launches := []
  comps := []
  pipes := []
  nextId := 0
  clusters := []
  cores := []
  mem := []
  slices := []
  hostMem := []
  peerMem := []
  hist := []
  memBad := []
  cacheBad := []
  sealMap := []
  ctxs := []
  queues := []
  prolTurn := []
  parts := []
  tt := []
  redns := []
  outst := []
  capw := 0
  accw := 0
  accepted := false
  devid := 0
  bwBudget := 0
  bwNext := 0
  stage := 0
  fcode := 0
  power := true
  cyc := 0
  timens := 0
  locked := false
  stepped := false
  hostEn := false
  hostLg := 12
  bar2En := false
  bar2Win := 0
  sealw := 0
  closed := 0
  errbase := 0
  errctl := 0
  errtail := 0
  errlost := 0
  attBusy := false
  attDone := false
  nonce := List.replicate 8 0#64
  report := []
  stats := []
  soft := []
  msix := []
  msixTab := List.replicate 33 0x00000001000000000000000000000000#128
  msixPend := []
  fabric := List.replicate 64 0#64
  expwin := 0
  netq := []
  gated := []
  linksDown := []
  retries := []
  hot := []
  thermTrip := false
  clusterMap := []
  revId := 0xA1

end Sys2Proof.Machine
end

