-- ==== Sys2Proof/Machine/Ops.lean ====
section
/-! DEFINITION. Named operations over the state: sparse tables and bytes, the records of fibres, warps, clusters,
launches; posting of causes; splits; wait counters; taking a trap (10 R178 to R180). -/

namespace Sys2Proof.Machine

/-- Bits [lo + n - 1 : lo] of a number. -/
def bf (v lo n : Nat) : Nat := v / 2 ^ lo % 2 ^ n

/-- The list without repeats, the first of each kept. -/
def distinct (l : List Nat) : List Nat := l.foldl (fun a x => if a.contains x then a else a ++ [x]) []

/-! Sparse tables in canonical form: keys strictly rising, no entry equal to the default. -/

/-- The entry at a key, or the default. -/
def tget {α : Type} (d : α) : Tab α → Nat → α
  | [], _ => d
  | (a, v) :: r, k => if k = a then v else if k < a then d else tget d r k

/-- The table with one entry set; the default value removes the entry. -/
def tset {α : Type} [DecidableEq α] (d : α) : Tab α → Nat → α → Tab α
  | [], k, v => if v = d then [] else [(k, v)]
  | (a, w) :: r, k, v =>
    if k < a then (if v = d then (a, w) :: r else (k, v) :: (a, w) :: r)
    else if k = a then (if v = d then r else (k, v) :: r)
    else (a, w) :: tset d r k v

/-- Every key of the table lies above `lo`, the keys rise and no entry is the default. -/
def tabAbove {α : Type} [DecidableEq α] (d : α) (lo : Nat) : Tab α → Bool
  | [] => true
  | (a, v) :: r => decide (lo < a) && decide (v ≠ d) && tabAbove d a r

/-- The canonical form of a table. -/
def tabWf {α : Type} [DecidableEq α] (d : α) : Tab α → Bool
  | [] => true
  | (a, v) :: r => decide (v ≠ d) && tabAbove d a r

/-- The canonical form of a memory: an unlisted byte reads 0 (12 R218). -/
def Memory.wf (m : Tab Byte) : Bool := tabWf 0#8 m

/-- One byte of a memory. -/
def rdByte (m : Tab Byte) (a : Nat) : Byte := tget 0#8 m a
/-- One byte written. -/
def wrByte (m : Tab Byte) (a : Nat) (v : Byte) : Tab Byte := tset 0#8 m a v
/-- `n` bytes, little-endian (00 R3). -/
def rdBytes (m : Tab Byte) (a : Nat) : Nat → Nat
  | 0 => 0
  | n + 1 => (rdByte m a).toNat + 256 * rdBytes m (a + 1) n
/-- `n` bytes written, little-endian. -/
def wrBytes (m : Tab Byte) (a v : Nat) : Nat → Tab Byte
  | 0 => m
  | n + 1 => wrBytes (wrByte m a (BitVec.ofNat 8 v)) (a + 1) (v / 256) n
/-- `n` bytes set to zero. -/
def zeroBytes (m : Tab Byte) (a n : Nat) : Tab Byte := m.filter fun (k, _) => k < a || a + n ≤ k

/-! Keys. Fibre f of slot s of core c is (16 c + s) 4 + f; frond streams and prologues follow. -/

/-- The key of an agent's fibre record. -/
def fibKey : Agent → Nat
  | .vec k => k
  | .frond c => 49152 + 4 * c
  | .prol q => 49920 + 4 * q
  | .none => 60000
/-- The agent of a key. -/
def agentOf (k : Nat) : Agent :=
  if k < 49152 then .vec k
  else if k < 49920 then .frond ((k - 49152) / 4)
  else if k < 50048 then .prol ((k - 49920) / 4)
  else .none
/-- The core, 0 to 767, of a vector fibre's key. -/
def coreOf (k : Nat) : Nat := k / 64
/-- The logical cluster of a fibre's key. -/
def clusterOf (k : Nat) : Nat := if k < 49152 then k / 256 else (k - 49152) / 4
/-- The key of workgroup g of a launch. -/
def wgKey (launch g : Nat) : Nat := launch * 2 ^ 64 + g

/-! Records. -/

/-- A fibre record. -/
def getF (s : State) (k : Nat) : Fibre := if k = fibKey s.cur then s.f else tget Fibre.none s.fibs k
/-- A fibre record set. -/
def setF (s : State) (k : Nat) (f : Fibre) : State :=
  if k = fibKey s.cur then { s with f := f } else { s with fibs := tset Fibre.none s.fibs k f }
/-- A warp record, by fibre key / 4. -/
def getW (s : State) (k : Nat) : Warp := if k = fibKey s.cur / 4 then s.w else tget Warp.none s.warps k
/-- A warp record set. -/
def setW (s : State) (k : Nat) (w : Warp) : State :=
  if k = fibKey s.cur / 4 then { s with w := w } else { s with warps := tset Warp.none s.warps k w }
/-- The current agent's records put back. -/
def checkIn (s : State) : State :=
  match s.cur with
  | .none => s
  | a =>
    { s with
      fibs := tset Fibre.none s.fibs (fibKey a) s.f
      warps := tset Warp.none s.warps (fibKey a / 4) s.w
      cur := .none, f := Fibre.none, w := Warp.none }
/-- Another agent's records taken out. -/
def checkOut (s : State) (a : Agent) : State :=
  if a = s.cur then s
  else
    let t := checkIn s
    { t with cur := a, f := tget Fibre.none t.fibs (fibKey a), w := tget Warp.none t.warps (fibKey a / 4) }

/-- A change made with an agent's records taken out; who issues stays. -/
def onAgent (s : State) (a : Agent) (g : State → State) : State :=
  if a = s.cur then g s
  else
    let t := g (checkOut s a)
    match s.cur with
    | .none => checkIn t
    | c => checkOut t c

/-- A cluster's record. -/
def getCl (s : State) (c : Nat) : Cluster := tget Cluster.reset s.clusters c
/-- A cluster's record set. -/
def setCl (s : State) (c : Nat) (x : Cluster) : State := { s with clusters := tset Cluster.reset s.clusters c x }
/-- A cluster's record changed. -/
def modCl (s : State) (c : Nat) (g : Cluster → Cluster) : State := setCl s c (g (getCl s c))
/-- The places at which fibres fetched packets are forgotten: others take their keys (04 R61). -/
def dropFbuf (s : State) (c : Nat) (ks : List Nat) : State :=
  modCl s c fun x => { x with fbuf := x.fbuf.filter fun p => !ks.contains (p.1 / 2 ^ 32) }
/-- A core's record. -/
def getCore (s : State) (c : Nat) : Core := tget Core.reset s.cores c
/-- A core's record changed. -/
def modCore (s : State) (c : Nat) (g : Core → Core) : State :=
  { s with cores := tset Core.reset s.cores c (g (getCore s c)) }
/-- A workgroup's record. -/
def getWg (s : State) (k : Nat) : Wg := tget Wg.none s.wgs k
/-- A workgroup's record changed. -/
def modWg (s : State) (k : Nat) (g : Wg → Wg) : State := { s with wgs := tset Wg.none s.wgs k (g (getWg s k)) }
/-- A launch's record. -/
def getL (s : State) (k : Nat) : Launch := tget Launch.none s.launches k
/-- A launch's record changed. -/
def modL (s : State) (k : Nat) (g : Launch → Launch) : State :=
  { s with launches := tset Launch.none s.launches k (g (getL s k)) }
/-- A completion's record. -/
def getC (s : State) (k : Nat) : Comp := tget Comp.none s.comps k
/-- A completion's record changed. -/
def modC (s : State) (k : Nat) (g : Comp → Comp) : State := { s with comps := tset Comp.none s.comps k (g (getC s k)) }
/-- A pipeline's record. -/
def getP (s : State) (k : Nat) : Pipeline := tget Pipeline.none s.pipes k
/-- A pipeline's record changed. -/
def modP (s : State) (k : Nat) (g : Pipeline → Pipeline) : State :=
  { s with pipes := tset Pipeline.none s.pipes k (g (getP s k)) }
/-- A queue's record. -/
def getQ (s : State) (q : Nat) : Queue := tget Queue.reset s.queues q
/-- A queue's record changed. -/
def modQ (s : State) (q : Nat) (g : Queue → Queue) : State :=
  { s with queues := tset Queue.reset s.queues q (g (getQ s q)) }
/-- A partition's record. -/
def getPart (s : State) (p : Nat) : Part := tget Part.reset s.parts p
/-- A partition's record changed. -/
def modPart (s : State) (p : Nat) (g : Part → Part) : State :=
  { s with parts := tset Part.reset s.parts p (g (getPart s p)) }
/-- A context's record. -/
def getCtx (s : State) (i : Nat) : Ctx := tget Ctx.reset s.ctxs i
/-- A context's record changed. -/
def modCtx (s : State) (i : Nat) (g : Ctx → Ctx) : State := { s with ctxs := tset Ctx.reset s.ctxs i (g (getCtx s i)) }
/-- Pending events behind the ones there (log 3). -/
def post (s : State) (l : List Ev) : State := { s with evq := s.evq ++ l }
/-- Events posted unless they stand in the queue. -/
def postNew (s : State) (l : List Ev) : State := post s (l.filter fun e => !s.evq.contains e)

/-! The current agent's place. -/

/-- The current agent's key. -/
def curKey (s : State) : Nat := fibKey s.cur
/-- The cluster the current agent runs on. -/
def curCl (s : State) : Nat := clusterOf (curKey s)
/-- The current agent's launch. -/
def curL (s : State) : Launch := getL s s.w.launch
/-- The current agent's workgroup key. -/
def curWg (s : State) : Nat := wgKey s.w.launch s.w.g
/-- The context the current agent translates through (22 R379). -/
def curCtx (s : State) : Nat :=
  match s.cur with
  | .prol q => bf (getQ s q).qctl.toNat 16 6
  | _ => (curL s).ctx
/-- The current agent's partition. -/
def curPart (s : State) : Nat :=
  match s.cur with
  | .prol q => bf (getQ s q).qctl.toNat 1 4
  | _ => (curL s).part

/-! The launch header's copy (19 Table 19.2). -/

/-- kbase. -/
def hKbase (h : BitVec 2048) : Word := BitVec.ofNat 32 (bf h.toNat 0 32)
/-- mode. -/
def hMode (h : BitVec 2048) : Word := BitVec.ofNat 32 (bf h.toNat 32 32)
/-- w0 to w5. -/
def hWidth (h : BitVec 2048) (i : Nat) : Nat := bf h.toNat (64 + 7 * i) 7
/-- p. -/
def hLevel (h : BitVec 2048) : Nat := bf h.toNat 106 3
/-- ext. -/
def hExt (h : BitVec 2048) : Nat := bf h.toNat 128 64
/-- regs. -/
def hRegs (h : BitVec 2048) : Nat := bf h.toNat 192 8
/-- nfib. -/
def hNfib (h : BitVec 2048) : Nat := bf h.toNat 200 3
/-- scr, in bytes. -/
def hScr (h : BitVec 2048) : Nat := bf h.toNat 208 14 * 128
/-- nbar. -/
def hNbar (h : BitVec 2048) : Nat := bf h.toNat 224 7
/-- ntb. -/
def hNtb (h : BitVec 2048) : Nat := bf h.toNat 232 5
/-- entry f. -/
def hEntry (h : BitVec 2048) (f : Nat) : Word := BitVec.ofNat 32 (bf h.toNat (256 + 32 * f) 32)
/-- win f: base. -/
def hWinBase (h : BitVec 2048) (f : Nat) : Nat := bf h.toNat (384 + 16 * f) 7
/-- win f: length. -/
def hWinLen (h : BitVec 2048) (f : Nat) : Nat := bf h.toNat (391 + 16 * f) 6
/-- tvt. -/
def hTvt (h : BitVec 2048) : Nat := bf h.toNat 448 64
/-- tb i: depth. -/
def hTbDepth (h : BitVec 2048) (i : Nat) : Nat := bf h.toNat (512 + 32 * i) 5
/-- tb i: slot size in bytes. -/
def hTbSize (h : BitVec 2048) (i : Nat) : Nat := bf h.toNat (528 + 32 * i) 12 * 128
/-- par i. -/
def hPar (h : BitVec 2048) (i : Nat) : Word := BitVec.ofNat 32 (bf h.toNat (1024 + 32 * i) 32)
/-- pipe. -/
def hPipe (h : BitVec 2048) : Nat := bf h.toNat 1472 64
/-- stage. -/
def hStage (h : BitVec 2048) : Nat := bf h.toNat 1536 3
/-- ovf. -/
def hOvf (h : BitVec 2048) : Nat := bf h.toNat 1600 64
/-- ovfn. -/
def hOvfn (h : BitVec 2048) : Nat := bf h.toNat 1664 32
/-- Sum of the widths below field i: where field i starts (02 R18). -/
def hFieldLo (h : BitVec 2048) : Nat → Nat
  | 0 => 0
  | i + 1 => hFieldLo h i + hWidth h i
/-- W, the bits below the workgroup index (02 R21). -/
def hW (h : BitVec 2048) : Nat := hFieldLo h (hLevel h)
/-- The extent of field i, ni (02 R19). -/
def hExtent (h : BitVec 2048) (i : Nat) : Nat := hExt h / 2 ^ hFieldLo h i % 2 ^ hWidth h i + 1
/-- The work item exists (02 R19). -/
def hExists (h : BitVec 2048) (wid : Nat) : Bool :=
  (List.range 6).all (fun i => decide (wid / 2 ^ hFieldLo h i % 2 ^ hWidth h i < hExtent h i)) &&
  decide (wid / 2 ^ hFieldLo h 6 = 0)
/-- The header has a field width or extent that R398's `ext` may set: field i's bits in ext replaced. -/
def hSetExt (h : BitVec 2048) (i : Nat) (v : Nat) : BitVec 2048 :=
  let lo := 128 + hFieldLo h i
  let w := hWidth h i
  BitVec.ofNat 2048 (h.toNat - bf h.toNat lo w * 2 ^ lo + v % 2 ^ w * 2 ^ lo)
/-- par i replaced. -/
def hSetPar (h : BitVec 2048) (i : Nat) (v : Word) : BitVec 2048 :=
  let lo := 1024 + 32 * i
  BitVec.ofNat 2048 (h.toNat - bf h.toNat lo 32 * 2 ^ lo + v.toNat * 2 ^ lo)

/-! The pipeline record (19 Table 19.5). -/

/-- nst. -/
def pNst (r : BitVec 2048) : Nat := bf r.toNat 0 4
/-- ntb. -/
def pNtb (r : BitVec 2048) : Nat := bf r.toNat 4 5
/-- ap. -/
def pAp (r : BitVec 2048) : Bool := bf r.toNat 9 1 == 1
/-- apst. -/
def pApst (r : BitVec 2048) : Nat := bf r.toNat 10 3
/-- Experts. -/
def pNexp (r : BitVec 2048) : Nat := bf r.toNat 13 8 + 1
/-- aph. -/
def pAph (r : BitVec 2048) : Nat := bf r.toNat 21 12
/-- Header address of stage i. -/
def pStage (r : BitVec 2048) (i : Nat) : Nat := bf r.toNat (128 + 64 * i) 64

/-! Counters and causes. -/

/-- A saturating increment. -/
def satInc (v lim : Nat) : Nat := if v < lim then v + 1 else lim
/-- A performance counter of a core (20 Table 20.4), by CSR number 0x23 to 0x34. -/
def perfCore (s : State) (core csr n : Nat) : State :=
  modCore s core fun c => { c with perf := c.perf.set (csr - 0x23) (c.perf.getD (csr - 0x23) 0 + BitVec.ofNat 32 n) }
/-- A performance counter of a cluster, by CSR number 0x35 to 0x3F. -/
def perfCl (s : State) (cl csr n : Nat) : State :=
  modCl s cl fun c => { c with perf := c.perf.set (csr - 0x35) (c.perf.getD (csr - 0x35) 0 + BitVec.ofNat 32 n) }
/-- A performance counter of the current fibre's core; a frond stream or prologue counts nowhere. -/
def perfCur (s : State) (csr n : Nat) : State :=
  match s.cur with
  | .vec k => perfCore s (coreOf k) csr n
  | _ => s
/-- A soft-error counter of 20 Table 20.3: kind of unit (0 core, 1 cluster, 2 slice, 3 link), unit, counter. -/
def softKey (kind unit k : Nat) : Nat := (kind * 4096 + unit) * 8 + k
/-- It rises by one and saturates (20 R345, R351). -/
def softInc (s : State) (kind unit k : Nat) : State :=
  { s with soft := tset 0 s.soft (softKey kind unit k) (satInc (tget 0 s.soft (softKey kind unit k)) (2 ^ 32 - 1)) }
/-- Outstanding counters (20 R347): units are cores 0 to 767, frond cores 768 + c, copy engines 960 + c, Hawkmoth 1152.
The value is one above the count; 0: the launch holds no counter there. -/
def outKey (unit launch : Nat) : Nat := launch * 2048 + unit
/-- The current agent's unit. -/
def unitOf : Agent → Nat
  | .vec k => coreOf k
  | .frond c => 768 + c
  | _ => 1152
/-- A request of a launch leaves a unit. -/
def outRaise (s : State) (unit launch : Nat) : State :=
  { s with outst := tset 0 s.outst (outKey unit launch) (Nat.max (tget 0 s.outst (outKey unit launch)) 1 + 1) }
/-- Its acknowledgement returns. -/
def outLower (s : State) (unit launch : Nat) : State :=
  { s with outst := tset 0 s.outst (outKey unit launch) (Nat.max (tget 0 s.outst (outKey unit launch) - 1) 1) }

/-- A cause written to a queue's QERR (22 R375). -/
def qerr (s : State) (q cause : Nat) : State :=
  modQ s q fun x => { x with errCause := cause, errCount := satInc x.errCount 65535 }
/-- Where a fibre or stream stands, as bits [79:64] of a completion record (22 Table 22.6). -/
def siteOf (k : Nat) : Nat :=
  if k < 49152 then k / 256 + k / 64 % 4 * 256 + k / 4 % 16 * 1024 + k % 4 * 16384
  else clusterOf k
/-- The vector fibre at such a place. -/
def keyOfSite (v : Nat) : Nat := v % 256 * 256 + v / 256 % 4 * 64 + v / 1024 % 16 * 4 + v / 16384 % 4
/-- A cause posted for a completion (22 R374, R375): the first stands, later ones are counted. -/
def postComp (s : State) (comp cause site orig : Nat) : State :=
  let t := modC s comp fun c =>
    if c.cause = 0 then { c with cause := cause, site := site, orig := orig }
    else { c with ncause := satInc c.ncause 255 }
  qerr t (getC s comp).queue cause
/-- A cause posted for a launch. -/
def postCause (s : State) (launch cause site orig : Nat) : State := postComp s (getL s launch).comp cause site orig

/-- A host write: ignored and counted before stage 5 (26 R417). -/
def hostWrite (s : State) (f : State → State) : State :=
  if s.stage = 5 then f s else { s with closed := satInc s.closed 65535 }

/-! Splits (02 R26 to R30). -/

/-- The address after a slot (04 R61). -/
def Pos.next (p : Pos) : Pos := if p.slot < 2 then ⟨p.pkt, p.slot + 1⟩ else ⟨p.pkt + 1, 0⟩
/-- The first slot of the packet after. -/
def Pos.nextPkt (p : Pos) : Pos := ⟨p.pkt + 1, 0⟩
/-- Order of code addresses: packet index, then slot (02 R29). -/
def Pos.lt (p q : Pos) : Bool := decide (p.pkt.toNat < q.pkt.toNat) || (p.pkt == q.pkt && decide (p.slot < q.slot))

/-- The four splits with the executing one in its place. -/
def allSplits (f : Fibre) : List Split := f.splits.set f.cs f.sp
/-- The number of splits held. -/
def nSplits (f : Fibre) : Nat := (allSplits f).countP (·.live)
/-- The handler split's number, when Trapped. -/
def handlerIs (f : Fibre) (i : Nat) : Bool :=
  f.trapped &&
  match f.hnd with
  | some h => h.split == i
  | none => false
/-- The executing split is the handler split (10 R178). -/
def inHandler (f : Fibre) : Bool := handlerIs f f.cs
/-- A split that may issue. -/
def Split.runs (x : Split) : Bool := x.live && !x.parked && !x.faulted
/-- Another split takes its place. -/
def takeSplit (f : Fibre) (i : Nat) : Fibre :=
  let l := allSplits f
  { f with splits := l, sp := l.getD i Split.none, cs := i, run := 0 }
/-- b0 to b3 invalidated (02 R35). -/
def dropLatches (f : Fibre) : Fibre := { f with b := List.replicate 4 Latch.invalid }

/-- The entry is a call's. -/
def NestEntry.isCall : NestEntry → Bool
  | .call _ => true
  | .div .. => false
/-- Splits i < j stand at one address with equal call entries and no divergence (02 R29, 07 R121), neither a handler
split nor held by a fault (log 12). -/
def mergeable (f : Fibre) (l : List Split) (i j : Nat) : Bool :=
  let x := l.getD i Split.none
  let y := l.getD j Split.none
  x.live && y.live && x.pos == y.pos && x.nest == y.nest && x.nest.all (·.isCall) && !x.faulted && !y.faulted &&
  !handlerIs f i && !handlerIs f j
/-- Split j merged into split i. DESIGN CHOICE (log 12): R29 does not say whether a parked split that merges with one that
is not stays parked; here the merged split is not parked and issues the `join` again. -/
def mergeInto (l : List Split) (i j : Nat) : List Split :=
  let x := l.getD i Split.none
  let y := l.getD j Split.none
  (l.set i { x with mask := x.mask ||| y.mask, parked := x.parked && y.parked }).set j Split.none
/-- Every mergeable pair merged, lower number first (02 R29). -/
def mergeAll (f : Fibre) (l : List Split) : List Split :=
  [(0, 1), (0, 2), (0, 3), (1, 2), (1, 3), (2, 3)].foldl
    (fun l (i, j) => if mergeable f l i j then mergeInto l i j else l) l
/-- The next split that runs after number `cs`, wrapping, itself last. -/
def nextSplit (l : List Split) (cs : Nat) : Option Nat :=
  [cs + 1, cs + 2, cs + 3, cs + 4].map (· % 4) |>.find? fun i => (l.getD i Split.none).runs
/-- The parked split at the lowest address. -/
def lowestParked (l : List Split) : Option Nat :=
  [0, 1, 2, 3].foldl (fun best i =>
    let x := l.getD i Split.none
    if x.live && x.parked && !x.faulted then
      match best with
      | none => some i
      | some b => if x.pos.lt (l.getD b Split.none).pos then some i else best
    else best) none
/-- A split switch (02 R29, R30): splits merge; the next one runs; when all are parked the lowest continues past its
`join`. A switch to another number invalidates the latches. -/
def switchSplit (f : Fibre) : Fibre :=
  let l := mergeAll f (allSplits f)
  let g := { f with splits := l, sp := l.getD f.cs Split.none }
  match nextSplit l f.cs with
  | some i => if i = f.cs then { g with run := 0 } else dropLatches (takeSplit g i)
  | none =>
    match lowestParked l with
    | some i =>
      let x := l.getD i Split.none
      let y := { x with parked := false, pos := x.past }
      let h := takeSplit { g with splits := l.set i y, sp := if i = f.cs then y else g.sp } i
      if i = f.cs then h else dropLatches h
    | none => g

/-! Status and traps. -/

/-- `fstat` of a vector fibre or of a frond stream (06 Table 6.6, 11 R197). -/
def fstatOf (f : Fibre) (a : Agent) : Word :=
  let common := (if f.trapped then 128 else 0) + f.sp.nest.length * 256
  match a with
  | .vec k =>
    BitVec.ofNat 32 (k % 4 + f.cs * 4 + nSplits f * 16 + common + k / 4 % 16 * 4096 + k / 64 % 4 * 65536 +
      k / 256 * 262144)
  | .frond c => BitVec.ofNat 32 (common + c * 262144)
  | _ => 0

/-- The entry of the trap vector table for a cause (19 Table 19.4). -/
def vectorEntry (a : Agent) (cause : Nat) : Nat :=
  match a with
  | .frond _ => 10
  | _ =>
    if cause < 0x40 then 0 else if cause < 0x60 then 1 else if cause < 0xC0 then 2 else if cause < 0x100 then 3
    else if cause < 0x140 then 4 else if cause < 0x180 then 5 else if cause < 0x1A0 then 6
    else if cause < 0x1E0 then 7 else if cause < 0x1F0 then 8 else 9
/-- The handler's packet, if the launch has one for the cause (19 R338). -/
def handlerPkt (l : Launch) (a : Agent) (cause : Nat) : Option Word :=
  let e := bf l.tv.toNat (32 * vectorEntry a cause) 32
  if e = 0xFFFFFFFF then none else some (hKbase l.hdr + BitVec.ofNat 32 e)

/-- Causes whose effect has been made when the trap is entered (10 R178). -/
def resumes (cause : Nat) : Bool :=
  cause == 0x13A || cause == 0x1C0 || cause == 0x1C1 || cause == 0x1C2 || cause == 0x1C7 || cause == 0x1F6 ||
  cause == 0x1C3 || cause == 0x1C4 || cause == 0x1C5 || cause == 0x1F2 || cause == 0x1E1 || cause == 0x1E3 ||
  cause == 0x1E4 || cause == 0x1E8

/-- What a trap records: cause, slot and bits of the word, lanes, address, the group's first word, the address after its
last word where known; where the fibre would go on, of a failure that no word of the next group raised. -/
structure TrapIn where
  cause : Nat
  wslot : Nat
  tword : Word
  lanes : LaneSet
  addr : Word64
  base : Pos
  resume : Bool
  after : Option Pos
  cont : Option Pos := none
  deriving DecidableEq, Repr

/-- FSTAT.lastcause of a frond stream's cluster (11 R216). -/
def noteLast (s : State) (cause : Nat) : State :=
  match s.cur with
  | .frond c => modCl s c fun x => { x with lastcause := cause }
  | _ => s

/-- A fibre held by a nested trap (10 R180): Waiting on stop, no `fwake` releases it, 0x1E9 posted with the cause;
`after`: where the group after the one that raised it stands, if known. -/
def holdNested (s : State) (cause : Nat) (after : Option Pos) : State :=
  let t := postCause s s.w.launch 0x1E9 (siteOf (curKey s)) cause
  noteLast { t with f := { t.f with st := .waiting [.held cause after], wake := false } } 0x1E9

/-- The trap registers written (06 R111); the scratch registers stay. -/
def trapRegsOf (old : TrapRegs) (t : TrapIn) : TrapRegs :=
  { old with
    cause := t.cause, wslot := t.wslot, gslot := t.base.slot, resume := t.resume, tepc := t.base.pkt,
    tword := t.tword, taddr := t.addr, tlanes := t.lanes }

/-- The handler bank (10 Table 10.5). -/
def bankOf (f : Fibre) (a : Agent) (t : TrapIn) : List Word :=
  [BitVec.ofNat 32 t.cause, t.base.pkt, lo32 t.addr, hi32 t.addr &&& 0x3FFFFF#32, t.lanes, t.tword, fstatOf f a, 0#32]

/-- Trap entry (10 R178 to R180, 19 R338), the group's effects already suppressed or standing as the cause says; a split
other than the handler's parks at its group. A prologue's fault ends its run (22 R370). The slot's run of stalls ends (10
R190). -/
def enterTrap (s0 : State) (t : TrapIn) : State :=
  let s := { s0 with w := { s0.w with stall := 0 } }
  match s.cur with
  | .none => s
  | .prol q =>
    post { s with f := { s.f with st := .ended, trap := trapRegsOf s.f.trap t } } [.indirect q]
  | a =>
    if s.f.trapped then
      if inHandler s.f then holdNested s t.cause (t.cont <|> t.after)
      else
        let f := switchSplit { s.f with sp := { s.f.sp with pos := t.base, faulted := true } }
        if f.cs = s.f.cs then { s with f := f } else perfCur { s with f := f } 0x27 1
    else
      let f1 := { s.f with trapped := true, trap := trapRegsOf s.f.trap t }
      let hpos : Pos := match handlerPkt (curL s) a t.cause with
        | some p => ⟨p, 0⟩
        | none => s.f.sp.pos
      let f2 := { f1 with sp := { f1.sp with pos := hpos, nest := [], buf := none, parked := false } }
      let h : Handler :=
        { k := bankOf f2 a t, kPois := 0, kc := false, m3 := t.lanes &&& s.f.sp.mask, split := s.f.cs, pos := t.base, after := t.after
          mask := s.f.sp.mask, nest := s.f.sp.nest, stg := [0#64, 0#64, 0#64, 0#64], stgSet := 0 }
      let s1 := perfCur (noteLast { s with f := { f2 with hnd := some h, st := .ready } } t.cause) 0x33 1
      match handlerPkt (curL s) a t.cause with
      | some _ => s1
      | none => holdNested s1 t.cause t.cont

/-! Wait counters (10 R173, 20 R345). -/

/-- Counter c of a fibre: 0 vm or mo, 1 vs or ml, 2 ce or md, 3 ax or ks. -/
def cntOf (f : Fibre) (c : Nat) : Nat := f.cnt.getD c 0
/-- It rises. -/
def cntUp (f : Fibre) (c : Nat) : Fibre := { f with cnt := f.cnt.set c (cntOf f c + 1) }
/-- It falls; it never passes zero (20 R346). -/
def cntDown (f : Fibre) (c : Nat) : Fibre := { f with cnt := f.cnt.set c (cntOf f c - 1) }

end Sys2Proof.Machine
end

