-- ==== Sys2Proof/Machine/Translate.lean ====
section
/-! DEFINITION. From a virtual address to a place (12 R219 to R228): paths, windows, the axis walk (17 R301 to R303), the
partition's memory, the seal map; reading and writing a place. -/

namespace Sys2Proof.Machine

/-- Kinds of access (12 Table 12.4); `img`: images of 17 R307, records of 18 R328, packets of 22 R372. -/
inductive Acc2 where
  | ld | st | ldc | stc | atom | ldk | stk | ceSrc | ceDst | seal | cache | img | imgW | strm | strmW
  deriving DecidableEq, Repr

/-- The access writes. -/
def Acc2.writes : Acc2 → Bool
  | .st | .stc | .atom | .stk | .ceDst | .imgW | .strmW => true
  | _ => false

/-- Feature bit of ACCW (19 Table 19.8). -/
def feature (s : State) (b : Nat) : Bool := s.accw.getLsbD b

/-- Step 1 of 12 R220: reserved paths, and paths of features not accepted (19 R344). -/
def pathCode (s : State) (path : Nat) : Option Nat :=
  if 9 ≤ path || (path == 1 && !feature s 13) || (path == 5 && !feature s 14) || (path == 6 && !feature s 15) then
    some 0x040
  else none

/-- Step 2 of 12 R220: the path allowed for the access (12 Table 12.4, R224). -/
def pathAllowed (prol : Bool) (k : Acc2) (path : Nat) : Option Nat :=
  let legal : Bool := match k with
    | .ld => path ≤ 3 || (5 ≤ path && path ≤ 8)
    | .st => path == 0 || path == 2 || path == 3 || (5 ≤ path && path ≤ 8)
    | .ldc | .stc => path == 4
    | .atom => path == 0 || path == 2 || path == 3 || path == 4 || path == 6
    | .ldk | .stk => path == 0 || (!prol && (path == 2 || path == 3 || path == 7))
    | .ceSrc => path ≤ 6 || path == 8
    | .ceDst => path ≠ 1 && (path ≤ 6 || path == 8)
    | .seal => path == 0
    | .cache => path == 0 || path == 8
    | .img | .imgW | .strm | .strmW => path == 0 || path == 2 || path == 3
  if legal then none
  else match k with
    | .st | .stc | .stk | .ceDst | .strmW => some (if path == 1 then 0x049 else 0x043)
    | .atom => some (if path == 1 || path == 5 || path == 7 || path == 8 then 0x04A else 0x043)
    | _ => some 0x043

/-- Whether a range of GiB of a PMEM register holds an address (12 Table 12.10). -/
def pmemHolds (r : Word64) (pa : Nat) : Bool :=
  bf r.toNat 20 1 == 1 && bf r.toNat 0 10 ≤ pa / 2 ^ 30 && pa / 2 ^ 30 ≤ bf r.toNat 10 10
/-- A range put in its place by its first GiB. -/
def insertRange (x : Nat × Nat) : List (Nat × Nat) → List (Nat × Nat)
  | [] => [x]
  | y :: r => if x.1 ≤ y.1 then x :: y :: r else y :: insertRange x r
/-- The valid ranges of a partition's memory by first GiB: first, one past the last. -/
def partRanges (p : Part) : List (Nat × Nat) :=
  p.pmem.foldl (fun l r => if bf r.toNat 20 1 == 1 then insertRange (bf r.toNat 0 10, bf r.toNat 10 10 + 1) l else l) []
/-- GiB of a partition's memory; one that two of its ranges name is one. -/
def partGiB (p : Part) : Nat :=
  ((partRanges p).foldl (fun (a : Nat × Nat) r => (a.1 + (r.2 - Nat.max a.2 r.1), Nat.max a.2 r.2)) (0, 0)).1
/-- The top of a partition's highest valid range. -/
def partTop (p : Part) : Nat :=
  p.pmem.foldl (fun t r => if bf r.toNat 20 1 == 1 then Nat.max t ((bf r.toNat 10 10 + 1) * 2 ^ 30) else t) 0
/-- Where the spill region starts: 576 MiB below the seal map (12 R223). -/
def spillStart (p : Part) : Nat := partTop p - partGiB p * 2 ^ 15 - 576 * 2 ^ 20
/-- Step 6 of 12 R220 for a physical address. -/
def inPart (s : State) (part pa : Nat) : Bool :=
  let p := getPart s part
  p.pmem.any (pmemHolds · pa) && (decide (pa < spillStart p) || decide (partTop p ≤ pa))
/-- GiB of a partition's memory below one of them. -/
def giBelow (p : Part) (gi : Nat) : Nat :=
  ((partRanges p).foldl (fun (a : Nat × Nat) r => (a.1 + (Nat.min r.2 gi - Nat.max a.2 r.1), Nat.max a.2 r.2)) (0, 0)).1
/-- The byte and the bit of a 4 KiB granule in the seal map of the partition that holds it, at the top of its highest range (12 R218,
R223). DESIGN CHOICE (log 105): the bits follow the partition's granules by rising address. -/
def sealPlace (s : State) (g : Nat) : Option (Nat × Nat) :=
  (((List.range 16).map (getPart s)).find? fun p => p.pmem.any (pmemHolds · (4096 * g))).map fun p =>
    let n := giBelow p (g / 2 ^ 18) * 2 ^ 18 + g % 2 ^ 18
    (partTop p - partGiB p * 2 ^ 15 + n / 8, n % 8)
/-- The bits of granules written into the seal maps of device memory. -/
def sealBits (s : State) (gr : List Nat) (b : Bool) : Tab Byte :=
  gr.foldl (fun m g => match sealPlace s g with
    | some (a, i) => wrByte m a (if b then rdByte m a ||| 1#8 <<< i else rdByte m a &&& ~~~(1#8 <<< i))
    | none => m) s.mem
/-- The seal bit of a physical address (12 R227). -/
def sealed (s : State) (pa : Nat) : Bool := tget false s.sealMap (pa / 4096)

/-! Handles and axis tables as they lie in a context's areas of device memory (17 R295, R296, R299). -/

/-- One entry of an axis table (17 Table 17.3). -/
structure AxEntry where
  ls : Nat
  len : Nat
  ps : Nat
  addend : Nat
  mode : Nat
  deriving DecidableEq, Repr

/-- One axis record of a descriptor (17 Table 17.2); `owner`: the key of the fibre that holds the working copy. -/
structure Axis where
  extm1 : Nat
  width : Nat
  owner : Option Nat
  cur : Bool
  wcount : Nat
  stride : Nat
  toff : Nat
  count : Nat
  cap : Nat
  gen : Word
  deriving DecidableEq, Repr

/-- A handle's descriptor (17 Table 17.1). -/
structure Desc where
  base : Nat
  esize : Nat
  rank : Nat
  valid : Bool
  fill : Word64
  axes : List Axis
  deriving DecidableEq, Repr

/-- An entry from its 16 bytes. -/
def entryOf (v : Nat) : AxEntry := ⟨bf v 0 32, bf v 32 32, bf v 64 32, bf v 96 28, bf v 124 4⟩
/-- The 16 bytes of an entry. -/
def entryBits (e : AxEntry) : Nat := e.ls + e.len * 2 ^ 32 + e.ps * 2 ^ 64 + e.addend * 2 ^ 96 + e.mode * 2 ^ 124
/-- An axis from its 32 bytes. The owner field holds a fibre's place as 22 Table 22.6 writes it (log 37). -/
def axisOf (v : Nat) : Axis :=
  { extm1 := bf v 0 32, width := bf v 32 6, owner := if bf v 38 1 = 1 then some (keyOfSite (bf v 192 16)) else none
    cur := bf v 39 1 == 1, wcount := bf v 48 16, stride := bf v 64 40, toff := bf v 128 32, count := bf v 160 16
    cap := bf v 176 16, gen := BitVec.ofNat 32 (bf v 224 32) }
/-- The 32 bytes of an axis, reserved fields zero. -/
def axisBits (a : Axis) : Nat :=
  a.extm1 + a.width * 2 ^ 32 + (if a.owner.isSome then 2 ^ 38 else 0) + (if a.cur then 2 ^ 39 else 0) +
  a.wcount * 2 ^ 48 + a.stride * 2 ^ 64 + a.toff * 2 ^ 128 + a.count * 2 ^ 160 + a.cap * 2 ^ 176 +
  siteOf (a.owner.getD 0) * 2 ^ 192 + a.gen.toNat * 2 ^ 224
/-- A descriptor from its 256 bytes. -/
def descOf (v : Nat) : Desc :=
  { base := bf v 0 48, esize := bf v 48 3, rank := bf v 51 3, valid := bf v 54 1 == 1, fill := BitVec.ofNat 64 (bf v 64 64)
    axes := (List.range 6).map fun i => axisOf (bf v (256 * (i + 1)) 256) }
/-- An axis with nothing set. -/
def Axis.none : Axis := axisOf 0
/-- Axis i of a descriptor. -/
def axisAt (d : Desc) (i : Nat) : Axis := d.axes.getD i Axis.none
/-- The 256 bytes of a descriptor, reserved fields zero. -/
def descBits (d : Desc) : Nat :=
  d.base + d.esize * 2 ^ 48 + d.rank * 2 ^ 51 + (if d.valid then 2 ^ 54 else 0) + d.fill.toNat * 2 ^ 64 +
  (List.range 6).foldl (fun v i => v + axisBits (axisAt d i) * 2 ^ (256 * (i + 1))) 0

/-- Where the descriptor of a handle lies. -/
def descAddr (c : Ctx) (h : Nat) : Nat := c.hbase + 256 * h
/-- The descriptor that lies in a context's handle area. -/
def descAt (s : State) (c : Ctx) (h : Nat) : Desc := descOf (rdBytes s.mem (descAddr c h) 256)
/-- A handle's descriptor; a context that is not enabled has none. -/
def getDesc (s : State) (ctx h : Nat) : Desc := if (getCtx s ctx).en then descAt s (getCtx s ctx) h else descOf 0
/-- A 4-byte unit of the bytes is uncorrectable (14 R263, 26 R427). -/
def badUnits (l : List Nat) (a size : Nat) : Bool := l.any fun u => decide (u < (a + size + 3) / 4) && decide (a / 4 ≤ u)
/-- The axis at which reading a descriptor meets an uncorrectable error (R302, kind 5). DEDUCED (log 72): the header
counts as axis 0. -/
def descBad (s : State) (ctx h : Nat) : Option Nat :=
  let a := descAddr (getCtx s ctx) h
  if badUnits s.memBad a 16 then some 0
  else (List.range (getDesc s ctx h).rank).find? fun i => badUnits s.memBad (a + 32 + 32 * i) 32
/-- Where an axis's published copy starts in the table area (R296). -/
def pubStart (a : Axis) : Nat := a.toff + (if a.cur then 16 * a.cap else 0)
/-- Where its working copy starts. -/
def workStart (a : Axis) : Nat := a.toff + (if a.cur then 0 else 16 * a.cap)
/-- Table area of a context in bytes. -/
def tableArea (s : State) (ctx : Nat) : Nat := (getCtx s ctx).tsize * 4096
/-- `n` entries of the table area. -/
def entriesAt (s : State) (c : Ctx) (start n : Nat) : List AxEntry :=
  (List.range n).map fun j => entryOf (rdBytes s.mem (c.tbase + start + 16 * j) 16)
/-- One entry read by a walk: outside the area (kind 9), with an uncorrectable error (kind 5), or the entry (R302). -/
def walkRead (s : State) (ctx start j : Nat) : Except Nat AxEntry :=
  let c := getCtx s ctx
  let off := start + 16 * j
  if tableArea s ctx < off + 16 then .error 9
  else if badUnits s.memBad (c.tbase + off) 16 then .error 5
  else .ok (entryOf (rdBytes s.mem (c.tbase + off) 16))
/-- Bytes of the handle and table areas of enabled contexts, which no path reaches (17 R295). -/
def inArea (s : State) (pa : Nat) : Bool :=
  s.ctxs.any fun x => x.2.en && ((decide (x.2.hbase ≤ pa) && decide (pa < x.2.hbase + 2 ^ 20)) ||
    (decide (x.2.tbase ≤ pa) && decide (pa < x.2.tbase + x.2.tsize * 4096)))

/-! The walk (17 R301 to R305). -/

/-- Entry i, read after those in `rd`, has len 0 or stands out of order with one of them (R300, R302). -/
def entryBad (rd : List (Nat × AxEntry)) (i : Nat) (e : AxEntry) : Bool :=
  e.len == 0 || rd.any fun p =>
    (decide (i < p.1) && decide (p.2.ls < e.ls + e.len)) || (decide (p.1 < i) && decide (e.ls < p.2.ls + p.2.len))
/-- The next entry of a walk, checked. -/
def walkEntry (read : Nat → Except Nat AxEntry) (rd : List (Nat × AxEntry)) (i : Nat) : Except Nat AxEntry :=
  match read i with
  | .error k => .error k
  | .ok e => if entryBad rd i e then .error 6 else .ok e
/-- The binary search (R301, R305) over indices [lo, hi) for the largest with ls ≤ x; `best`: the one found below lo. DESIGN CHOICE
(log 91): it probes the midpoint rounded down; what it does not probe it does not check. -/
def walkSearch (read : Nat → Except Nat AxEntry) (x : Nat) :
    Nat → Nat → Nat → Option AxEntry → List (Nat × AxEntry) → Except Nat (Option AxEntry)
  | 0, _, _, best, _ => .ok best
  | n + 1, lo, hi, best, rd =>
    if hi ≤ lo then .ok best
    else
      let m := (lo + hi) / 2
      match walkEntry read rd m with
      | .error k => .error k
      | .ok e =>
        if e.ls ≤ x then walkSearch read x n (m + 1) hi (some e) ((m, e) :: rd)
        else walkSearch read x n lo m best ((m, e) :: rd)

/-- What an entry makes of an index: a kind, or the physical index (none: FILL) and the addend. -/
def entryIndex (e : AxEntry) (x : Nat) (store : Bool) : Except Nat (Option Nat × Nat) :=
  if e.ls + e.len ≤ x then .error 0
  else match e.mode with
    | 0 => .error 0
    | 1 => .ok (some (e.ps + (x - e.ls)), e.addend)
    | 2 => .ok (some (e.ps + e.len - 1 - (x - e.ls)), e.addend)
    | 3 => if store then .error 8 else .ok (some e.ps, e.addend)
    | 4 => if store then .error 8 else .ok (none, e.addend)
    | _ => .error 2
/-- One axis of the walk over a table of `n` entries (R301, R302): the last entry is read, then at most ⌈log2 n⌉ more. -/
def walkAxis (read : Nat → Except Nat AxEntry) (n x : Nat) (store : Bool) : Except Nat (Option Nat × Nat) :=
  if n = 0 then .error 1
  else match walkEntry read [] (n - 1) with
    | .error k => .error k
    | .ok last =>
      if last.ls + last.len ≤ x then .error 1
      else if last.ls ≤ x then entryIndex last x store
      else match walkSearch read x 17 0 (n - 1) none [(n - 1, last)] with
        | .error k => .error k
        | .ok none => .error 0
        | .ok (some e) => entryIndex e x store

/-- Axis cause (10 Table 10.6): kinds 3 and 4 use axis 0. -/
def axisCause (i k : Nat) : Nat := if k = 3 || k = 4 then 0x060 + k else 0x060 + 16 * i + k

/-- The walk over the axes left (17 R301). -/
def walkAxes (s : State) (ctx : Nat) (store : Bool) : List (Axis × Nat) → Nat → Nat → Bool → Except Nat (Option Nat)
  | [], _, pa, filled => .ok (if filled then none else some pa)
  | (a, x) :: r, i, pa, filled =>
    match walkAxis (walkRead s ctx (pubStart a)) a.count x store with
    | .error k => .error (axisCause i k)
    | .ok (p, add) =>
      let pa' := pa + p.getD 0 * a.stride + add * 4096
      if 2 ^ 48 ≤ pa' then .error (axisCause i 7) else walkAxes s ctx store r (i + 1) pa' (filled || p.isNone)

/-- Where axis i's coordinate starts in the coordinate word (17 R298). -/
def axisLo (d : Desc) (i : Nat) : Nat := ((d.axes.take i).map (·.width)).foldl (· + ·) 0
/-- The coordinates of a coordinate word. -/
def coords (d : Desc) (w : Nat) : List Nat :=
  (List.range d.rank).map fun i => bf w (axisLo d i) (axisAt d i).width
/-- A coordinate at or beyond its extent, or a bit above the last field (17 R298). -/
def oobWord (d : Desc) (w : Nat) : Bool :=
  ((coords d w).zip d.axes).any (fun (x, a) => decide (a.extm1 < x)) || decide (bf w (axisLo d d.rank) 38 ≠ 0)
/-- Bytes of an element. -/
def esizeBytes (d : Desc) : Nat := 2 ^ d.esize

/-- The walk of a path 0x4 coordinate word: a fault, the fill value, or a physical address. -/
def translate4 (s : State) (ctx h w : Nat) (store : Bool) : Except Nat (Option Nat) :=
  let d := getDesc s ctx h
  walkAxes s ctx store ((d.axes.take d.rank).zip (coords d w)) 0 d.base false

/-- The walk of handle 0 or 1 (17 R303): logical index x, unit of 256 or 12 bytes. -/
def translate01 (s : State) (ctx h x unit : Nat) (store : Bool) : Except Nat (Option Nat) :=
  let d := getDesc s ctx h
  let a := axisAt d 0
  if (descBad s ctx h).isSome then .error 0x065
  else if !d.valid then .error 0x063
  else if a.extm1 < x then .error 0x061
  else match walkAxis (walkRead s ctx (pubStart a)) a.count x store with
    | .error k => .error (axisCause 0 k)
    | .ok (p, add) =>
      let pa := d.base + p.getD 0 * unit + add * 4096
      if 2 ^ 48 ≤ pa then .error 0x067 else .ok (if p.isNone then none else some pa)

/-- Steps 6 and 7 of 12 R220 on the bytes at a physical address (at most 16, so the first and the last stand for all).
DEDUCED (log 72): the areas of a context, which no path reaches (17 R295), are not memory that a path finds. -/
def checkPa (s : State) (part pa size : Nat) (store : Bool) : Except Nat Loc :=
  let last := pa + size - 1
  if 2 ^ 48 ≤ last then .error 0x04C
  else if !inPart s part pa || !inPart s part last || inArea s pa || inArea s last then .error 0x04D
  else if store && (sealed s pa || sealed s last) then .error 0x042
  else .ok (.dev pa)

/-- A slice offset lies in a barrier area reserved there now (14 R262). -/
def inBarrierArea (s : State) (cl off : Nat) : Bool :=
  s.wgs.any fun (_, w) =>
    let lo := w.off + hScr (getL s w.launch).hdr
    w.live && w.cluster == cl && decide (lo ≤ off) && decide (off < lo + (8 * hNbar (getL s w.launch).hdr + 127) / 128 * 128)
/-- The valid entry of the fabric routing table with the lowest number that holds a peer (25 R412). -/
def fabricEntry (s : State) (id : Nat) : Option Word64 :=
  s.fabric.find? fun e => bf e.toNat 52 1 == 1 && decide (bf e.toNat 0 20 ≤ id) && decide (id ≤ bf e.toNat 20 20)
/-- The fabric routing table holds a peer (25 R412). -/
def peerRouted (s : State) (id : Nat) : Bool := (fabricEntry s id).isSome
/-- The fabric port that carries a request of a port on the die network: one of the entry's mask, by a fixed hash (25 R412). -/
def fabricPort (s : State) (src id off : Nat) : Option Nat :=
  match fabricEntry s id with
  | some e =>
    let ps := (List.range 12).filter fun i => e.getLsbD (40 + i)
    ps[Config.fabricHash src id (bf off 7 23) % ps.length]?
  | none => none
/-- The registers of 12 Table 12.5, by block and offset. -/
def regListed (o : Nat) : Bool :=
  o == 0x00 || o == 0x08 || o == 0x10 || o == 0x18 || o == 0x20 || o == 0x100 || o == 0x108 || o == 0x110 ||
  o == 0x200 || o == 0x208 || o == 0x210 || o == 0x218

/-- Who accesses: context, partition, cluster, the workgroup's run and allocation size, a prologue, a frond stream. -/
structure Who where
  ctx : Nat
  part : Nat
  cl : Nat
  off : Nat
  scr : Nat
  prol : Bool
  frond : Bool
  deriving DecidableEq, Repr

/-- The current agent. -/
def whoCur (s : State) : Who :=
  { ctx := curCtx s, part := curPart s, cl := curCl s, off := (getWg s (curWg s)).off, scr := hScr (curL s).hdr
    prol := match s.cur with
      | .prol _ => true
      | _ => false
    frond := match s.cur with
      | .frond _ => true
      | _ => false }

/-- The checks of 12 R220 on one address, in order, and the place it reaches. DEDUCED (log 92): the checks that path 0x4 adds to step
2, the handle's validity first, follow Table 12.4, so that an access the table bars there raises 0x043 whatever the handle. -/
def locate (s : State) (w : Who) (k : Acc2) (va : Word64) (size : Nat) : Except Nat Loc :=
  let v := va.toNat
  let path := bf v 50 4
  let low := bf v 0 50
  let hi := v / 2 ^ 54
  let store := k.writes
  match pathCode s path with
  | some c => .error c
  | none =>
  match pathAllowed w.prol k path with
  | some c => .error c
  | none =>
  match path with
  | 0 | 1 =>
    if hi ≠ 0 || 2 ^ 40 ≤ low then .error 0x044
    else if low % size ≠ 0 then .error 0x041
    else match translate01 s w.ctx 0 (low / 256) 256 store with
      | .error c => .error c
      | .ok none => .ok (.fill 0)
      | .ok (some pa) => checkPa s w.part (pa + low % 256) size store
  | 2 =>
    let cl := bf v 20 8
    let off := bf v 0 20
    if hi ≠ 0 || 2 ^ 28 ≤ low || 192 ≤ cl || inBarrierArea s cl off then .error 0x044
    else if off % size ≠ 0 then .error 0x041
    else if (getCl s cl).part ≠ w.part then .error 0x04D
    else .ok (.slice cl off)
  | 3 =>
    if hi ≠ 0 || 2 ^ 20 ≤ low then .error 0x044
    else if w.scr ≤ low then .error 0x04B
    else if low % size ≠ 0 then .error 0x041
    else .ok (.slice w.cl (w.off + low))
  | 4 =>
    let h := bf v 38 12
    let cw := bf v 0 38
    let d := getDesc s w.ctx h
    if let some i := descBad s w.ctx h then .error (axisCause i 5)
    else if !d.valid then .error 0x063
    else if (k == .ldc || k == .stc) && size ≠ esizeBytes d then .error 0x043
    else if h ≤ 1 || (hi ≠ 0 && (k == .ceSrc || k == .ceDst)) then .error 0x044
    else if oobWord d cw then .ok (.oob d.fill)
    else if hi ≠ 0 then .error 0x044
    else match translate4 s w.ctx h cw store with
      | .error c => .error c
      | .ok none => .ok (.fill d.fill)
      | .ok (some pa) => if pa % size ≠ 0 then .error 0x041 else checkPa s w.part pa size store
  | 5 =>
    if hi ≠ 0 || 2 ^ 48 ≤ low then .error 0x044
    else if !s.hostEn then .error 0x045
    else if 2 ^ s.hostLg ≤ low then .error 0x044
    else if low % size ≠ 0 then .error 0x041
    else .ok (.host low)
  | 6 =>
    let id := bf v 30 20
    let off := bf v 0 30
    if hi ≠ 0 then .error 0x044
    else if id ≠ s.devid.toNat && !peerRouted s id then .error 0x046
    else if off % size ≠ 0 then .error 0x041
    else .ok (if id = s.devid.toNat then .own off else .peer id off)
  | 7 =>
    if bf v 21 1 = 1 then .error 0x043
    else if hi ≠ 0 || 2 ^ 21 ≤ low || bf v 16 5 ≠ 0 then .error 0x044
    else if size ≠ 8 then .error 0x048
    else if low % 8 ≠ 0 then .error 0x041
    else if !regListed (bf v 0 16) || (w.frond && decide (bf v 0 16 < 0x100)) then .error 0x047
    else .ok (.reg (bf v 0 16))
  | _ =>
    if hi ≠ 0 || 2 ^ 36 ≤ low || 12 < bf v 0 4 + size then .error 0x044
    else if low % size ≠ 0 then .error 0x041
    else match translate01 s w.ctx 1 (bf v 4 32) 12 store with
      | .error c => .error c
      | .ok none => .ok (.fill 0)
      | .ok (some pa) => checkPa s w.part (pa + bf v 0 4) size store

/-- The physical address an own export window offset reaches, unless refused (25 R413). -/
def ownWindow (s : State) (off : Nat) (write atom : Bool) : Option Nat :=
  let e := s.expwin.toNat
  let pa := bf e 0 10 * 2 ^ 30 + off
  if bf e 11 1 = 0 || bf e 10 1 * 2 ^ 30 ≤ off || (write && bf e 12 1 == 1) || (atom && bf e 13 1 == 0) ||
      (write && sealed s pa) || inArea s pa then none
  else some pa

/-- `size` bytes read from a place, with poison. Registers are read elsewhere. -/
def readLoc (s : State) (l : Loc) (size : Nat) : Nat × Bool :=
  match l with
  | .dev pa => (rdBytes s.mem pa size, badUnits s.memBad pa size)
  | .slice cl off => (rdBytes s.slices (cl * 2 ^ 20 + off) size, badUnits (getCl s cl).bad off size)
  | .host a => (rdBytes s.hostMem a size, false)
  | .peer id off => (rdBytes s.peerMem (id * 2 ^ 30 + off) size, false)
  | .own off =>
    match ownWindow s off false false with
    | some pa => (rdBytes s.mem pa size, badUnits s.memBad pa size)
    | none => (0, false)
  | .fill v | .oob v => (v.toNat % 2 ^ (8 * size), false)
  | .reg _ => (0, false)

/-- Whole 4-byte units of a write clear an error (14 R263). -/
def clearBad (l : List Nat) (a size : Nat) : List Nat :=
  l.filter fun u => !(decide (a ≤ 4 * u) && decide (4 * u + 4 ≤ a + size))

/-- The device's memory with bytes written. -/
def writeDev (s : State) (pa v size : Nat) : State :=
  { s with mem := wrBytes s.mem pa v size, memBad := clearBad s.memBad pa size, cacheBad := clearBad s.cacheBad pa size }
/-- The descriptor of a handle written (17 R296). -/
def setDesc (s : State) (ctx h : Nat) (d : Desc) : State := writeDev s (descAddr (getCtx s ctx) h) (descBits d) 256
/-- Axis record i of a handle written. -/
def setAxis (s : State) (ctx h i : Nat) (a : Axis) : State :=
  writeDev s (descAddr (getCtx s ctx) h + 32 + 32 * i) (axisBits a) 32
/-- Entries written from an offset of the table area on. -/
def setEntries (s : State) (ctx start : Nat) (l : List AxEntry) : State :=
  (List.range l.length).foldl (fun t j =>
    writeDev t ((getCtx s ctx).tbase + start + 16 * j) (entryBits (l.getD j ⟨0, 0, 0, 0, 0⟩)) 16) s
/-- Handles of a context whose descriptors hold anything. -/
def handlesOf (s : State) (ctx : Nat) : List Nat :=
  let b := (getCtx s ctx).hbase
  distinct ((s.mem.filter fun x => decide (b ≤ x.1) && decide (x.1 < b + 2 ^ 20)).map fun x => (x.1 - b) / 256)
/-- The axes that a fibre holds (17 R306), by handle and number. -/
def heldAxes (s : State) (ctx key : Nat) : List (Nat × Nat) :=
  if !(getCtx s ctx).en then []
  else (handlesOf s ctx).flatMap fun h =>
    ((List.range 6).filter fun i => (axisAt (getDesc s ctx h) i).owner == some key).map fun i => (h, i)
/-- A working copy made equal to the published one (17 R306, R309 step 4), its owner gone. -/
def equalCopies (s : State) (ctx h i : Nat) (a : Axis) : State :=
  setAxis (setEntries s ctx (workStart a) (entriesAt s (getCtx s ctx) (pubStart a) a.count)) ctx h i
    { a with wcount := a.count, owner := none }

/-- A slice with bytes written; part of an uncorrectable word is not (14 R263): false. -/
def writeSlice (s : State) (cl off v size : Nat) : State × Bool :=
  let bad := clearBad (getCl s cl).bad off size
  if badUnits bad off size then (s, false)
  else (modCl { s with slices := wrBytes s.slices (cl * 2 ^ 20 + off) v size } cl fun c =>
    { c with bad := bad, single := clearBad c.single off size }, true)

/-- Where barrier word i of a workgroup lies in its cluster's slice (13 R242). -/
def barOff (s : State) (w : Wg) (i : Nat) : Nat := w.off + hScr (getL s w.launch).hdr + 8 * i
/-- Barrier word i of a workgroup. -/
def barWord (s : State) (key i : Nat) : Word64 :=
  let w := getWg s key
  BitVec.ofNat 64 (rdBytes s.slices (w.cluster * 2 ^ 20 + barOff s w i) 8)
/-- It is written. -/
def setBarWord (s : State) (key i : Nat) (v : Word64) : State :=
  let w := getWg s key
  (writeSlice s w.cluster (barOff s w i) v.toNat 8).1
/-- An uncorrectable 4-byte unit of it. -/
def barBad (s : State) (key i : Nat) : Bool :=
  let w := getWg s key
  badUnits (getCl s w.cluster).bad (barOff s w i) 8

/-- `size` bytes written to a place; false where the write is refused after issue (14 R263, 25 R413). -/
def writeLoc (s : State) (l : Loc) (v size : Nat) : State × Bool :=
  match l with
  | .dev pa => (writeDev s pa v size, true)
  | .slice cl off => writeSlice s cl off v size
  | .host a => ({ s with hostMem := wrBytes s.hostMem a v size }, true)
  | .peer id off => ({ s with peerMem := wrBytes s.peerMem (id * 2 ^ 30 + off) v size }, true)
  | .own off =>
    match ownWindow s off true false with
    | some pa => (writeDev s pa v size, true)
    | none => (s, false)
  | .fill _ | .oob _ | .reg _ => (s, true)

/-- Where a packet of handle 1 stands (04 R60, R61), or the cause of the fetch; none: the fill value. -/
def codePlace (s : State) (w : Who) (pkt : Word) : Except Nat (Option Nat) :=
  match translate01 s w.ctx 1 pkt.toNat 12 false with
  | .error c => .error c
  | .ok none => .ok none
  | .ok (some pa) => (checkPa s w.part pa 12 false).map fun _ => some pa
/-- A packet's three words as memory holds them. A poisoned packet reads as data. -/
def codeWords (s : State) (w : Who) (pkt : Word) : Except Nat (List Word) :=
  (codePlace s w pkt).map fun x => match x with
    | none => [0, 0, 0]
    | some pa => [0, 4, 8].map fun i => BitVec.ofNat 32 (rdBytes s.mem (pa + i) 4)

end Sys2Proof.Machine
end

