-- ==== Sys2Proof/Machine/Grid.lean ====
section
/-! DEFINITION. Routers, ports, dies and routes (01 R11 to R14, 25 R405). A router is row × 8 + column; its outputs are 0 to 7
(row links by column), 8 to 17 (column links by row), 18 + port (local); a link is router × 64 + output; a port is router × 8
+ local port. -/

namespace Sys2Proof.Machine

/-- The router of a logical cluster (R12). -/
def clusterRouter (c : Nat) : Nat := (2 + c / 32) * 8 + c / 4 % 8
/-- The port of a logical cluster (R12). -/
def clusterPort (c : Nat) : Nat := clusterRouter c * 8 + c % 4
/-- The router of a memory slice (R12): rows 0, 1, 8 and 9. -/
def sliceRouter (m : Nat) : Nat := [0, 1, 8, 9].getD (m / 16) 0 * 8 + m / 2 % 8
/-- The port of a memory slice (R12). -/
def slicePort (m : Nat) : Nat := sliceRouter m * 8 + m % 2
/-- The third port of the router at row 0, column 0: the Hawkmoth core, the Lichen cluster, the PCIe endpoint and root ports,
the Ethernet ports (R14). -/
def hostPort : Nat := 2
/-- The die of a router (R11). -/
def dieOfRouter (r : Nat) : Nat := (if 5 ≤ r / 8 then 2 else 0) + (if 4 ≤ r % 8 then 1 else 0)
/-- The die of a logical cluster. -/
def dieOf (cl : Nat) : Nat := dieOfRouter (clusterRouter cl)
/-- The memory slice of a physical address (12 R222). -/
def memSlice (pa : Nat) : Nat := Nat.xor (Nat.xor (bf pa 7 6) (bf pa 13 6)) (bf pa 19 6)

/-- The output at a router for a port (25 R405). -/
def nextOut (r dest : Nat) : Nat :=
  let d := dest / 8
  if r % 8 ≠ d % 8 then d % 8 else if r / 8 ≠ d / 8 then 8 + d / 8 else 18 + dest % 8
/-- The router an output reaches; none: a local port. -/
def outRouter (r o : Nat) : Option Nat :=
  if o < 8 then some (r / 8 * 8 + o) else if o < 18 then some ((o - 8) * 8 + r % 8) else none
/-- The link of an output. -/
def linkId (r o : Nat) : Nat := r * 64 + o
/-- The links of the route from a router to a port (25 R405); at most two. -/
def routeLinks (r dest : Nat) : List Nat :=
  let d := dest / 8
  let m := r / 8 * 8 + d % 8
  (if r % 8 ≠ d % 8 then [linkId r (d % 8)] else []) ++ if r / 8 ≠ d / 8 then [linkId m (8 + d / 8)] else []
/-- The routers of the route. -/
def routeRouters (r dest : Nat) : List Nat := distinct [r, r / 8 * 8 + dest / 8 % 8, dest / 8]

/-- The router port of a fabric port: three for each die, on its first three routers of row 0 or 9. PRESUMED (log 98): 25 R412
says only that the routers of these rows carry them. -/
def fabricPlace (i : Nat) : Nat := ((if i < 6 then 0 else 72) + i / 3 % 2 * 4 + i % 3) * 8 + 3
/-- The port behind which a place of the device lies. -/
def portOfLoc : Loc → Option Nat
  | .dev pa => some (slicePort (memSlice pa))
  | .slice cl _ => some (clusterPort cl)
  | .host _ => some hostPort
  | .peer .. | .own _ | .reg _ | .fill _ | .oob _ => none
/-- The port of an agent. -/
def agentPort : Agent → Nat
  | .vec k => clusterPort (k / 256)
  | .frond c => clusterPort c
  | .prol _ | .none => hostPort
/-- The port through which the current agent reaches a place, a peer's through its fabric port (25 R412). -/
def portTo (s : State) (l : Loc) : Option Nat :=
  match l with
  | .peer id off => (fabricPort s (agentPort s.cur) id off).map fabricPlace
  | .dev _ | .slice .. | .host _ | .own _ | .reg _ | .fill _ | .oob _ => portOfLoc l
/-- A route between two ports uses a link declared down (25 R411). -/
def linkLost (s : State) (src dest : Nat) : Bool := dest != src && (routeLinks (src / 8) dest).any s.linksDown.contains
/-- The clusters of a partition. -/
def partClusters (s : State) (p : Nat) : List Nat := (List.range 192).filter fun c => (getCl s c).part == p
/-- The router in which a fold over clusters ends (25 R408). -/
def foldRoot (cl : List Nat) : Nat :=
  match distinct (cl.map clusterRouter) with
  | [] => 0
  | [r] => r
  | r :: rs => if rs.all (fun x => x / 8 == r / 8) then r / 8 * 8 else 16
/-- A port of the router in which a launch's reductions and barriers end: that of its partition's clusters. -/
def foldPort (s : State) (launch : Nat) : Nat := 8 * foldRoot (partClusters s (getL s launch).part)
/-- A place that the current agent reaches through the network only over a link declared down (25 R411). -/
def routeDown (s : State) (l : Loc) : Bool :=
  match portTo s l with
  | none => false
  | some d => linkLost s (agentPort s.cur) d
/-- A multicast of the current agent to every cluster's port has a branch over a link declared down (25 R407). -/
def castDown (s : State) : Bool := (List.range 192).any fun c => linkLost s (agentPort s.cur) (clusterPort c)
/-- The routers of the routes to places wake (25 R410). -/
def wakeRoutes (s : State) (ls : List Loc) : State :=
  if s.gated.isEmpty then s
  else
    let rs := ls.flatMap fun l => match portTo s l with
      | none => []
      | some d => if d = agentPort s.cur then [] else routeRouters (agentPort s.cur / 8) d
    { s with gated := s.gated.filter fun x => !rs.contains x }

end Sys2Proof.Machine
end

