-- ==== Sys2Proof/Machine/Flags.lean ====
section
/-! DEFINITION. The mode word, the flags of a group and the enabled arithmetic traps (06 R108, R109, 08 R152, 10 R178,
R179, R193). -/

namespace Sys2Proof.Machine

/-- `fmode.rm`; a reserved code rounds to nearest even. -/
def rmOf (fmode : Word) : RMode := (RMode.ofCode (bf fmode.toNat 0 3)).getD .rn
/-- `fmode.fi`. -/
def fiOf (fmode : Word) : Bool := fmode.getLsbD 3
/-- `fmode.fo`. -/
def foOf (fmode : Word) : Bool := fmode.getLsbD 4
/-- `fmode.te`. -/
def teOf (fmode : Word) : Flags := fmode.extractLsb' 8 8
/-- `fmode.gn`. -/
def gnOf (fmode : Word) : Bool := fmode.getLsbD 16
/-- The mode a rounding field names (04 Table 4.6). -/
def Rnd.mode (fmode : Word) : Rnd → RMode
  | .rd => rmOf fmode
  | .rn => .rn
  | .rz => .rz
  | .ru => .ru
  | .rm => .rm
  | .ra => .ra
/-- `fmode` with rm written; 000, 110 and 111 leave it (06 R108). -/
def setRm (fmode : Word) (code : Nat) : Word :=
  match RMode.ofCode code with
  | some _ => (fmode &&& 0xFFFFFFF8#32) ||| BitVec.ofNat 32 code
  | none => fmode
/-- `csrw` of `fmode`: reserved bits stay 0 (06 Table 6.4). -/
def writeMode (old v : Word) : Word :=
  setRm ((v &&& 0x0001FF18#32) ||| (old &&& 7#32)) (bf v.toNat 0 3)

/-- The trap enables a split's words are subject to: none in the handler split (10 R179). -/
def teNow (f : Fibre) : Flags := if inHandler f then 0#8 else teOf f.fmode

/-- All flags of a group. -/
def orFlags (l : List (Nat × Nat × Flags)) : Flags := l.foldl (fun a p => a ||| p.2.2) 0#8
/-- The lowest flag set. -/
def lowFlag (f : Flags) : Option Nat := [0, 1, 2, 3, 4, 5, 6, 7].find? fun i => f.getLsbD i
/-- The enabled arithmetic cause of a group and the slot of its word (10 R193, Table 10.6): the lowest enabled flag, the
pipe of the lowest slot that set it. -/
def arithTrap (te : Flags) (l : List (Nat × Nat × Flags)) : Option (Nat × Nat) :=
  match lowFlag (te &&& orFlags l) with
  | none => none
  | some b =>
    match l.find? fun p => p.2.2.getLsbD b with
    | none => none
    | some p => some (0x100 + 8 * b + p.2.1, p.1)

/-- `fflags` with flags set. -/
def addFlags (f : Fibre) (x : Flags) : Fibre := { f with fflags := f.fflags ||| x.setWidth 32 }

end Sys2Proof.Machine
end

