-- ==== Sys2Proof/Machine/Operands.lean ====
section
/-! DEFINITION. Operands of words: what a group reads from (04 R65), n rows, pairs, the result queue, latches, streams,
k-registers and masks with the handler bank (10 Table 10.5), and their writes (06 R102 to R106). -/

namespace Sys2Proof.Machine

/-- Why a word does not take its effect: a fault (cause, lanes, address), the same with working copies reset (17 R309),
or an operand or resource that is not ready (02 R36). -/
inductive Stop where
  | fault (cause : Nat) (lanes : LaneSet) (addr : Word64)
  | faultKeep (cause : Nat) (lanes : LaneSet) (addr : Word64)
  | stall

/-- A word's effect, or why it takes none. -/
abbrev R (α : Type) := Except Stop α

/-- What the group reads (04 R65): the fibre as it stood, its streams as they stand. -/
def rF (s : State) : Fibre :=
  match s.grp with
  | some g => { g.f with streams := s.f.streams }
  | none => s.f
/-- The warp the group reads. -/
def rW (s : State) : Warp :=
  match s.grp with
  | some g => g.w
  | none => s.w
/-- The active lanes: the executing split's mask (02 R26). -/
def act (s : State) : LaneSet := s.f.sp.mask
/-- A fault of every active lane without an address. -/
def faultAll {α : Type} (s : State) (cause : Nat) : R α := .error (.fault cause (act s) 0)
/-- A check: a fault of every active lane unless it holds. -/
def need (s : State) (b : Bool) (cause : Nat) : R Unit := if b then .ok () else faultAll s cause
/-- A readiness condition (02 R36). -/
def ready (b : Bool) : R Unit := if b then .ok () else .error .stall

/-! Rows. -/

/-- The fibre's number (02 R17). -/
def fidOf (s : State) : Nat :=
  match s.cur with
  | .vec k => k % 4
  | _ => 0
/-- Slot row of nj (02 R31). -/
def rowOf (s : State) (j : Nat) : Nat := hWinBase (curL s).hdr (fidOf s) + j
/-- A write to the row is in flight (06 R102). -/
def inFlight (w : Warp) (r : Nat) : Bool := w.pend.any fun p => p.rows.any fun x => x.1 == r
/-- Elements without poison, or cause 0x1F1 (10 R182). -/
def clean (s : State) (pois : LaneSet) : R Unit := need s (pois &&& act s == 0) 0x1F1
/-- The row n j as the group reads it. -/
def readN (s : State) (j : Nat) : R Row := do
  let r := rowOf s j
  let w := rW s
  need s (decide (r < w.rows.length)) 0x14B
  ready (!inFlight w r)
  clean s (tget 0 w.pois r)
  return w.rows.getD r zeroRow
/-- Entry qi. -/
def readQ (s : State) (i : Nat) : R Row := do
  let e := (rF s).q.getD i QEnt.zero
  ready (e.empty == 0)
  clean s e.pois
  return e.row
/-- Latch bi; zero where invalid (06 R104). -/
def readB (s : State) (i : Nat) : R Row := do
  let b := (rF s).b.getD i Latch.invalid
  if b.valid then
    ready b.src.isNone
    clean s b.pois
    return b.row
  else return zeroRow

/-- Lanes of a set get values in lane order; the others `d`. -/
def dealRow (m : LaneSet) (l : List Word) (d : Word) : Row :=
  rowGen fun i => if inSet m i then l.getD ((lanesOf m).filter (fun j => decide (j < i))).length d else d
/-- The n lowest lanes of a set. -/
def lowLanes (m : LaneSet) (n : Nat) : LaneSet :=
  setOf fun i => inSet m i && decide (((lanesOf m).filter (fun j => decide (j < i))).length < n)

/-! k-registers and masks. -/

/-- The split names the handler bank (10 R178). -/
def bank (f : Fibre) : Option Handler := if inHandler f then f.hnd else none
/-- k i as the executing split names it. -/
def kGet (f : Fibre) (i : Nat) : Word :=
  match bank f with
  | some h => if 8 ≤ i then h.k.getD (i - 8) 0 else f.k.getD i 0
  | none => f.k.getD i 0
/-- k i set. -/
def kPut (f : Fibre) (i : Nat) (v : Word) : Fibre :=
  match bank f with
  | some h => if 8 ≤ i then { f with hnd := some { h with k := h.k.set (i - 8) v } } else { f with k := f.k.set i v }
  | none => { f with k := f.k.set i v }
/-- Whether k i lies in the handler bank. -/
def kBanked (f : Fibre) (i : Nat) : Bool := (bank f).isSome && decide (8 ≤ i)
/-- k i is poisoned (10 R182). -/
def kBad (f : Fibre) (i : Nat) : Bool :=
  match bank f with
  | some h => if 8 ≤ i then h.kPois.getLsbD (i - 8) else f.kPois.getLsbD i
  | none => f.kPois.getLsbD i
/-- k i marked poisoned or clean. -/
def kMark (f : Fibre) (i : Nat) (b : Bool) : Fibre :=
  let set := fun (n : Nat) (v : BitVec n) (j : Nat) => if b then v ||| (1#n <<< j) else v &&& ~~~(1#n <<< j)
  match bank f with
  | some h =>
    if 8 ≤ i then { f with hnd := some { h with kPois := set 8 h.kPois (i - 8) } }
    else { f with kPois := set 16 f.kPois i }
  | none => { f with kPois := set 16 f.kPois i }
/-- A load still writes k i (07 R126). An entry of a later write's register stands as i + 16: its value is dropped. -/
def kBusy (s : State) (i : Nat) : Bool :=
  (rW s).pend.any fun p => p.fib == fidOf s && p.hb == kBanked s.f i && p.ks.any fun x => x.1 % 16 == i
/-- k i read (07 R126). -/
def readK (s : State) (i : KReg) : R Word := do
  ready (!kBusy s i.val)
  need s (!kBad (rF s) i.val) 0x1F1
  return kGet (rF s) i.val
/-- The pair k i, k i+1. -/
def readKK (s : State) (i : KReg) : R Word64 := do
  let lo ← readK s i
  let hi ← readK s (Fin.ofNat 16 (i.val + 1))
  return pair64 lo hi
/-- k i written: an earlier load's value is dropped when it returns. -/
def writeK (s : State) (i : Nat) (v : Word) : State :=
  let old := fun (p : Pend) =>
    if p.fib == fidOf s && p.hb == kBanked s.f i then
      { p with ks := p.ks.map fun x => if x.1 == i then (i + 16, x.2) else x }
    else p
  { s with w := { s.w with pend := s.w.pend.map old }, f := kMark (kPut s.f i v) i false }
/-- The pair written. -/
def writeKK (s : State) (i : Nat) (v : Word64) : State := writeK (writeK s i (lo32 v)) (i + 1) (hi32 v)
/-- kc as the split names it. -/
def kcGet (f : Fibre) : Bool :=
  match bank f with
  | some h => h.kc
  | none => f.kc
/-- kc written. -/
def writeKc (s : State) (b : Bool) : State :=
  match bank s.f with
  | some h => { s with f := { s.f with hnd := some { h with kc := b } } }
  | none => { s with f := { s.f with kc := b } }
/-- Mask i as the split names it. -/
def mGet (f : Fibre) (i : Nat) : LaneSet :=
  match bank f with
  | some h => if i = 3 then h.m3 else f.m.getD i 0
  | none => f.m.getD i 0
/-- Mask i read; a mask holds no data in flight. -/
def readM (s : State) (i : MReg) : LaneSet := mGet (rF s) i.val
/-- Mask i written in the active lanes (06 R106). -/
def writeM (s : State) (i : Nat) (v : LaneSet) : State :=
  let new := fun (old : LaneSet) => (old &&& ~~~(act s)) ||| (v &&& act s)
  match bank s.f with
  | some h =>
    if i = 3 then { s with f := { s.f with hnd := some { h with m3 := new h.m3 } } }
    else { s with f := { s.f with m := s.f.m.set i (new (s.f.m.getD i 0)) } }
  | none => { s with f := { s.f with m := s.f.m.set i (new (s.f.m.getD i 0)) } }

/-! Writes of rows, queue and latches. -/

/-- The lanes of a row are written: so the groups of fibres that wait learn (09 R169). -/
def Warp.noteWrote (w : Warp) (r : Nat) (m : LaneSet) : Warp :=
  { w with images := w.images.map fun im => { im with wrote := tset 0 im.wrote r (tget 0 im.wrote r ||| m) } }
/-- A slot row written in lanes of `m`: loads in flight no longer write those lanes (06 R102), the poison goes. -/
def putRow (w0 : Warp) (r : Nat) (m : LaneSet) (v : Row) : Warp :=
  let w := w0.noteWrote r m
  { w with
    rows := w.rows.set r (rowMerge m (w.rows.getD r zeroRow) v)
    pois := tset 0 w.pois r (tget 0 w.pois r &&& ~~~m)
    pend := w.pend.map fun p => { p with rows := p.rows.map fun x => if x.1 == r then (r, x.2 &&& ~~~m) else x } }
/-- An entry pushed on the result queue (06 R103). -/
def pushQ (f : Fibre) (e : QEnt) : Fibre := { f with q := (e :: f.q).take 16 }
/-- Latch i set (06 R104). -/
def setB (f : Fibre) (i : Nat) (b : Latch) : Fibre := { f with b := f.b.set i b }
/-- n j is below the row count (10 R185). -/
def haveRow (s : State) (j : Nat) : R Unit := need s (decide (rowOf s j < (rW s).rows.length)) 0x14B
/-- n j written in the active lanes. -/
def writeN (s : State) (j : Nat) (v : Row) : State := { s with w := putRow s.w (rowOf s j) (act s) v }
/-- A result pushed: active lanes' elements, others zero. -/
def pushRes (s : State) (v : Row) : State := { s with f := pushQ s.f ⟨rowMask (act s) v, 0, 0, 0⟩ }
/-- A result left in the latch of its pipe. -/
def latchRes (s : State) (pipe : Nat) (v : Row) : State :=
  { s with f := setB s.f pipe ⟨true, rowMask (act s) v, 0, none⟩ }

end Sys2Proof.Machine
end

