-- ==== Sys2Proof/Machine/Order.lean ====
section
/-! DEFINITION. The memory consistency model (15): the history of accesses in memory order, the edges of R269 to R276, what a
history must satisfy, and what the memory system may do with accesses in flight (log 4). An access takes its effect as it
issues, as the newest of the history; the environment may move it while it is in flight, wherever the rules permit. -/

namespace Sys2Proof.Machine

/-! Units and places (R265, R268). -/

/-- Class and address of a place; a register of path 0x7 is its fibre's; none: no location of memory. -/
def memPlace (s : State) (l : Loc) : Option (MemCls × Nat) :=
  match l with
  | .dev pa => some (.m, pa)
  | .slice cl off => some (.s, cl * 2 ^ 20 + off)
  | .host a => some (.h, a)
  | .peer id off => some (.e id, id * 2 ^ 30 + off)
  | .own off => (ownWindow s off false false).map fun pa => (.m, pa)
  | .reg off => some (.g, fibKey s.cur * 2 ^ 24 + off)
  | .fill _ | .oob _ => none
/-- The class of the path a place was reached on (R270): the own identifier's window is path 0x6. -/
def viaOf (s : State) (l : Loc) (c : MemCls) : MemCls :=
  match l with
  | .own _ => .e s.devid.toNat
  | .dev _ | .slice .. | .host _ | .peer .. | .reg _ | .fill _ | .oob _ => c
/-- The unit of single-copy atomicity (15 Table 15.3). -/
def unitBytes (c : MemCls) (weak : Bool) : Nat :=
  match c with
  | .s => 16
  | .m => if weak then 4 else 16
  | .h | .e _ => if weak then 4 else 8
  | .g | .f | .sync => 8
/-- Bytes of memory by class. -/
def clsByte (s : State) (c : MemCls) (a : Nat) : Byte :=
  match c with
  | .m => rdByte s.mem a
  | .s => rdByte s.slices a
  | .h => rdByte s.hostMem a
  | .e _ => rdByte s.peerMem a
  | .g | .f | .sync => 0
/-- A byte of memory replaced, its error marks as they are. -/
def setClsByte (s : State) (c : MemCls) (a : Nat) (v : Byte) : State :=
  match c with
  | .m => { s with mem := wrByte s.mem a v }
  | .s => { s with slices := wrByte s.slices a v }
  | .h => { s with hostMem := wrByte s.hostMem a v }
  | .e _ => { s with peerMem := wrByte s.peerMem a v }
  | .g | .f | .sync => s
/-- A number of bytes of memory by class, little-endian. -/
def clsBytes (s : State) (c : MemCls) (a : Nat) : Nat → Nat
  | 0 => 0
  | n + 1 => (clsByte s c a).toNat + 256 * clsBytes s c (a + 1) n
/-- Byte `a` lies in a unit of its class. -/
def MUnit.covers (u : MUnit) (c : MemCls) (a : Nat) : Bool := u.cls == c && decide (u.addr ≤ a) && decide (a < u.addr + u.size)
/-- Two units have a location in common (R265). -/
def MUnit.overlaps (a b : MUnit) : Bool :=
  a.cls == b.cls && decide (a.addr < b.addr + b.size) && decide (b.addr < a.addr + a.size)
/-- A byte of what a unit wrote. -/
def MUnit.byteOf (u : MUnit) (v a : Nat) : Byte := BitVec.ofNat 8 (v / 2 ^ (8 * (a - u.addr)))
/-- The unit that wrote a byte and was recorded first: what stood there before it is the initial value. -/
def firstWriter (h : List MUnit) (c : MemCls) (a : Nat) : Option MUnit :=
  (h.filter fun u => u.wr && u.covers c a).foldl (fun b u => match b with
    | none => some u
    | some x => if u.po ≤ x.po then some u else some x) none
/-- A byte as it stood once the units of `past` had taken place, of a history `h` that they begin. -/
def byteAt (s : State) (h past : List MUnit) (c : MemCls) (a : Nat) : Byte :=
  match past.find? fun u => u.wr && u.covers c a with
  | some u => u.byteOf u.val a
  | none =>
    match firstWriter h c a with
    | some u => u.byteOf u.old a
    | none => clsByte s c a
/-- Bytes as they stood, little-endian. -/
def bytesAtPast (s : State) (h past : List MUnit) (c : MemCls) (a : Nat) : Nat → Nat
  | 0 => 0
  | n + 1 => (byteAt s h past c a).toNat + 256 * bytesAtPast s h past c (a + 1) n

/-! Recording. -/

/-- The next place of program order: above that of every unit recorded. -/
def nextPo (h : List MUnit) : Nat := h.foldl (fun n u => Nat.max n (u.po + 1)) 0
/-- An agent's unit with nothing of its own, at the next place of its program order. -/
def unitBy (s : State) (ag wg cl seq : Nat) : MUnit :=
  { ag := ag, wg := wg, cl := cl, seq := seq, po := nextPo s.hist, cls := .sync, via := .sync, addr := 0, size := 8, rd := false, wr := false
    fence := false, val := 0, old := 0, ord := .weak, scope := .sl, lane := 0, off := 0, sx := false }
/-- The current agent's. -/
def unitOfCur (s : State) : MUnit := unitBy s (curKey s) (curWg s) (curCl s) s.f.seq
/-- A unit of the current agent that is no word's access in flight: an engine's or a stream's read, a completion. -/
def unitOfEngine (s : State) : MUnit := { unitOfCur s with seq := 2 ^ 41 }
/-- A copy command's (R264). -/
def unitOfCmd (s : State) (cl fib wg num : Nat) : MUnit := unitBy s (2 ^ 32 + fib * 2 ^ 16 + num) wg cl (2 ^ 40 + num)
/-- A unit recorded as the newest of the history. -/
def noteUnit (s : State) (u : MUnit) : State := { s with hist := u :: s.hist }
/-- The units of one lane's access (R268), `b` at the first of them. -/
def splitUnits (b : MUnit) (before val : Nat) : List MUnit :=
  let n := Nat.min b.size (unitBytes b.cls (b.ord == .weak))
  (List.range ((b.size + n - 1) / Nat.max n 1)).map fun i =>
    { b with addr := b.addr + i * n, size := n, off := i * n
             val := val / 2 ^ (8 * (i * n)) % 2 ^ (8 * n), old := before / 2 ^ (8 * (i * n)) % 2 ^ (8 * n) }
/-- Units of lanes recorded as the newest of the history. -/
def noteLanes (s : State) (b : MUnit) (locs : List (Nat × Loc)) (size : Nat) (before val : Nat → Nat) : State :=
  let us := locs.flatMap fun x => match memPlace s x.2 with
    | some (c, a) => splitUnits { b with cls := c, via := viaOf s x.2 c, addr := a, size := size, lane := x.1 } (before x.1) (val x.1)
    | none => []
  { s with hist := us.reverse ++ s.hist }
/-- A load word's reads; a read on path 0x1 is weak whatever its order field (R282). -/
def noteLoads (s : State) (addrs : List (Nat × Word64)) (locs : List (Nat × Loc)) (size : Nat) (o : MOrd) (c : Scope) (sx : Bool) :
    State :=
  let shared := fun (x : Nat × Loc) => addrs.any fun a => a.1 == x.1 && bf a.2.toNat 50 4 == 1
  let b := { unitOfCur s with rd := true, ord := o, scope := c, sx := sx }
  let t := noteLanes s b (locs.filter fun x => !shared x) size (fun _ => 0) fun _ => 0
  noteLanes t { b with ord := .weak } (locs.filter shared) size (fun _ => 0) fun _ => 0
/-- A store word's writes: of lanes that name one place, the highest (13 R232); `s` before them. -/
def noteStores (s t : State) (locs : List (Nat × Loc)) (size : Nat) (val : Nat → Nat) (o : MOrd) (c : Scope) : State :=
  let old := fun l => match locs.find? fun x => x.1 == l with
    | some x => (readLoc s x.2 size).1
    | none => 0
  let last := locs.filter fun x => !locs.any fun y => y.2 == x.2 && decide (x.1 < y.1)
  noteLanes t { unitOfCur s with wr := true, ord := o, scope := c } last size old val
/-- An atomic word's steps (13 R239), with what each read and left. -/
def noteAtoms (s : State) (steps : List (Nat × Loc × Nat × Nat)) (size : Nat) (o : MOrd) (c : Scope) : State :=
  let b := { unitOfCur s with rd := true, wr := true, ord := if o = .weak then .strong else o, scope := c }
  steps.foldl (fun t x => noteLanes t b [(x.1, x.2.1)] size (fun _ => x.2.2.1) fun _ => x.2.2.2) s
/-- A fence of the current agent (R246). -/
def noteFence (s : State) (o : MOrd) (c : Scope) : State :=
  { s with hist := { unitOfCur s with fence := true, ord := o, scope := c } :: s.hist }
/-- A release through what a key names (15 Table 15.4). -/
def relBy (u : MUnit) (key : Nat) (c : Scope) : MUnit := { u with wr := true, addr := 8 * key, ord := .rel, scope := c }
/-- An acquire through it. -/
def acqBy (u : MUnit) (key : Nat) (c : Scope) : MUnit := { u with rd := true, addr := 8 * key, ord := .acq, scope := c }
/-- The current agent releases through a key. -/
def noteRel (s : State) (key : Nat) (c : Scope) : State := noteUnit s (relBy (unitOfCur s) key c)
/-- The current agent acquires through a key, where something was released through it. -/
def noteAcq (s : State) (key : Nat) (c : Scope) : State :=
  if s.hist.any fun u => u.cls == .sync && u.wr && u.addr == 8 * key then noteUnit s (acqBy (unitOfCur s) key c) else s
/-- An agent releases through a key. -/
def noteRelBy (s : State) (ag wg cl key : Nat) (c : Scope) : State := noteUnit s (relBy (unitBy s ag wg cl (2 ^ 41)) key c)
/-- An agent acquires through a key, where something was released through it. -/
def noteAcqBy (s : State) (ag wg cl key : Nat) (c : Scope) : State :=
  if s.hist.any fun u => u.cls == .sync && u.wr && u.addr == 8 * key then noteUnit s (acqBy (unitBy s ag wg cl (2 ^ 41)) key c) else s
/-- A seal's completion of a granule, on the agent's behalf: a read of it on path 0x1 that nothing of it passes (12 R227, R228). -/
def sealMark (s : State) (g : Nat) : MUnit :=
  { unitOfEngine s with cls := .m, via := .m, addr := 4096 * g, size := 4096, rd := true, ord := .acq, scope := .dv }
/-- The key of an object by its kind (1 GO, 2 a command's completion, 3 a barrier's arrivals, 4 its signals, 5 `fbar`, 6 a
reduction, 7 a device barrier, 8 a tile buffer's slot, 9 a granule unsealed) and its number. -/
def syncKey (kind n : Nat) : Nat := kind + 16 * n
/-- A scope by its code. -/
def scopeOfCode (n : Nat) : Scope :=
  match n with
  | 0 => .sl
  | 1 => .cl
  | 2 => .dv
  | _ => .sy
/-- The key of what the completions of a fibre's commands release at a scope, and `wait ce` acquires (R279). -/
def ceKey (fib : Nat) (c : Nat) : Nat := syncKey 2 (fib * 4 + c)
/-- The key of a GO. -/
def goKey (fib num : Nat) : Nat := syncKey 1 (fib * 2 ^ 16 + num)
/-- A wait for ce is over: what the completed commands released is acquired (R279). -/
def noteCe (s : State) : State := [0, 1, 2, 3].foldl (fun t c => noteAcq t (ceKey (curKey s) c) (scopeOfCode c)) s
/-- The keys of a barrier's arrivals, and of its signals. -/
def barKey (wg i : Nat) : Nat := syncKey 3 (wg * 64 + i)
/-- See `barKey`. -/
def sigKey (wg i : Nat) : Nat := syncKey 4 (wg * 64 + i)
/-- A `bar.wt` is over (15 Table 15.4, 13 R245). -/
def noteBar (s : State) (i : Nat) : State := noteAcq (noteAcq s (barKey (curWg s) i) .cl) (sigKey (curWg s) i) .dv
/-- The key of a tile buffer's slot, of a workgroup; of a pipeline buffer, by its pipeline. -/
def tbKeyOf (s : State) (wg t slot : Nat) : Nat :=
  syncKey 8 (((if t < 16 then wg else (getL s (wg / 2 ^ 64)).pipe.getD 0) * 32 + t) * 1024 + slot)
/-- The same of the current workgroup. -/
def tbKey (s : State) (t slot : Nat) : Nat := tbKeyOf s (curWg s) t slot
/-- The scope at which its slots are handed over. -/
def tbScope (t : Nat) : Scope := if t < 16 then .cl else .dv
/-- The key of a reduction or device barrier of a launch. -/
def rednKey (launch j : Nat) (bar : Bool) : Nat := syncKey (if bar then 7 else 6) (launch * 2 ^ 32 + j)
/-- The fibres that leave an `fbar` together: each releases, then each acquires (15 Table 15.4). -/
def noteFbar (s : State) (keys : List Nat) : State :=
  let one := fun (g : MUnit → Nat → Scope → MUnit) (t : State) (k : Nat) =>
    noteUnit t (g (unitBy t k (curWg s) (k / 256) (if k = curKey s then s.f else getF s k).seq) (syncKey 5 (k / 4)) .sl)
  keys.foldl (one acqBy) (keys.foldl (one relBy) s)

/-- Places byte by byte as units of the weak class: class, address, size (15 Table 15.3). -/
def lineParts (ps : List (MemCls × Nat)) : List (MemCls × Nat × Nat) :=
  ps.foldl (fun acc p => match acc.getLast? with
    | some (c, a, n) =>
      let u := unitBytes c true
      if p.1 = c ∧ p.2 = a + n ∧ p.2 / u = a / u then acc.dropLast ++ [(c, a, n + 1)] else acc ++ [(p.1, p.2, 1)]
    | none => [(p.1, p.2, 1)]) []
/-- Reads put into a history, each with a number of units after it. -/
def insertReads (h : List MUnit) (rs : List (Nat × MUnit)) : List MUnit :=
  (List.range (h.length + 1)).flatMap fun k =>
    (rs.reverse.filter fun x => Nat.min x.1 h.length == k).map (·.2) ++ (h[k]?).toList
/-- Bytes from an address on, as units of the weak class. -/
def rangeParts (c : MemCls) (a n : Nat) : List (MemCls × Nat × Nat) :=
  let u := unitBytes c true
  if n = 0 then []
  else (List.range ((a + n - 1) / u + 1 - a / u)).map fun i =>
    let lo := Nat.max a ((a / u + i) * u)
    (c, lo, Nat.min (a + n) ((a / u + i + 1) * u) - lo)
/-- Reads of an engine, unit by unit (R267, R268): unit i of them reads memory as it stood `ages` i units ago. -/
def noteReadParts (s : State) (u : MUnit) (parts : List (MemCls × Nat × Nat)) (ages : List Nat) : State :=
  let reads := (List.range parts.length).map fun i =>
    let x := parts.getD i (.f, 0, 0)
    (ages.getD i 0, { u with cls := x.1, via := x.1, addr := x.2.1, size := x.2.2, rd := true })
  { s with hist := if ages.isEmpty then (reads.map (·.2)).reverse ++ s.hist else insertReads s.hist reads }
/-- The same of places. -/
def noteReads (s : State) (u : MUnit) (src : List Loc) (ages : List Nat) : State :=
  noteReadParts s u (lineParts (src.filterMap (memPlace s))) ages
/-- Writes of an engine, unit by unit; `s` before them, `t` after. -/
def noteWriteParts (s t : State) (u : MUnit) (parts : List (MemCls × Nat × Nat)) : State :=
  let writes := parts.map fun x =>
    { u with cls := x.1, via := x.1, addr := x.2.1, size := x.2.2, wr := true
             val := clsBytes t x.1 x.2.1 x.2.2, old := clsBytes s x.1 x.2.1 x.2.2 }
  { t with hist := writes.reverse ++ t.hist }
/-- The same of places. -/
def noteWrites (s t : State) (u : MUnit) (dst : List Loc) : State :=
  noteWriteParts s t u (lineParts (dst.filterMap (memPlace s)))
/-- A copy command's line recorded (R279): its reads, each some units ago, and its writes; `s` before it, `t` after. -/
def noteCopy (s t : State) (u : MUnit) (src dst : List Loc) (ages : List Nat) : State :=
  noteWrites s (noteReads t u src ages) u dst
/-- A byte of a place as it stood n units ago. -/
def pastByte (s : State) (n : Nat) (l : Loc) : Nat :=
  if n = 0 then (readLoc s l 1).1
  else match memPlace s l with
    | some (c, a) => (byteAt s s.hist (s.hist.drop n) c a).toNat
    | none => (readLoc s l 1).1
/-- Slices as an engine's reads of `parts` find them: unit i as memory stood `ages` i units ago. -/
def agedSlices (s : State) (parts : List (MemCls × Nat × Nat)) (ages : List Nat) : State :=
  (List.range parts.length).foldl (fun (t : State) i =>
    let x := parts.getD i (.f, 0, 0)
    (List.range x.2.2).foldl (fun (t : State) k =>
      { t with slices := wrByte t.slices (x.2.1 + k) (byteAt s s.hist (s.hist.drop (ages.getD i 0)) .s (x.2.1 + k)) }) t) s
/-- A byte of a place among those of `src`, as it stood when the unit it lies in was read. -/
def agedByte (s : State) (src : List Loc) (ages : List Nat) (l : Loc) : Nat :=
  if ages.isEmpty then pastByte s 0 l
  else match memPlace s l with
  | some (c, a) =>
    let parts := lineParts (src.filterMap (memPlace s))
    let i := (parts.findIdx? fun x => x.1 == c && decide (x.2.1 ≤ a) && decide (a < x.2.1 + x.2.2)).getD 0
    pastByte s (ages.getD i 0) l
  | none => pastByte s 0 l
/-- A place some bytes further on. -/
def shiftLoc (l : Loc) (n : Nat) : Loc :=
  match l with
  | .dev pa => .dev (pa + n)
  | .slice cl off => .slice cl (off + n)
  | .host a => .host (a + n)
  | .peer id off => .peer id (off + n)
  | .own off => .own (off + n)
  | .reg off => .reg (off + n)
  | .fill v => .fill (v >>> (8 * n))
  | .oob v => .oob (v >>> (8 * n))
/-- The places of n bytes. -/
def locBytes (l : Loc) (n : Nat) : List Loc := (List.range n).map (shiftLoc l)
/-- A value of n bytes at a place, each unit as it stood some units ago. -/
def agedVal (s : State) (l : Loc) (n : Nat) (ages : List Nat) : Nat :=
  if ages.isEmpty then (readLoc s l n).1
  else (List.range n).foldl (fun v i => v + agedByte s (locBytes l n) ages (shiftLoc l i) * 2 ^ (8 * i)) 0
/-- Two units of one agent (R264). -/
def sameAgent (x y : MUnit) : Bool := x.ag == y.ag && x.wg == y.wg
/-- Bytes written that the history does not record: what it holds of them goes. -/
def forget (s : State) (c : MemCls) (a n : Nat) : State :=
  let x : MUnit := { unitOfCur s with cls := c, addr := a, size := n }
  { s with hist := s.hist.filter fun u => !u.overlaps x }
/-- The same for a place. -/
def forgetLoc (s : State) (l : Loc) (n : Nat) : State :=
  match memPlace s l with
  | some (c, a) => forget s c a n
  | none => s
/-- Writes that do not take place after all (25 R414): their bytes as the rest of the history leaves them, which is then dropped. -/
def withdrawWrites (s : State) (bad : MUnit → Bool) : State :=
  let us := s.hist.filter fun u => u.wr && bad u
  let rest := s.hist.filter fun u => !(u.wr && bad u)
  let t := us.foldl (fun t u => (List.range u.size).foldl (fun t i =>
    setClsByte t u.cls (u.addr + i) (byteAt s s.hist rest u.cls (u.addr + i))) t) s
  us.foldl (fun t u => forget t u.cls u.addr u.size) t
/-- Launches that have completed: every access of theirs has been performed at system scope (15 Table 15.4). DESIGN CHOICE
(log 4): with its record a completed launch's write to code leaves what R63 lets a fetch return: fetches then see the new
words only. -/
def forgetLaunches (s : State) (ls : List Nat) : State :=
  { s with hist := s.hist.filter fun u => !ls.contains (u.wg / 2 ^ 64) }

/-! Scopes (R266). -/

/-- A scope by its reach. -/
def scopeLevel : Scope → Nat
  | .sl => 0
  | .cl => 1
  | .dv => 2
  | .sy => 3
/-- The agent is a copy command. -/
def isCmdKey (k : Nat) : Bool := decide (2 ^ 32 ≤ k)
/-- The warp slot of a fibre, or of the fibre whose command it is. -/
def slotOfKey (k : Nat) : Nat := if isCmdKey k then (k - 2 ^ 32) / 2 ^ 16 / 4 else k / 4
/-- Agents with a cluster: fibres, frond streams, copy commands. -/
def onCluster (u : MUnit) : Bool := isCmdKey u.ag || (agentOf u.ag matches .vec _ | .frond _)
/-- A scope of x's agent includes y's (15 Table 15.2); for the flags of a command, its fibre's slot with the command (R279). -/
def includes (x : MUnit) (level : Nat) (y : MUnit) : Bool :=
  let fibre := fun (u : MUnit) => decide (u.ag < 49152)
  sameAgent x y || decide (2 ≤ level) || (level == 1 && onCluster x && onCluster y && x.cl == y.cl) ||
  (level == 0 && slotOfKey x.ag == slotOfKey y.ag &&
    ((fibre x && fibre y) || (x.cls == .sync && (fibre x || isCmdKey x.ag) && (fibre y || isCmdKey y.ag))))

/-! Edges (R269, R270, R276). -/

/-- Classes M and S of R270, and what synchronises. -/
def inner (c : MemCls) : Bool :=
  match c with
  | .m | .s | .sync => true
  | .h | .e _ | .g | .f => false
/-- Case n of R269 at a scope's level is admitted for a pair of classes (15 Table 15.5); `strong`: the fence is `fence.strong`. -/
def admits (a b : MemCls) (n level : Nat) (strong : Bool) : Bool :=
  if inner a && inner b then true
  else match a, b with
    | .f, _ | _, .f => false
    | .g, .g => true
    | .g, .m | .g, .s | .g, .sync | .m, .g | .s, .g | .sync, .g => n != 4
    | .h, .h => level == 3
    | .h, .e _ | .e _, .h => false
    | .e p, .e q => if p = q then level == 3 else n == 3 && level == 3 && strong
    | _, _ => n != 4 && level == 3
/-- A fence's kind admits a pair (R246). -/
def fenceAdmits (o : MOrd) (a b : MUnit) : Bool :=
  match o with
  | .strong => true
  | .acq => a.rd
  | .rel => b.wr
  | .weak => false
/-- The widest scope at which a is ordered before b (R269), plus 1; 0: it is not. A copy command's reads and writes are
unordered among themselves (R264). -/
def ordLevel (h : List MUnit) (a b : MUnit) : Nat :=
  if !sameAgent a b || a.fence || b.fence || decide (b.po ≤ a.po) || (isCmdKey a.ag && a.cls != .sync && b.cls != .sync) then 0
  else
    let at1 := fun (ok : Bool) (n : Nat) (c : Scope) (strong : Bool) =>
      if ok && admits a.via b.via n (scopeLevel c) strong then scopeLevel c + 1 else 0
    let acq := at1 (a.ord == .acq) 1 a.scope false
    let rel := at1 (b.ord == .rel) 2 b.scope false
    let same := if (a.overlaps b || (a.via == .g && b.via == .g)) && admits a.via b.via 4 3 false then 4 else 0
    let fences := h.filter fun f => f.fence && sameAgent f a && decide (a.po < f.po) && decide (f.po < b.po) && fenceAdmits f.ord a b
    fences.foldl (fun n f => Nat.max n (at1 true 3 f.scope (f.ord == .strong))) (Nat.max acq (Nat.max rel same))
/-- Unit i of a history in memory order, oldest first. -/
def nth (l : List MUnit) (i : Nat) : MUnit := l.getD i ⟨0, 0, 0, 0, 0, .g, .g, 0, 0, false, false, false, 0, 0, .weak, .sl, 0, 0, false⟩
/-- Unit j reads a byte that unit i wrote; an acquire of 15 Table 15.4 reads what every release through its object left. -/
def readsFrom (l : List MUnit) (i j : Nat) : Bool :=
  let a := nth l i
  let b := nth l j
  a.wr && b.rd && a.overlaps b && (if a.cls = .sync then decide (i < j) else (List.range b.size).any fun k =>
    a.covers b.cls (b.addr + k) &&
    !(List.range j).any fun n => decide (i < n) && (nth l n).wr && (nth l n).covers b.cls (b.addr + k))
/-- Unit j follows i by the modification order, from-read, or a read of another agent's write. -/
def follows (l : List MUnit) (i j : Nat) : Bool :=
  let a := nth l i
  let b := nth l j
  decide (i < j) && a.overlaps b && (b.wr && (a.wr || a.rd) || (!sameAgent a b && readsFrom l i j))
/-- Units reached from those of `seen`, n times over, along edges between units that `ok` admits. -/
def reachAll (l : List MUnit) (ok : Nat → Bool) (edge : Nat → Nat → Bool) : Nat → List Nat → List Nat
  | 0, seen => seen
  | n + 1, seen =>
    let new := (List.range l.length).filter fun j => ok j && !seen.contains j && seen.any fun i => edge i j
    if new.isEmpty then seen else reachAll l ok edge n (seen ++ new)
/-- An ord edge from unit i to j closes a cycle that R276 forbids: every ord edge of it reaches as far as this one. -/
def closes (l : List MUnit) (i j : Nat) : Bool :=
  let lv := ordLevel l (nth l i) (nth l j)
  lv != 0 &&
    (reachAll l (fun k => includes (nth l i) (lv - 1) (nth l k))
      (fun a b => follows l a b || decide (lv ≤ ordLevel l (nth l a) (nth l b))) l.length [j]).contains i
/-- R274: overlapping accesses of one agent on coherent paths, in program order, do not stand against the order of the location;
a copy command's have no order (R264). -/
def coherent (l : List MUnit) (i j : Nat) : Bool :=
  let a := nth l i
  let b := nth l j
  !(sameAgent a b && !isCmdKey a.ag && !a.fence && !b.fence && decide (a.po < b.po) && decide (j < i) && a.overlaps b &&
    admits a.via b.via 4 3 false) ||
  !(a.wr || b.wr || (List.range i).any fun n => decide (j < n) && (nth l n).wr && (nth l n).overlaps a && (nth l n).overlaps b)
/-- Two requests of one agent to one line of a peer keep their order (25 R415). -/
def peerOrder (l : List MUnit) (i j : Nat) : Bool :=
  let a := nth l i
  let b := nth l j
  let peer := fun (c : MemCls) => match c with
    | .e _ => true
    | .m | .s | .h | .g | .f | .sync => false
  !(sameAgent a b && !isCmdKey a.ag && peer a.via && a.via == b.via && a.addr / 128 == b.addr / 128 && decide (a.po < b.po) && decide (j < i))
/-- The requester a unit is at its own slice, if it is one (14 R258): a vector core, a frond stream. -/
def ownSlice (u : MUnit) : Option Nat :=
  if u.cls = .s ∧ u.addr / 2 ^ 20 = u.cl ∧ u.ag < 49920 then some (if u.ag < 49152 then u.ag / 64 else u.ag) else none
/-- The lane group of a unit of a slice (14 R256). -/
def groupOf (u : MUnit) : Nat := if u.size ≤ 4 then 0 else if u.size = 8 then u.lane / 16 else u.lane / 8
/-- A requester's passes are granted in the order of its words and groups, and between two groups of a word no other requester
has two granted (14 R258). -/
def grantsKept (l : List MUnit) (i j : Nat) : Bool :=
  let a := nth l i
  let b := nth l j
  match ownSlice a with
  | none => true
  | some r =>
    let same := ownSlice b == some r && a.cl == b.cl
    let word := same && a.ag == b.ag && a.seq == b.seq && a.po == b.po
    let inOrder := !(same && decide (j < i) && (decide (a.po < b.po) || (word && decide (groupOf a < groupOf b))))
    let other := fun (n : Nat) => let u := nth l n; u.cl == a.cl && (match ownSlice u with
      | some q => q != r
      | none => false)
    let twice := word && decide (groupOf b = groupOf a + 1) && (List.range j).any fun m => decide (i < m) && other m &&
      (List.range m).any fun n => decide (i < n) && other n && ownSlice (nth l n) == ownSlice (nth l m) &&
        !((nth l n).ag == (nth l m).ag && (nth l n).seq == (nth l m).seq && groupOf (nth l n) == groupOf (nth l m))
    inOrder && !twice
/-- The steps of an atomic word on one address stay together (13 R239). -/
def atomWhole (l : List MUnit) (i j : Nat) : Bool :=
  let a := nth l i
  let b := nth l j
  let step := fun (u : MUnit) => u.rd && u.wr && u.cls != .sync
  let word := fun (u : MUnit) => sameAgent a u && a.seq == u.seq && a.po == u.po
  !(step a && step b && word b && a.overlaps b &&
    (List.range j).any fun n => decide (i < n) && (nth l n).overlaps a && !word (nth l n))
/-- A history that R274 and R276, R239, R258 and R415 permit. -/
def permitted (h : List MUnit) : Bool :=
  let l := h.reverse
  (List.range l.length).all fun i => (List.range l.length).all fun j =>
    coherent l i j && !closes l i j && peerOrder l i j && grantsKept l i j && atomWhole l i j
/-- Two accesses conflict (R277). -/
def conflict (a b : MUnit) : Bool := !sameAgent a b && a.overlaps b && (a.wr || b.wr)
/-- Unit j is ordered after i at an inclusive scope (R273): along ord edges and reads of one agent that return writes of
another. -/
def orderedAfter (l : List MUnit) (i j : Nat) : Bool :=
  [1, 2, 3, 4].any fun lv =>
    (reachAll l (fun k => includes (nth l i) (lv - 1) (nth l k))
      (fun a b => (!sameAgent (nth l a) (nth l b) && readsFrom l a b) || decide (lv ≤ ordLevel l (nth l a) (nth l b))) l.length [i]).contains j
/-- Strong-class accesses of one footprint whose scopes include each other's agent (R277). -/
def bothStrong (a b : MUnit) : Bool :=
  a.ord != .weak && b.ord != .weak && a.addr == b.addr && a.size == b.size && includes a (scopeLevel a.scope) b && includes b (scopeLevel b.scope) a
/-- A data race of the history (R277). -/
def races (h : List MUnit) : Bool :=
  let l := h.reverse
  (List.range l.length).any fun i => (List.range l.length).any fun j =>
    decide (i < j) && conflict (nth l i) (nth l j) && !bothStrong (nth l i) (nth l j) && !orderedAfter l i j && !orderedAfter l j i

/-! What the memory system may do. -/

/-- A state without a current agent, with the one it had. -/
def backTo (s : State) (a : Agent) : State :=
  match a with
  | .none => s
  | .vec _ | .frond _ | .prol _ => checkOut s a
/-- The access of a unit is in flight, or its copy command is; nobody's records are taken out. -/
def unitInFlight (s : State) (u : MUnit) : Bool :=
  if isCmdKey u.ag then (getCl s u.cl).cmds.any fun c => u.ag == 2 ^ 32 + c.fib * 2 ^ 16 + c.num
  else (getW s (u.ag / 4)).pend.any fun p =>
    (decide (49152 ≤ u.ag) || p.fib == u.ag % 4) && p.seq == u.seq && (match p.kind with
      | .load | .store | .strm .. => true
      | _ => false)
/-- The first register of a load's value, extended as its word says. -/
def extendRead (u : MUnit) (v : Nat) : Word :=
  if u.sx && u.size = 1 then (BitVec.ofNat 8 v).signExtend 32
  else if u.sx && u.size = 2 then (BitVec.ofNat 16 v).signExtend 32
  else BitVec.ofNat 32 v
/-- Register i of a lane's value, where a unit of it now reads v. -/
def patchWord (u : MUnit) (v i : Nat) (w : Word) : Word :=
  if u.size < 4 then (if i = 0 then extendRead u v else w)
  else if u.off / 4 ≤ i ∧ i < (u.off + u.size) / 4 then BitVec.ofNat 32 (v / 2 ^ (32 * (i - u.off / 4))) else w
/-- A load in flight of which a unit receives another value. -/
def patchPend (p : Pend) (u : MUnit) (v : Nat) : Pend :=
  { p with
    data := (List.range p.data.length).map fun i =>
      let r := p.data.getD i zeroRow
      r.set u.lane (patchWord u v i (r.getD u.lane 0))
    ks := (List.range p.ks.length).map fun i => let x := p.ks.getD i (0, 0); (x.1, patchWord u v i x.2) }
/-- What the unit at place i of a history reads. -/
def readsAt (s : State) (h : List MUnit) (i : Nat) : Nat :=
  match h[i]? with
  | some u => bytesAtPast s h (h.drop (i + 1)) u.cls u.addr u.size
  | none => 0
/-- The unit at place i of the history receives what it reads now. -/
def patchLoad (s : State) (i : Nat) : State :=
  match s.hist[i]? with
  | none => s
  | some u =>
    let k := u.ag / 4
    let w := getW s k
    let one := fun (p : Pend) =>
      if (decide (49152 ≤ u.ag) || p.fib == u.ag % 4) && p.seq == u.seq then patchPend p u (readsAt s s.hist i) else p
    setW s k { w with pend := w.pend.map one, images := w.images.map fun im => { im with pend := im.pend.map one } }
/-- The bytes of a unit's locations as the history leaves them. -/
def settle (s : State) (u : MUnit) : State :=
  (List.range u.size).foldl (fun t i => setClsByte t u.cls (u.addr + i) (byteAt s s.hist s.hist u.cls (u.addr + i))) s
/-- Memory holds what the history says of a unit's locations. -/
def settled (s : State) (u : MUnit) : Bool :=
  (List.range u.size).all fun i => clsByte s u.cls (u.addr + i) == byteAt s s.hist s.hist u.cls (u.addr + i)
/-- An access that may be moved: in flight, no atomic, no register, no operation of 15 Table 15.4, no read of an engine. -/
def movable (s : State) (u : MUnit) : Bool :=
  unitInFlight s u && !u.fence && u.rd != u.wr && u.cls != .sync && u.cls != .f && u.cls != .g && !(u.rd && isCmdKey u.ag) && settled s u
/-- The completion of a seal, a read of the granule (12 R227). -/
def isSeal (u : MUnit) : Bool := u.rd && u.size == 4096
/-- Reads of one load word of the bytes of a unit move with it (13 R232). -/
def movesWith (u x : MUnit) : Bool := x == u || (u.rd && x.rd && !x.wr && sameAgent x u && x.seq == u.seq && x.po == u.po && x.overlaps u)
/-- Reads of a unit's bytes, by place in a history. -/
def readsOf (h : List MUnit) (u : MUnit) : List Nat :=
  (List.range h.length).filter fun i => match h[i]? with
    | some x => x.rd && x.overlaps u
    | none => false
/-- Reads of a written unit's bytes return in one history what they return in another (R274, R275, R278). -/
def readsKept (s : State) (h h' : List MUnit) (u : MUnit) : Bool :=
  ((readsOf h u).zip (readsOf h' u)).all fun p => readsAt s h p.1 == readsAt s h' p.2
/-- Unit i of the history, newest first, moved to place j among the others, where R274 to R276 permit it, no other access reads
another value, and it does not pass the completion of a seal of its bytes (12 R227, R228). -/
def moveUnit (s0 : State) (i j : Nat) : State :=
  let s := checkIn s0
  match s.hist[i]? with
  | none => s0
  | some u =>
    let rest := s.hist.filter fun x => !movesWith u x
    let h := rest.take j ++ s.hist.filter (movesWith u) ++ rest.drop j
    let n := ((s.hist.take i).filter fun x => !movesWith u x).length
    let between := (rest.drop (Nat.min n j)).take (Nat.max n j - Nat.min n j)
    if !movable s u || between.any (fun x => isSeal x && x.overlaps u) || (u.wr && !readsKept s s.hist h u) || !permitted h then s0
    else
      let t := { s with hist := h }
      backTo (if u.rd then (List.range h.length).foldl (fun t k => if (h[k]?.map (movesWith u)).getD false then patchLoad t k else t) t
        else settle t u) s0.cur
/-- A weak write in flight performed again (R267). -/
def repeatUnit (s0 : State) (i : Nat) : State :=
  let s := checkIn s0
  match s.hist[i]? with
  | none => s0
  | some u =>
    let h := u :: s.hist
    let sealed := (s.hist.take i).any fun x => isSeal x && x.overlaps u
    if !movable s u || !u.wr || u.ord != .weak || sealed || !permitted h then s0 else backTo (settle { s with hist := h } u) s0.cur

/-! Fetch (04 R63). -/

/-- A `cinv` of the current agent over lines of device memory. -/
def noteInv (s : State) (lines : List Nat) : State :=
  { s with hist := lines.map (fun a => { unitOfCur s with cls := .f, addr := 128 * a, size := 128 }) ++ s.hist }
/-- Units of the history before which a word at a place is not fetched by an agent: those up to its last `cinv` there. DESIGN
CHOICE (log 4): a `cinv` of an earlier occupant of the fibre's slot counts as the fibre's own, so that fetches then see the
new words, where R63 leaves old or new open. -/
def fetchAge (h : List MUnit) (key pa : Nat) : Nat :=
  (h.findIdx? fun u => u.cls == .f && u.ag == key && decide (u.addr ≤ pa) && decide (pa < u.addr + u.size)).getD h.length
/-- A word of code at a place: where an agent's fetches may not have seen a write to it, as it stood n units ago or since the
agent's `cinv` (R63). -/
def fetchedWord (s : State) (key pa n : Nat) : Word :=
  let age := fetchAge s.hist key pa
  let word : MUnit := { unitOfCur s with cls := .m, addr := pa, size := 4 }
  if (s.hist.take age).any fun u => u.wr && u.overlaps word then
    BitVec.ofNat 32 (bytesAtPast s s.hist (s.hist.drop (Nat.min n age)) .m pa 4)
  else BitVec.ofNat 32 (rdBytes s.mem pa 4)

end Sys2Proof.Machine
end

