-- ==== Sys2Proof/Machine/Access.lean ====
section
/-! DEFINITION. Accesses in flight: wait counters (13 Table 13.1), passes of the slices (14 R256 to R261), requests at the
cluster port (21 R354), outstanding counters (20 R347). The effect on memory is made when the word issues (log 4). -/

namespace Sys2Proof.Machine

/-- Units of the requests for accesses of `size` bytes at device addresses (21 R354): one request for each line. -/
def lineUnits (pas : List Nat) (size : Nat) : List Nat :=
  let starts := distinct pas
  let lines := distinct (starts.flatMap fun a => [a / 128, (a + size - 1) / 128])
  lines.map fun l =>
    let bytes := starts.foldl (fun n a => n + (Nat.min (a + size) (128 * l + 128) - Nat.max a (128 * l))) 0
    Nat.max 1 ((bytes + 63) / 64)

/-- Passes of one lane group of word addresses (14 R257): the most distinct words of a bank. -/
def bankPasses (ws : List Nat) : Nat :=
  let d := distinct ws
  (List.range 32).foldl (fun n b => Nat.max n (d.countP fun w => w % 32 == b)) 0
/-- Lanes of a group by size (14 R256). -/
def groupLanes (size : Nat) : Nat := if size ≤ 4 then 32 else if size = 8 then 16 else 8
/-- Passes of a word over its lanes and slice offsets (14 R256, R257). -/
def wordPasses (l : List (Nat × Nat)) (size : Nat) : Nat :=
  (List.range 4).foldl (fun n g =>
    n + bankPasses ((l.filter fun p => p.1 / groupLanes size == g).flatMap fun p =>
      (List.range ((size + 3) / 4)).map fun i => p.2 / 4 + i)) 0

/-- The requester a unit is at its own slice (14 R258). -/
def requester (a : Agent) (load : Bool) : Nat :=
  match a with
  | .vec k => coreOf k % 4
  | .frond _ => if load then 5 else 6
  | _ => 7

/-- The list in rising order, each element once. -/
def risingOf (l : List Nat) : List Nat := l.foldl (fun a x => a.filter (· < x) ++ [x] ++ a.filter (x < ·)) []
/-- `n` passes queued at a slice. -/
def queuePasses (s : State) (cl req key seq n : Nat) (count : Bool) : State :=
  post (modCl s cl fun c =>
      { c with passes := c.passes ++ (List.range n).map fun i => ⟨req, key, seq, count && decide (0 < i)⟩ })
    (List.replicate n (.pass cl))
/-- Passes at other clusters' slices (14 R261): one request for each line of a slice, by rising cluster, then offset. -/
def remotePasses (s : State) (key seq : Nat) (l : List (Nat × Nat × Nat)) (size : Nat) : State :=
  (risingOf (l.map fun p => p.2.1 * 8192 + p.2.2 / 128)).foldl (fun t x =>
    let mine := (l.filter fun p => p.2.1 * 8192 + p.2.2 / 128 == x).map fun p => (p.1, p.2.2)
    queuePasses t (x / 8192) 7 key seq (wordPasses mine size) false) s
/-- Requests queued at a cluster's port. -/
def queueUnits (s : State) (cl key seq : Nat) (us : List Nat) : State :=
  if us.isEmpty then s
  else post (modCl s cl fun c => { c with portq := c.portq ++ us.map fun u => (u, key, seq) })
    (us.map fun _ => .port cl)
/-- Something the access waits for stands in a queue. -/
def waitsFor (s : State) (key seq : Nat) : Bool :=
  s.clusters.any fun (_, c) =>
    c.passes.any (fun p => p.fib == key && p.seq == seq) || c.portq.any fun p => p.2.1 == key && p.2.2 == seq

/-- A failure held for the current fibre's next group boundary. -/
def holdFail (s : State) (h : HeldFail) : State := { s with f := { s.f with fails := s.f.fails ++ [h] } }

/-- The raw bits of the word being executed. -/
def curWord (s : State) : Word :=
  match s.grp with
  | some g => g.words.getD (g.slot - g.base.slot) 0
  | none => 0

/-- The slot of the word being executed. -/
def curSlot (s : State) : Nat :=
  match s.grp with
  | some g => g.slot
  | none => s.f.sp.pos.slot

/-- Where the group being executed begins. -/
def curBase (s : State) : Pos :=
  match s.grp with
  | some g => g.base
  | none => s.f.sp.pos

/-! Debug events of a group (10 R191). -/

/-- The current launch is one a debug register checks. -/
def debugPart (s : State) (p : Nat) : Bool := (curL s).part == p
/-- A debug event after the group at `p`, held for the next group boundary: one for a group. -/
def debugHold (s : State) (cause : Nat) (word : Word) (addr : Word64) (lanes : LaneSet) (slot : Nat) : State :=
  if s.f.fails.any fun h => h.cause == 0x1E1 || h.cause == 0x1E3 || h.cause == 0x1E4 then s
  else holdFail s ⟨cause, word, addr, lanes, true, false, none, slot⟩
/-- A byte of [va, va + size) lies in the watched region. -/
def watchHits (s : State) (va : Word64) (size : Nat) (wr : Bool) : Bool :=
  let r := (getCl s (curCl s)).wpt.toNat
  let lo := bf r 0 54 -- DESIGN CHOICE (log 70): as written, a multiple of 2^lg or not
  let a := bf va.toNat 0 54
  !inHandler s.f && bf r (if wr then 55 else 54) 1 == 1 && debugPart s (bf r 60 4) &&
  decide (a < lo + 2 ^ bf r 56 4) && decide (lo < a + size)
/-- Data watchpoint of a word's lanes, for `rd` and `wr`: held for the next group boundary. -/
def watch (s : State) (l : List (Nat × Word64)) (size : Nat) (rd wr : Bool) : State :=
  let hit := l.filter fun x => (rd && watchHits s x.2 size false) || (wr && watchHits s x.2 size true)
  match s.cur, hit with
  | .prol _, _ | .none, _ | _, [] => s
  | _, (_, va) :: _ => debugHold s 0x1E4 (curWord s) va (setOf fun i => hit.any fun x => x.1 == i) (curSlot s)

/-- Units of slices that the word's lanes write whole, if only together (14 R257): they replace uncorrectable words. -/
def wholeUnits (locs : List (Nat × Loc)) (size : Nat) : List (Nat × Nat) :=
  let bytes := locs.filterMap fun x => match x.2 with
    | .slice c o => some (c, o)
    | _ => none
  let units := distinct (bytes.flatMap fun x => (List.range ((size + 3) / 4)).map fun i => x.1 * 2 ^ 18 + x.2 / 4 + i)
  (units.filter fun u => [0, 1, 2, 3].all fun b =>
    bytes.any fun x => x.1 == u / 2 ^ 18 && decide (x.2 ≤ u % 2 ^ 18 * 4 + b) && decide (u % 2 ^ 18 * 4 + b < x.2 + size)).map
    fun u => (u / 2 ^ 18, u % 2 ^ 18)
/-- Uncorrectable units replaced whole. -/
def clearUnits (s : State) (us : List (Nat × Nat)) : State :=
  us.foldl (fun t u =>
    if (getCl t u.1).bad.contains u.2 then modCl t u.1 fun c => { c with bad := c.bad.filter fun x => x != u.2 } else t) s
/-- The writes of one word, lowest lane first (13 R232): the state after, the lanes refused. -/
def storeAll (s : State) (locs : List (Nat × Loc)) (size : Nat) (val : Nat → Nat) : State × List (Nat × Loc) :=
  locs.foldl (fun r x =>
    let w := writeLoc r.1 x.2 (val x.1) size
    (w.1, if w.2 then r.2 else r.2 ++ [x])) (clearUnits s (wholeUnits locs size), [])
/-- The address of the first uncorrectable 4-byte word of an access at a slice offset and an address. -/
def badWordAt (bad : List Nat) (off : Nat) (va : Word64) : Word64 :=
  (va &&& ~~~3#64) + BitVec.ofNat 64 (4 * (((List.range 4).find? fun i => bad.contains (off / 4 + i)).getD 0))
/-- Refused writes of a word (14 R263, 25 R414), held for the next group boundary. -/
def holdRefused (s : State) (bad : List (Nat × Loc)) (addrs : List (Nat × Word64)) : State :=
  let own := fun (x : Nat × Loc) => match x.2 with
    | .own _ => true
    | _ => false
  let one := fun (t : State) (cause : Nat) (l : List (Nat × Loc)) =>
    match l with
    | [] => t
    | x :: _ =>
      let va := ((addrs.find? fun a => a.1 == x.1).map (·.2)).getD 0
      let at1 := match x.2 with
        | .slice c o => badWordAt (getCl t c).bad o va
        | _ => va
      holdFail t ⟨cause, curWord s, at1, setOf fun i => l.any fun y => y.1 == i, true, inHandler s.f, none, curSlot s⟩
  one (one s 0x1F2 (bad.filter fun x => !own x)) 0x1C2 (bad.filter own)

/-- Lanes whose request would use a link declared down (25 R411): it fails after issue (R414). -/
def lostLanes (s : State) (locs : List (Nat × Loc)) : List (Nat × Loc) := locs.filter fun x => routeDown s x.2
/-- Cause 0x1F6 held for them. -/
def holdLost (s : State) (lost : List (Nat × Loc)) (addrs : List (Nat × Word64)) : State :=
  match lost with
  | [] => s
  | x :: _ =>
    let va := ((addrs.find? fun a => a.1 == x.1).map (·.2)).getD 0
    holdFail s ⟨0x1F6, curWord s, va, setOf fun i => lost.any fun y => y.1 == i, true, inHandler s.f, none, curSlot s⟩
/-- Cause 0x1C7 held by a fibre whose multicast has lost a branch, once the other branches have delivered (25 R407): for the word of
an access. -/
def holdCast (s : State) (p : Pend) : State :=
  if castDown s then holdFail s ⟨0x1C7, p.word, 0, p.lanes, true, p.hs, none, p.slot⟩ else s
/-- The lanes that reach their places. -/
def keptLanes (s : State) (locs : List (Nat × Loc)) : List (Nat × Loc) := locs.filter fun x => !routeDown s x.2

/-- The rows of an access land in a slot, but for lanes written since (06 R102). -/
def landRows (w : Warp) (p : Pend) : Warp :=
  (p.rows.zip p.data).foldl (fun (w0 : Warp) x =>
    let w := w0.noteWrote x.1.1 x.1.2
    { w with
      rows := w.rows.set x.1.1 (rowMerge x.1.2 (w.rows.getD x.1.1 zeroRow) x.2)
      pois := tset 0 w.pois x.1.1 ((tget 0 w.pois x.1.1 &&& ~~~x.1.2) ||| (p.pois &&& x.1.2)) }) w
/-- Its queue entry, latch and k-registers land in its fibre; those of a handler bank that has been discarded go nowhere (10
R181). -/
def landRegs (f : Fibre) (p : Pend) : Fibre :=
  let row := p.data.headD zeroRow
  let q := f.q.map fun e =>
    if e.id = p.seq + 1 then ⟨rowMask p.lanes row, 0, p.pois &&& p.lanes, e.id⟩ else e
  let b := f.b.map fun b =>
    if b.src = some (p.seq + 1) then ⟨b.valid, rowMask p.lanes row, p.pois &&& p.lanes, none⟩ else b
  let ks := p.ks.filter fun x => x.1 < 16
  ks.foldl (fun (f : Fibre) x =>
    if p.hb then
      match f.hnd with
      | some h => { f with hnd := some { h with
        k := h.k.set (x.1 - 8) x.2
        kPois := if p.pois = 0 then h.kPois &&& ~~~(1#8 <<< (x.1 - 8)) else h.kPois ||| (1#8 <<< (x.1 - 8)) } }
      | none => f
    else { f with k := f.k.set x.1 x.2, kPois := if p.pois = 0 then f.kPois &&& ~~~(1#16 <<< x.1) else f.kPois ||| (1#16 <<< x.1) })
    { f with q := q, b := b }
/-- The data of an access of the current agent land (06 R102 to R104, 10 R182): rows but for lanes written since, the
queue entry, the latch, k-registers; the access is no longer in flight. -/
def land (s : State) (p : Pend) : State :=
  let w := landRows s.w p
  let f := landRegs s.f p
  { s with f := f, w := { w with pend := w.pend.filter fun x => !(x.fib == p.fib && x.seq == p.seq) } }

/-- A result that comes later: the entry and the latch wait for it under number `seq` + 1. -/
def pushLater (s : State) (p : Pend) (pipe : Nat) (push : Bool) : State :=
  let f := if push then pushQ s.f ⟨zeroRow, p.lanes, 0, p.seq + 1⟩ else s.f
  { s with f := setB f pipe ⟨true, zeroRow, 0, some (p.seq + 1)⟩ }
/-- Rows that a later result writes, out of which loads in flight no longer write (06 R102). -/
def claimRows (s : State) (m : LaneSet) (rs : List Nat) : State :=
  let one := fun (p : Pend) => { p with rows := p.rows.map fun x => if rs.contains x.1 then (x.1, x.2 &&& ~~~m) else x }
  let w := rs.foldl (fun (w : Warp) r => w.noteWrote r m) s.w
  { s with w := { w with pend := w.pend.map one } }

/-- The event that completes an access. -/
def doneEv (a : Agent) : PKind → Ev
  | .load => .loadReturn a
  | .seal _ => .sealDone a
  | .unseal _ => .unsealDone a
  | .cacheOp _ => .cacheDone a
  | .publish .. => .published a
  | .go _ => .goAccept (clusterOf (fibKey a))
  | .enq .. => .enqDone a
  | _ => .storeDone a

/-- The wait counter an access raises (13 Table 13.1; on a frond stream ks for stores, none for loads: 11 R214). -/
def counterOf (a : Agent) (k : PKind) : Option Nat :=
  match a, k with
  | .vec _, .result => none
  | .vec _, .load => some 0
  | .vec _, .publish .. => some 3
  | .vec _, .go _ => some 2
  | .vec _, _ => some 1
  | .frond _, .load => none
  | .frond _, .go _ => none
  | .frond _, _ => some 3
  | _, _ => none

/-- The unit's outstanding counter of the launch has room (20 R345). -/
def unitHasRoom (s : State) : Bool := decide (tget 0 s.outst (outKey (unitOf s.cur) s.w.launch) ≤ 65535)
/-- A request that an acknowledgement answers finds room in it. -/
def outReady (s : State) (wr : Bool) : R Unit := ready (!wr || unitHasRoom s)
/-- A fence of the current fibre holds its later accesses (13 R246): every one, or stores and atomics. -/
def fenceHolds (s : State) (writes : Bool) : Bool :=
  (rW s).pend.any fun p => p.fib == fidOf s && (p.bar == 2 || (writes && p.bar == 1))
/-- The access takes effect at an event of its own, after its word issued (13 R244, R247, R251; 16 R287, 11 R194, 17 R309, 22 R372). -/
def isLater (k : PKind) : Bool :=
  match k with
  | .arrive .. | .rsig .. | .unseal _ | .go _ | .fstart .. | .enq .. => true
  | .publish flip .. => flip
  | .load | .store | .seal _ | .cacheOp _ | .strm .. | .result => false
/-- Such accesses of a fibre that are not performed yet. -/
def arrivalsOf (w : Warp) (fib : Nat) : Bool := w.pend.any fun p => p.fib == fib && isLater p.kind
/-- Commits and releases of tile-buffer slots that a fibre has asked for and that wait (23 R385). -/
def tbWaits (s : State) (key : Nat) : Bool := (getCl s (clusterOf key)).tbq.any fun o => o.fib == key
/-- A release waits for the fibre's accesses that take effect later (13 R231, R249, 15 R267, R272): every other access of the
model is performed as it issues (log 4). -/
def releaseReady (s : State) (rel : Bool) : R Unit :=
  ready (!(rel && (arrivalsOf (rW s) (fidOf s) || tbWaits s (curKey s))))
/-- The counter has room (10 R173) and no fence holds the access. -/
def roomFor (s : State) (k : PKind) : R Unit := do
  ready (!fenceHolds s (k != .load))
  match counterOf s.cur k with
  | some c => ready (decide (cntOf s.f c < 255))
  | none => .ok ()

/-- Another access in flight of the same word as p (13 R229). -/
def jointLeft (w : Warp) (p : Pend) : Bool :=
  p.joint.isSome && w.pend.any fun x => x.fib == p.fib && x.joint == p.joint && x.seq != p.seq
/-- An access in flight with nothing to write. -/
def Pend.mk0 (s : State) (k : PKind) : Pend := ⟨fidOf s, s.f.seq, k, inHandler s.f, [], 0, [], 0, [], false, false, none, 0, curWord s, curSlot s⟩

/-- The current agent's next access, its counter raised. -/
def inFlightAdd (s : State) (p : Pend) : State :=
  let f := match counterOf s.cur p.kind with
    | some c => cntUp s.f c
    | none => s.f
  { s with f := { f with seq := f.seq + 1 }, w := { s.w with pend := s.w.pend ++ [p] } }

/-- Device addresses among the places. -/
def devAddrs (locs : List (Nat × Loc)) : List Nat :=
  locs.filterMap fun x => match x.2 with
    | .dev pa => some pa
    | _ => none
/-- The access leaves its unit: passes (`count`: a local access word, whose replay passes count: 14 R256, R260), charged
requests of `units` (21 R354), outstanding counter; its completion follows. -/
def sendWith (s : State) (p : Pend) (locs : List (Nat × Loc)) (size : Nat) (wr : Bool) (units : List Nat) (count : Bool) :
    State :=
  let key := curKey s
  let seq := s.f.seq
  let load := p.kind == .load
  let here := locs.filterMap fun x => match x.2 with
    | .slice c o => if c = curCl s then some (x.1, o) else none
    | _ => none
  let there := locs.filterMap fun x => match x.2 with
    | .slice c o => if c = curCl s then none else some (x.1, c, o)
    | _ => none
  let wr := wr && !(s.cur matches .prol _) -- counts in no counter (22 R368)
  let vec := count && (match s.cur with
    | .vec _ => true
    | _ => false)
  let s1 := inFlightAdd s { p with wr := wr }
  let s2 := queuePasses s1 (curCl s) (requester s.cur load) key seq (wordPasses here size) vec
  let s3 := remotePasses s2 key seq there size
  let s4 := match s.cur with
    | .prol _ => s3
    | _ => queueUnits s3 (curCl s) key seq units
  let s5 := wakeRoutes (if wr then outRaise s4 (unitOf s.cur) s.w.launch else s4) (locs.map (·.2))
  if waitsFor s5 key seq then s5 else post s5 [doneEv s.cur p.kind]
/-- A load or store word leaves its unit. -/
def sendAccess (s : State) (p : Pend) (locs : List (Nat × Loc)) (size : Nat) (wr : Bool) : State :=
  sendWith s p locs size wr (lineUnits (devAddrs locs) size) true
/-- An atomic word: a request for each address, of one unit (13 R239, 21 R354). -/
def sendAtomic (s : State) (p : Pend) (locs : List (Nat × Loc)) (size : Nat) (wr : Bool) : State :=
  sendWith s p locs size wr ((distinct (devAddrs locs)).map fun _ => 1) true
/-- The image write of `axrd` or `thget`: not charged, and no local access word (21 R354, 14 R256). -/
def sendImage (s : State) (p : Pend) (locs : List (Nat × Loc)) (size : Nat) : State := sendWith s p locs size true [] false

end Sys2Proof.Machine
end

