-- ==== Sys2Proof/Machine/Streams.lean ====
section
/-! DEFINITION. Streams (18): the record, the walk, reads and writes of st0 to st3, binding, fetching ahead. -/

namespace Sys2Proof.Machine

/-! The record (18 Table 18.1). -/

/-- base. -/
def rcBase (r : BitVec 512) : Nat := bf r.toNat 0 54
/-- Bytes of an element. -/
def rcSize (r : BitVec 512) : Nat := 2 ^ bf r.toNat 54 2
/-- dir: output. -/
def rcOut (r : BitVec 512) : Bool := r.getLsbD 56
/-- ndim. -/
def rcNdim (r : BitVec 512) : Nat := bf r.toNat 57 2
/-- eodsel. -/
def rcEodsel (r : BitVec 512) : Nat := bf r.toNat 59 2
/-- count d. -/
def rcCount (r : BitVec 512) (d : Nat) : Nat := bf r.toNat (64 + 64 * d) 32
/-- step d, on 50 bits. -/
def rcStep (r : BitVec 512) (d : Nat) : Nat := ((r.extractLsb' (96 + 64 * d) 32).signExtend 50).toNat
/-- rlt. -/
def rcRlt (r : BitVec 512) : Nat := bf r.toNat 320 54
/-- sx. -/
def rcSx (r : BitVec 512) : Bool := r.getLsbD 384
/-- rag. -/
def rcRag (r : BitVec 512) : Bool := r.getLsbD 385
/-- mdst. -/
def rcMdst (r : BitVec 512) : Nat := bf r.toNat 386 2
/-- ind. -/
def rcInd (r : BitVec 512) : Bool := r.getLsbD 388
/-- isrc. -/
def rcIsrc (r : BitVec 512) : Nat := bf r.toNat 389 2
/-- ilim. -/
def rcIlim (r : BitVec 512) : Nat := bf r.toNat 416 32
/-- A path of a base or table (18 R318). -/
def rcPathOk (v : Nat) : Bool := bf v 50 4 == 0 || bf v 50 4 == 2 || bf v 50 4 == 3

/-- A malformed record of stream `st` (18 R318). A copy command's walk has no stream number: 4. -/
def rcBad (r : BitVec 512) (st : Nat) : Bool :=
  bf r.toNat 61 3 != 0 || bf r.toNat 374 10 != 0 || bf r.toNat 391 25 != 0 || bf r.toNat 448 64 != 0 ||
  bf r.toNat 54 2 == 3 || !rcPathOk (rcBase r) || !rcPathOk (rcRlt r) || decide (rcNdim r < rcEodsel r) ||
  ([0, 1, 2, 3].any fun d =>
    if d ≤ rcNdim r then rcCount r d == 0 else rcCount r d != 0 || rcStep r d != 0) ||
  (rcRag r && (rcNdim r != 1 || rcOut r || rcInd r)) || (rcInd r && (rcOut r || rcIsrc r == st)) ||
  (!rcRag r && (rcRlt r != 0 || rcMdst r != 0)) || (!rcInd r && (rcIsrc r != 0 || rcIlim r != 0))

/-! The walk (18 R319). -/

/-- Positions of runs up to dimension d. -/
def rcRun (r : BitVec 512) : Nat → Nat
  | 0 => rcCount r 0
  | d + 1 => rcRun r d * rcCount r (d + 1)
/-- Positions of the walk. -/
def rcTotal (r : BitVec 512) : Nat := rcRun r (rcNdim r)
/-- A sum on bits [49:0], the path kept. -/
def addrPlus (base add : Nat) : Word64 := BitVec.ofNat 64 (base / 2 ^ 50 * 2 ^ 50 + (base + add) % 2 ^ 50)
/-- Address of a position, i0 × step0 given by `i0`. -/
def rcAddr (r : BitVec 512) (pos i0 : Nat) : Word64 :=
  let outer := (List.range (rcNdim r)).foldl (fun a d =>
    a + pos / rcRun r d % rcCount r (d + 1) * rcStep r (d + 1)) 0
  addrPlus (rcBase r) (i0 * rcStep r 0 + outer)
/-- The address of a position of an unragged walk. -/
def rcPosAddr (r : BitVec 512) (pos : Nat) : Word64 := rcAddr r pos (pos % rcCount r 0)
/-- End flags after position `pos` (18 R322). -/
def rcEod (r : BitVec 512) (pos : Nat) : BitVec 4 :=
  [0, 1, 2, 3].foldl (fun e d =>
    if d ≤ rcNdim r && (pos + 1) % rcRun r d == 0 then e ||| (1#4 <<< d) else e) 0#4
/-- An element's lane value (18 R320). -/
def rcExtend (r : BitVec 512) (v : Nat) : Word :=
  match rcSize r with
  | 1 => if rcSx r then (BitVec.ofNat 8 v).signExtend 32 else BitVec.ofNat 32 (v % 256)
  | 2 => if rcSx r then (BitVec.ofNat 16 v).signExtend 32 else BitVec.ofNat 32 (v % 65536)
  | _ => BitVec.ofNat 32 v

/-- A stream of the current fibre. -/
def getS (s : State) (i : Nat) : Stream := s.f.streams.getD i Stream.unbound
/-- It set. -/
def setS (s : State) (i : Nat) (x : Stream) : State := { s with f := { s.f with streams := s.f.streams.set i x } }
/-- Cause of a kind (18 R326). -/
def strCause (st k : Nat) : Nat := 0x0C0 + 16 * st + k

/-- An element read, or the cause it carries: a weak read of the fibre, as memory stood some units ago, which then stands in
program order where the walk began (18 R325). Over a link declared down it reads 0, and the fibre takes the cause (log 47). -/
def readElem (s : State) (x : Stream) (va : Word64) (ages : List Nat) : State × SElem :=
  let n := rcSize x.desc
  match locate s (whoCur s) .strm va n with
  | .error c => (s, { SElem.zero with fault := some (c, va) })
  | .ok l =>
    if routeDown s l then (holdFail s ⟨0x1F6, 0, va, 0, true, inHandler s.f, none, 0⟩, SElem.zero) else -- 25 R411, R414
    let u := unitOfEngine s
    (noteReads s (if ages.isEmpty then u else { u with po := x.po }) (locBytes l n) ages,
      { SElem.zero with v := rcExtend x.desc (agedVal s l n ages), bad := (readLoc s l n).2 })
/-- Why a row length cannot be used: kind 5 (R323, R326), or the place where it is uncorrectable; its address. -/
abbrev LenErr : Type := Option Loc × Word64
/-- A row length read (18 R323). -/
def readLen (s : State) (r : BitVec 512) (row : Nat) : Except LenErr Nat :=
  let va := addrPlus (rcRlt r) (4 * row)
  match locate s (whoCur s) .strm va 4 with
  | .error _ => .error (none, va)
  | .ok l =>
    let v := readLoc s l 4
    if v.2 then .error (some l, va) else if rcCount r 0 < v.1 then .error (none, va) else .ok v.1
/-- The first row among the next n from `row` whose length is not 0, with the length or its error. -/
def findRow (s : State) (r : BitVec 512) : Nat → Nat → Option (Nat × Except LenErr Nat)
  | 0, _ => none
  | n + 1, row =>
    match readLen s r row with
    | .error e => some (row, .error e)
    | .ok 0 => findRow s r n (row + 1)
    | .ok l => some (row, .ok l)
/-- The next row from `row` on: none at the end of the walk. -/
def rowsFrom (s : State) (r : BitVec 512) (row : Nat) : Option (Nat × Except LenErr Nat) :=
  findRow s r (rcCount r 1 - row) row

/-- `n` requests of a stream charged at the port where the address is on path 0x0 (21 R354): the number + 1 they are waited
for under. -/
def chargeStream (s : State) (va : Word64) (n : Nat) : State × Nat :=
  if bf va.toNat 50 4 = 0 && n != 0 then
    (queueUnits { s with f := { s.f with seq := s.f.seq + 1 } } (curCl s) (curKey s) s.f.seq (List.replicate n 1), s.f.seq + 1)
  else (s, 0)
/-- The row lengths from `row` to the row found charged. -/
def chargeLens (s : State) (r : BitVec 512) (row : Nat) (to1 : Option (Nat × Except LenErr Nat)) : State × Nat :=
  chargeStream s (addrPlus (rcRlt r) (4 * row)) (match to1 with
    | some (row', _) => row' + 1 - row
    | none => rcCount r 1 - row)
/-- Requests under a number of the current fibre still wait at a port. -/
def tokWaits (s : State) (tok : Nat) : Bool := decide (tok ≠ 0) && waitsFor s (curKey s) (tok - 1)

/-- What a ragged walk meets at a row whose length cannot be used: kind 5 (18 R323); DEDUCED (log 76): cause 0x1F1 where
the length is uncorrectable, as for a poisoned element (10 R182). -/
def lenFault (st row : Nat) (e : LenErr) : SElem :=
  { SElem.zero with fault := some (if e.1.isSome then 0x1F1 else strCause st 5, 0), at3 := (row, 0, 0) }
/-- It is no element of the walk. -/
def SElem.marks (e : SElem) : Bool :=
  match e.fault with
  | some (c, _) => c == 0x1F1 || (decide (0x0C0 ≤ c) && decide (c < 0x100) && c % 16 == 5)
  | none => false

/-- One element of a ragged walk fetched (18 R323). -/
def fetchRag (s : State) (st : Nat) (x : Stream) (ages : List Nat) : State :=
  let r := x.desc
  let at1 := if x.len = 0 then rowsFrom s r x.row else some (x.row, .ok x.len)
  let c := if x.len = 0 then chargeLens s r x.row at1 else (s, 0)
  let tok := if c.2 = 0 then x.tok else c.2
  match at1 with
  | none => setS c.1 st { x with fdone := true, tok := tok }
  | some (row, .error e) =>
    setS c.1 st { x with fetched := x.fetched ++ [{ lenFault st row e with tok := tok }], fdone := true, tok := tok }
  | some (row, .ok len) =>
    let va := addrPlus (rcBase r) (row * rcStep r 1 + x.col * rcStep r 0)
    let el := readElem c.1 x va ages
    let d := if el.2.fault.isNone then chargeStream el.1 va 1 else (el.1, 0)
    let e := { el.2 with head := x.col == 0, eor := x.col + 1 == len, at3 := (row, len, x.col), tok := d.2 }
    if x.col + 1 < len then
      setS d.1 st { x with row := row, len := len, col := x.col + 1, fetched := x.fetched ++ [e], tok := tok }
    else
      let next := rowsFrom s r (row + 1)
      let g := chargeLens d.1 r (row + 1) next
      let tok' := if g.2 = 0 then tok else g.2
      let y := { x with row := row + 1, len := 0, col := 0, tok := tok' }
      match next with
      | none => setS g.1 st { y with fetched := x.fetched ++ [{ e with eow := true, tok := Nat.max e.tok g.2 }], fdone := true }
      | some (row', .error f) =>
        setS g.1 st { y with row := row', fetched := x.fetched ++ [e, { lenFault st row' f with tok := g.2 }], fdone := true }
      | some (row', .ok len') => setS g.1 st { y with row := row', len := len', fetched := x.fetched ++ [e] }

/-- One element of an unragged walk fetched (18 R319, R324). -/
def fetchPos (s : State) (st : Nat) (x : Stream) (ages : List Nat) : State :=
  let r := x.desc
  let p := x.pos + x.fetched.length
  if rcTotal r ≤ p then setS s st { x with fdone := true }
  else
    let put := fun (t : State) (e : SElem) =>
      setS t st { x with fetched := x.fetched ++ [e], fdone := decide (rcTotal r ≤ p + 1) }
    let get := fun (va : Word64) =>
      let el := readElem s x va ages
      let c := if el.2.fault.isNone then chargeStream el.1 va 1 else (el.1, 0)
      put c.1 { el.2 with tok := c.2 }
    if rcInd r then
      let src := getS s (rcIsrc r)
      match src.fetched.drop x.fetched.length with
      | [] => if src.fdone then setS s st { x with fdone := true } else s
      | i :: _ =>
        if tokWaits s i.tok then s
        else match i.fault with
        | some _ => put s i
        | none =>
          if i.bad then put s i
          else if i.v = 0xFFFFFFFF#32 then put s SElem.zero
          else if rcIlim r < i.v.toNat then put s { SElem.zero with fault := some (strCause st 4, 0) }
          else get (rcAddr r p i.v.toNat)
    else get (rcPosAddr r p)

/-- The fetch ahead of stream `st` of the current fibre makes one step (18 R316, R325). -/
def fetchStream (s : State) (st : Nat) (ages : List Nat) : State :=
  let x := getS s st
  if !x.bound || rcOut x.desc || x.fdone || decide (128 ≤ x.fetched.length) then s
  else if rcRag x.desc then fetchRag s st x ages else fetchPos s st x ages

/-- The fetch event of a stream number. -/
def fetchEv (s : State) (st : Nat) : Ev := .fetch s.cur (Fin.ofNat 4 st)
/-- After a fetch: again, and the streams that take their indices from this one. -/
def fetchMore (s : State) (st : Nat) : State :=
  let x := getS s st
  let more := x.bound && !rcOut x.desc && !x.fdone && decide (x.fetched.length < 128)
  let users := [0, 1, 2, 3].filter fun i =>
    let y := getS s i
    y.bound && rcInd y.desc && rcIsrc y.desc == st && !y.fdone && decide (y.fetched.length < 128) &&
    (decide (y.fetched.length < x.fetched.length) || x.fdone)
  let self := more && (!rcInd x.desc || decide (x.fetched.length < (getS s (rcIsrc x.desc)).fetched.length) ||
    (getS s (rcIsrc x.desc)).fdone)
  post s ((if self then [fetchEv s st] else []) ++ users.map (fetchEv s))

/-- Positions passed over in a ragged walk: where it then stands (none: the end), how many were passed. It stops before a
row whose length cannot be used. -/
def skipRag (s : State) (r : BitVec 512) : Nat → Nat × Nat × Nat → Nat → Option (Nat × Nat × Nat) × Nat
  | 0, w, _ => (some w, 0)
  | fuel + 1, (row, len, col), k =>
    if k = 0 then (some (row, len, col), 0)
    else
      match (if len = 0 then rowsFrom s r row else some (row, .ok len)) with
      | none => (none, 0)
      | some (row', .error _) => (some (row', 0, 0), 0)
      | some (row', .ok len') =>
        if col + k < len' then (some (row', len', col + k), k)
        else
          let n := len' - col
          let t := skipRag s r fuel (row' + 1, 0, 0) (k - n)
          (t.1, n + t.2)
/-- Stream queues dropped, for a save (18 R331) or a skip: the walk stands at the first unconsumed element. -/
def dropQueue (x : Stream) : Stream :=
  if !x.bound || rcOut x.desc then x
  else if rcRag x.desc then
    match x.fetched with
    | [] => x
    | e :: _ => { x with fetched := [], row := e.at3.1, len := e.at3.2.1, col := e.at3.2.2, fdone := false }
  else { x with fetched := [], fdone := decide (rcTotal x.desc ≤ x.pos) }
/-- The first n elements of a ragged walk consumed; all of them are there. -/
def takeRag (s : State) (st : Nat) (x : Stream) (n : Nat) : State :=
  let l := x.fetched.drop n
  let eod : BitVec 4 := match (x.fetched.take n).getLast? with
    | some e => (if e.eor then 1 else 0) ||| (if e.eow then 2 else 0)
    | none => x.eod
  setS s st { x with fetched := l, pos := x.pos + n, eod := eod, ended := x.fdone && l.isEmpty }
/-- A ragged walk moved k positions on by `sadv`, which fetches what follows afresh (R329): how many it moved. -/
def moveRag (s0 : State) (st k : Nat) (x0 : Stream) : State × Nat :=
  let y := dropQueue x0
  let w := skipRag s0 y.desc (rcCount y.desc 1 + 1) (y.row, y.len, y.col) k
  let stop := match w.1 with
    | none => rcCount y.desc 1
    | some (row, len, _) => if len = 0 then row else row + 1
  let c := chargeStream s0 (addrPlus (rcRlt y.desc) (4 * y.row)) (stop - y.row - (if y.len = 0 then 0 else 1))
  let s := c.1
  let x := { y with tok := if c.2 = 0 then y.tok else c.2 }
  match w.1 with
  | none => (setS s st { x with
      pos := x.pos + w.2, eod := if w.2 = 0 then x.eod else 3, ended := true, fdone := true }, w.2)
  | some (row, len, col) =>
    let fin := col = 0 && (rowsFrom s x.desc row).isNone
    (setS s st { x with
        pos := x.pos + w.2, row := row, len := len, col := col
        eod := if w.2 = 0 then x.eod else (if col = 0 then 1 else 0) ||| (if fin then 2 else 0), ended := fin, fdone := fin }, w.2)

/-- The stream moves `k` positions on, with the stream its indices come from: how many it moved (18 R324, R329). -/
def advance (s : State) (st k : Nat) : Nat → State × Nat
  | 0 => (s, 0)
  | fuel + 1 =>
    let x := getS s st
    let r := x.desc
    if rcRag r then
      if k ≤ x.fetched.length && (x.fetched.take k).all (fun e => !e.marks) then (takeRag s st x k, k)
      else moveRag s st k x
    else
      let left := rcTotal r - x.pos
      let a := if rcInd r then advance s (rcIsrc r) (Nat.min k left) fuel else (s, Nat.min k left)
      let n := a.2
      let pos := x.pos + n
      let fin := decide (rcTotal r ≤ pos) || decide (left < k) ||
        (rcInd r && ((getS a.1 (rcIsrc r)).ended || decide (n < Nat.min k left)))
      (setS a.1 st { x with
          pos := pos, fetched := x.fetched.drop n, ended := fin, fdone := decide (rcTotal r ≤ pos + (x.fetched.drop n).length)
          eod := if n = 0 then x.eod else rcEod r (pos - 1) }, n)

/-- Elements that a read of `a` lanes delivers (18 R320, R323, R324). -/
def readCount (s : State) (x : Stream) (a : Nat) : Nat :=
  let r := x.desc
  if rcRag r then Nat.min a x.fetched.length
  else
    let run := rcCount r 0 - x.pos % rcCount r 0
    let n := Nat.min a run
    if rcInd r && (getS s (rcIsrc r)).fdone then Nat.min n (getS s (rcIsrc r)).fetched.length else n

/-- The fault of the elements a read would consume: cause, lanes with that cause, address (18 R326, 12 R220). -/
def elemFault (s : State) (es : List SElem) : Option (Nat × LaneSet × Word64) :=
  match es.findSome? (·.fault) with
  | none => none
  | some (c, va) =>
    if 0x0C0 ≤ c && c < 0x100 then some (c, act s, 0)
    else some (c, setOf fun l =>
      match es.drop ((lanesOf (act s)).filter fun j => decide (j < l)).length with
      | e :: _ => inSet (act s) l && (e.fault.map (·.1)) == some c
      | [] => false, va)

/-- A read of an input stream (18 R320, R323, R324, R326): the state after, the row, the lanes that got an element. -/
def readStream (s : State) (st : Nat) : R (State × Row × LaneSet) := do
  let x := getS s st
  need s x.bound (strCause st 0)
  need s x.captor.isNone (strCause st 4)
  need s (!rcOut x.desc) (strCause st 2)
  need s (!x.ended) (strCause st 1)
  let a := laneCount (act s)
  let n := readCount s x a
  ready (if rcRag x.desc then decide (a ≤ x.fetched.length) || (x.fdone && !tokWaits s x.tok) else decide (n ≤ x.fetched.length))
  let es := x.fetched.take n
  ready (es.all fun e => !tokWaits s e.tok)
  match elemFault s es with
  | some (c, lanes, va) => .error (.fault c lanes va)
  | none =>
    let got := lowLanes (act s) n
    clean s (setOf fun l => inSet got l &&
      (es.getD ((lanesOf (act s)).filter fun j => decide (j < l)).length SElem.zero).bad)
    let row := dealRow (act s) (es.map (·.v)) 0
    let t := (advance s st n 4).1
    let t1 := if n = 0 then setS t st { getS t st with ended := true } else t
    let heads := dealRow (act s) (es.map fun e => if e.head then 1#32 else 0#32) 1#32
    let t2 := if rcRag x.desc then writeM t1 (rcMdst x.desc) (setOf fun l => lane heads l == 1#32) else t1
    let evs := fetchEv t2 st :: (if rcInd x.desc then [fetchEv t2 (rcIsrc x.desc)] else [])
    return (post t2 evs, row, got)
/-- Elements that carry a fault are fetched again, as by the group that `tret` issues again (10 R181, 18 R326). -/
def refetch (s : State) : State :=
  let one := fun (t : State) (i : Nat) =>
    let x := getS t i
    match x.fetched.findIdx? (fun e => e.fault.isSome) with
    | none => t
    | some n =>
      let y := if rcRag x.desc then
          let d := dropQueue { x with fetched := x.fetched.drop n }
          { d with fetched := x.fetched.take n }
        else { x with fetched := x.fetched.take n, fdone := false }
      postNew (setS t i y) [fetchEv t i]
  [0, 1, 2, 3].foldl one s

/-- A write of an output stream (18 R321, R322). -/
def writeStream (s : State) (st : Nat) (v : Row) : R State := do
  let x := getS s st
  need s x.bound (strCause st 0)
  need s (rcOut x.desc) (strCause st 2)
  let r := x.desc
  let ls := lanesOf (act s)
  let a := ls.length
  need s (decide (x.pos + a ≤ rcTotal r)) (strCause st 6)
  ready (decide (x.writes + a ≤ 128))
  roomFor s (.strm st a)
  outReady s true
  let addrs := (List.range a).map fun i => rcPosAddr r (x.pos + i)
  let res := (ls.zip addrs).map fun p => (p.1, p.2, locate s (whoCur s) .strmW p.2 (rcSize r))
  let failed := fun (p : Nat × Word64 × Except Nat Loc) => match p.2.2 with
    | .error c => some c
    | .ok _ => none
  match res.find? fun p => (failed p).isSome with
  | some (_, va, .error c) => .error (.fault c (setOf fun l => res.any fun p => p.1 == l && failed p == some c) va)
  | _ =>
    let locs := res.filterMap fun p => match p.2.2 with
      | .ok l => some (p.1, l)
      | .error _ => none
    let w := storeAll s (keptLanes s locs) (rcSize r) fun l => (lane v l).toNat % 2 ^ (8 * rcSize r)
    let n := noteStores s w.1 ((keptLanes s locs).filter fun x => !w.2.contains x) (rcSize r)
      (fun l => (lane v l).toNat % 2 ^ (8 * rcSize r)) .weak .sl
    let t := holdLost (holdRefused n w.2 (ls.zip addrs)) (lostLanes s locs) (ls.zip addrs)
    let pos := x.pos + a
    let t1 := setS t st { x with
      pos := pos, writes := x.writes + a, eod := rcEod r (pos - 1), ended := decide (rcTotal r ≤ pos) }
    let u := sendWith t1 (Pend.mk0 t1 (.strm st a)) [] 4 true (lineUnits (devAddrs (keptLanes s locs)) (rcSize r)) false
    return watch u (ls.zip addrs) (rcSize r) false true

/-- The record a bind starts (18 R328, R329): walk at position 0, nothing fetched; writes in flight stay. -/
def freshStream (old : Stream) (r : BitVec 512) (ended : Bool) (po : Nat) : Stream :=
  { Stream.unbound with bound := true, desc := r, ended := ended, captor := old.captor, writes := old.writes, po := po }
/-- The capture a stream holds released (18 R324). -/
def releaseCapture (s : State) (st : Nat) : State :=
  { s with f := { s.f with streams := s.f.streams.map fun x => if x.captor = some st then { x with captor := none } else x } }

/-- A bind with a record that has been read (18 R324, R326, R328); `again`: by `srst`, which captures no ended stream. -/
def bindStream (s : State) (st : Nat) (r : BitVec 512) (again : Bool) : R State := do
  need s (!rcBad r st) (strCause st 3)
  let t := releaseCapture s st
  if rcInd r then
    let i := rcIsrc r
    let src := getS t i
    need s (src.bound && !rcOut src.desc && src.captor.isNone) (strCause st 4)
    let t1 := if again && src.ended then t else setS t i { src with captor := some st }
    let t2 := setS t1 st (freshStream (getS t1 st) r src.ended (nextPo s.hist))
    return post t2 [fetchEv t2 st]
  else
    let t1 := setS t st (freshStream (getS t st) r false (nextPo s.hist))
    return post t1 (if rcOut r then [] else [fetchEv t1 st])

/-- Flag eod[eodsel] that a branch reads (07 R119); clear for an unbound stream. -/
def branchEod (x : Stream) : Bool := x.bound && x.eod.getLsbD (rcEodsel x.desc)

/-- `sstat` (18 Table 18.6). -/
def streamStatus (x : Stream) : Word :=
  if !x.bound then 0
  else BitVec.ofNat 32 (1 + (if rcOut x.desc then 2 else 0) + (if x.ended then 4 else 0) +
    (if x.captor.isSome then 8 else 0) + x.eod.toNat * 16 +
    Nat.min 128 (if rcOut x.desc then x.writes else x.fetched.countP fun e => !e.marks) * 256)

end Sys2Proof.Machine
end

