-- ==== Sys2Proof/Machine/Check.lean ====
section
/-! DEFINITION. Illegal encodings at issue (04 Table 4.10, R77, R78): which unit runs a major, features (19 Table 19.8),
privilege (10 R181, R184), windows (02 R31). -/

namespace Sys2Proof.Machine

/-- The major of a word (04 Table 4.8); 256 for an event. -/
def major (i : Instr) : Nat :=
  match i with
  | .nop .. | .halt .. => 0x00
  | .bra .. => 0x01
  | .call .. | .ret .. | .jmp .. => 0x02
  | .brd .. | .join .. | .mand .. | .mor .. | .mnot .. | .mmov .. => 0x03
  | .kadd .. | .ksub .. | .kand .. | .kor .. | .kxor .. | .kshl .. | .kshrZ32 .. | .kshrS32 .. | .kmul ..
  | .kminS32 .. | .kminZ32 .. | .kmaxS32 .. | .kmaxZ32 .. | .kcmpEq .. | .kcmpNe .. | .kcmpS32Lt ..
  | .kcmpZ32Lt .. | .kcmpS32Le .. | .kcmpZ32Le .. | .kmov .. => 0x04
  | .kaddi .. | .kandi .. | .kori .. | .kxori .. | .kshli .. | .kshriZ32 .. | .kshriS32 .. | .kmovi .. => 0x05
  | .wait .. | .yield .. | .fbar .. | .fstop .. | .fwake .. => 0x06
  | .trap .. | .tret .. | .csrr .. | .csrw .. | .rgrow .. | .rshrink .. => 0x07
  | .ldk .. | .stk .. => 0x08
  | .setrm .. | .rdflags .. | .clrflags .. | .rdamax .. | .clramax .. => 0x09
  | .sbind .. | .srst .. | .sadv .. | .sstat .. => 0x0A
  | .enq .. => 0x0B
  | .add .. | .sub .. | .min .. | .max .. | .and .. | .or .. | .xor .. | .shl .. | .shrS32 .. | .shrZ32 .. => 0x10
  | .addi .. | .andi .. | .ori .. | .xori .. | .shli .. | .shriZ32 .. | .shriS32 .. | .rsubi .. => 0x11
  | .mul .. | .mulhi .. | .mulhz .. | .div .. | .divz .. | .rem .. | .remz .. => 0x12
  | .popc .. | .clz .. | .brev .. | .bfeZ32 .. | .bfeS32 .. | .bfi .. => 0x13
  | .cmp .. => 0x14
  | .movi .. | .mov .. | .sel .. => 0x15
  | .faddF32 .. | .fsubF32 .. | .fmulF32 .. | .fminF32 .. | .fmaxF32 .. | .fabsF32 .. | .fnegF32 .. => 0x16
  | .ffmaF32 .. | .ffmsF32 .. | .fnmaF32 .. => 0x17
  | .faddF16Bf16 .. | .fsubF16Bf16 .. | .fmulF16Bf16 .. => 0x18
  | .ffmaF16Bf16 .. | .ffmsF16Bf16 .. => 0x19
  | .faddF64 .. | .fsubF64 .. | .fmulF64 .. | .ffmaF64 .. | .fminF64 .. | .fmaxF64 .. => 0x1A
  | .rcp .. | .rsq .. | .sqrt .. | .exp2 .. | .log2 .. | .sin .. | .cos .. => 0x1B
  | .cvtF32F16 .. | .cvtF32Bf16 .. | .cvtF16F32 .. | .cvtBf16F32 .. | .cvtF64F32 .. | .cvtF32F64 ..
  | .cvtE4m3F32 .. | .cvtE5m2F32 .. | .cvtF32E4m3 .. | .cvtF32E5m2 .. | .cvtL8F32 .. | .cvtL16F32 ..
  | .cvtF32L8 .. | .cvtF32L16 .. | .cvtQ8F32 .. | .cvtQ4F32 .. | .cvtF32Q8 .. | .cvtF32Q4 .. | .cvtS32F32 ..
  | .cvtS32F32Rz .. | .cvtZ32F32 .. | .cvtF32S32 .. | .cvtF32Z32 .. => 0x1C
  | .sacc .. => 0x1D
  | .shflIdx .. | .shflUp .. | .shflDown .. | .shflXor .. | .voteAny .. | .voteAll .. | .voteUni .. | .ballot ..
  | .mpopcBelow .. | .mpopcTotal .. | .scan .. => 0x1E
  | .red .. | .redSeg .. | .scanSeg .. | .topk .. | .topkSeg .. => 0x1F
  | .xshuf .. | .regroup .. => 0x20
  | .lea .. | .wpack .. | .wext .. | .addD .. | .subD .. => 0x21
  | .ld .. => 0x30
  | .st .. => 0x31
  | .ldc .. | .stc .. => 0x32
  | .lds .. | .sts .. => 0x33
  | .atomAdd .. | .atomAnd .. | .atomOr .. | .atomXor .. | .atomMinS .. | .atomMaxS .. | .atomMinZ ..
  | .atomMaxZ .. | .atomExch .. | .atomCas .. | .atomFadd .. | .atomXadd .. => 0x34
  | .barArr .. | .barWt .. | .barTst .. | .fence .. => 0x35
  | .seal .. | .unseal .. | .cwb .. | .cinv .. => 0x36
  | .nred .. | .nbar .. | .rsig .. => 0x37
  | .axins .. | .axdel .. | .axset .. | .axpub .. | .axrd .. => 0x38
  | .thset .. | .thget .. | .thfill .. => 0x39
  | .tbres .. | .tbcom .. | .tbacq .. | .tbrel .. | .tbst .. => 0x3A
  | .mxgat .. | .mxlda .. => 0x3B
  | .mxmul .. | .mxzero .. => 0x3C
  | .mxdrn .. | .mxwait .. | .mxmeta .. => 0x3D
  | .packetFetch .. | .watchdog .. | .breakpoint .. | .dataWatchpoint .. | .singleStep .. | .releaseEnd ..
  | .releaseReturn .. | .registerWrite .. | .readClear .. | .stagingStore .. | .go .. | .goAccept ..
  | .copyCommandStart .. | .copyLineTransfer .. | .copyCommandComplete .. | .copyCommandFault ..
  | .copyFaultDelivery .. | .fstart .. | .frondStreamStart .. | .frondStreamEnd .. | .mxLoadComplete ..
  | .mxOperationComplete .. | .mxDrainComplete .. | .loadDataReturn .. | .storePerformed .. | .slicePassGrant ..
  | .scratchpadWriteRefused .. | .acknowledgementReturn .. | .barrierArrival .. | .rsigRefusal ..
  | .exchangeMessageArrival .. | .exchangeTimeout .. | .regroupMove .. | .reductionResult ..
  | .reductionTimeout .. | .networkFailureDelivery .. | .axpubComplete .. | .sealComplete .. | .unsealComplete ..
  | .cacheMaintenanceComplete .. | .streamFetch .. | .tileBufferApply .. | .rgrowGrant ..
  | .registerGrowEviction .. | .evictedSlotRestore .. | .workgroupPlacement .. | .warpRetire ..
  | .taskNotCreated .. | .launchCompletion .. | .qtail .. | .signal .. | .waitPacket .. | .waitPacketPoll ..
  | .launch .. | .launchIndirect .. | .prologueStepLimit .. | .nopPacket .. | .reservedPacket ..
  | .overflowDrain .. | .timeTriggeredSlot .. | .timeTriggeredEntryWrite .. | .clusterReassignment ..
  | .batchStart .. | .tokenRefill .. | .portAdmission .. | .throttlePeriod .. | .congestionRefresh .. | .drain ..
  | .forced .. | .restore .. | .evict .. | .savedArrivalApply .. | .attestationGo .. | .attestationDone ..
  | .contextEnable .. | .contextDisable .. | .cpartWrite .. | .cpartTakesEffect .. | .pmemWrite .. | .accwWrite ..
  | .bar2Access .. | .peerRequest .. | .flitForward .. | .linkReplay .. | .linkDown .. | .routerGate ..
  | .routerWake .. | .powerGood .. | .powerLoss .. | .conventionalReset .. | .functionLevelReset ..
  | .thermalReport .. | .statisticsSample .. | .errorRecord .. | .scrub .. | .lpddr6Refresh ..
  | .timeCorrection .. | .linkUp .. | .launchCancellation .. => 256

/-- The pipe of a major (04 Table 4.8): 0 I, 1 F, 2 M, 3 X, 4 S; none for a reserved one. -/
def pipeOf (m : Nat) : Option Nat :=
  if m ≤ 0x07 || m == 0x09 then some 4
  else if m == 0x08 || m == 0x0A || m == 0x0B || (0x30 ≤ m && m ≤ 0x3A) then some 2
  else if (0x10 ≤ m && m ≤ 0x15) || m == 0x21 then some 0
  else if (0x16 ≤ m && m ≤ 0x1A) || m == 0x1C || m == 0x1D then some 1
  else if m == 0x1B || (0x1E ≤ m && m ≤ 0x20) || (0x3B ≤ m && m ≤ 0x3D) then some 3
  else none

/-- 0x001, 0x006, 0x007 (04 Table 4.10): the unit does not run the major. -/
def unitCause (a : Agent) (m : Nat) : Option Nat :=
  match pipeOf m with
  | none => some 0x001
  | some _ =>
    match a with
    | .vec _ => if 0x3B ≤ m then some 0x007 else none
    | .frond _ => if 0x0A ≤ m && m ≤ 0x3A then some 0x006 else none
    | .prol _ => if m ≤ 0x05 || m == 0x08 then none else some 0x001
    | .none => none

/-- The feature a word belongs to (19 Table 19.8), by its raw fields. -/
def featureOf (w : Nat) : Option Nat :=
  let sub := fld w 8 4
  match fld w 24 6 with
  | 0x07 => if sub = 4 || sub = 5 then some 20 else none
  | 0x0A => some 9
  | 0x0B => some 16
  | 0x1A => some 4
  | 0x1C => if fld w 0 5 = 4 || fld w 0 5 = 5 then some 4 else if 6 ≤ fld w 0 5 && fld w 0 5 ≤ 9 then some 5 else none
  | 0x1D => some 2
  | 0x20 => if fld w 3 3 = 0 then some 8 else if fld w 3 3 = 1 then some 7 else none
  | 0x34 => if fld w 4 5 = 11 then some 6 else none
  | 0x36 => if sub ≤ 1 then some 13 else none
  | 0x37 => if sub ≤ 1 then some 12 else none
  | _ => none

/-- 0x001, 0x006, 0x007, 0x00A, 0x00B of a raw word (04 R78): `tret` and handler CSRs outside the handler split. -/
def rawCause (s : State) (w : Nat) : Option Nat :=
  let m := fld w 24 6
  match unitCause s.cur m with
  | some c => some c
  | none =>
    if (match featureOf w with
        | some b => !feature s b
        | none => false) then some 0x00A
    else if m == 7 && !inHandler s.f && (fld w 8 4 == 1 || (fld w 8 4 == 3 && csrHandler (fld w 0 8))) then some 0x00B
    else none

/-- Words the frond core does not run, and CSRs it does not list (10 R172, 11 R197): cause 0x002. -/
def frondBars (a : Agent) (w : Nat) : Bool :=
  match a with
  | .frond _ =>
    let sub := fld w 8 4
    match fld w 24 6 with
    | 0x06 => 2 ≤ sub && sub ≤ 4
    | 0x07 => sub == 4 || sub == 5 || ((sub == 2 || sub == 3) && !csrFrond (fld w 0 8))
    | 0x09 => sub == 3 || sub == 4
    | _ => false
  | _ => false

/-- A fibre the launch did not declare, or an `fbar` set without the issuer (10 R175, R177): cause 0x002. -/
def fibreBars (s : State) (w : Nat) : Bool :=
  if fld w 24 6 == 0x06 then
    match fld w 8 4 with
    | 2 => decide (2 ^ s.w.nfib ≤ fld w 0 4) || fld w (fidOf s) 1 == 0
    | 3 | 4 => decide (s.w.nfib ≤ fld w 0 2)
    | _ => false
  else false

/-- n codes of a source. -/
def srcN : Src → List Nat
  | .n j => [j.val]
  | .q _ | .b _ | .st _ | .k _ | .z | .lane | .fid => []
/-- n codes of a destination. -/
def dstN : Dst → List Nat
  | .n j => [j.val]
  | .q | .st _ | .none => []
/-- n codes of a pair source. -/
def psrcN : PSrc → List Nat
  | .n j => [j.val, j.val + 1]
  | .k _ => []
/-- n codes of a pair. -/
def pairN (j : NReg) : List Nat := [j.val, j.val + 1]
/-- n codes of a data register of `n` words. -/
def runN (j : NReg) (n : Nat) : List Nat := (List.range n).map (j.val + ·)
/-- Registers of a size. -/
def ldRegs : LdSize → Nat
  | .b8 | .b16 | .b32 | .s8 | .s16 => 1
  | .b64 => 2
  | .b128 => 4
/-- Registers of a size. -/
def stRegs : StSize → Nat
  | .b8 | .b16 | .b32 => 1
  | .b64 => 2
  | .b128 => 4
/-- Registers of a size. -/
def kRegs : KSize → Nat
  | .b8 | .b16 | .b32 => 1
  | .b64 => 2
/-- Registers of a size. -/
def sRegs : SSize → Nat
  | .b16 | .b32 => 1
  | .b64 => 2
  | .b128 => 4
/-- Registers of a size. -/
def aRegs : ASize → Nat
  | .b32 => 1
  | .b64 => 2

/-- The n codes a word names (02 R31). -/
def namedN (i : Instr) : List Nat :=
  match i with
  | .add _ d a b _ | .sub _ d a b _ | .min _ d a b _ | .max _ d a b _ | .and _ d a b | .or _ d a b | .xor _ d a b
  | .shl _ d a b | .shrS32 _ d a b | .shrZ32 _ d a b | .mul _ d a b | .mulhi _ d a b | .mulhz _ d a b | .div _ d a b
  | .divz _ d a b | .rem _ d a b | .remz _ d a b | .bfeZ32 _ d a b | .bfeS32 _ d a b | .bfi _ d a b
  | .faddF32 _ d a b _ | .fsubF32 _ d a b _ | .fmulF32 _ d a b _ | .fminF32 _ d a b _ | .fmaxF32 _ d a b _
  | .faddF16Bf16 _ d a b _ _ | .fsubF16Bf16 _ d a b _ _ | .fmulF16Bf16 _ d a b _ _ | .cvtE4m3F32 _ d a b _
  | .cvtE5m2F32 _ d a b _ | .cvtF32E4m3 _ d a b | .cvtF32E5m2 _ d a b | .cvtL8F32 _ d a b _ | .cvtL16F32 _ d a b _
  | .cvtF32L8 _ d a b | .cvtF32L16 _ d a b | .cvtQ8F32 _ d a b _ | .cvtQ4F32 _ d a b _ | .cvtF32Q8 _ d a b
  | .cvtF32Q4 _ d a b | .shflIdx _ d a b | .shflUp _ d a b | .shflDown _ d a b | .shflXor _ d a b
  | .topk _ d a b _ | .topkSeg _ d a b _ | .xshuf _ d a b => dstN d ++ srcN a ++ srcN b
  | .addi _ d a _ | .andi _ d a _ | .ori _ d a _ | .xori _ d a _ | .shli _ d a _ | .shriZ32 _ d a _
  | .shriS32 _ d a _ | .rsubi _ d a _ | .popc _ d a | .clz _ d a | .brev _ d a | .mov _ d a | .sel _ d a _
  | .fabsF32 _ d a _ | .fnegF32 _ d a _ | .rcp _ d a _ | .rsq _ d a _ | .sqrt _ d a _ | .exp2 _ d a _
  | .log2 _ d a _ | .sin _ d a _ | .cos _ d a _ | .cvtF32F16 _ d a | .cvtF32Bf16 _ d a | .cvtF16F32 _ d a
  | .cvtBf16F32 _ d a | .cvtS32F32 _ d a | .cvtS32F32Rz _ d a | .cvtZ32F32 _ d a | .cvtF32S32 _ d a
  | .cvtF32Z32 _ d a | .scan _ d a _ | .red _ d a _ | .redSeg _ d a _ _ | .scanSeg _ d a _ _
  | .regroup _ d a => dstN d ++ srcN a
  | .movi _ d _ | .mpopcBelow _ d _ | .mpopcTotal _ d _ => dstN d
  | .cmp _ _ a b _ _ => srcN a ++ srcN b
  | .ffmaF32 _ d a b u | .ffmsF32 _ d a b u | .fnmaF32 _ d a b u | .ffmaF16Bf16 _ d a b _ u
  | .ffmsF16Bf16 _ d a b _ u => dstN d ++ srcN a ++ srcN b ++ [u.val]
  | .faddF64 _ d a b _ | .fsubF64 _ d a b _ | .fmulF64 _ d a b _ | .ffmaF64 _ d a b _ | .fminF64 _ d a b _
  | .fmaxF64 _ d a b _ | .wpack _ d a b _ | .addD _ d a b | .subD _ d a b => pairN d ++ psrcN a ++ psrcN b
  | .cvtF64F32 _ d a => pairN d ++ srcN a
  | .cvtF32F64 _ d a => dstN d ++ psrcN a
  | .sacc _ d a b e => dstN d ++ srcN a ++ srcN b ++ srcN e
  | .lea _ d a b _ => pairN d ++ psrcN a ++ srcN b
  | .wext _ d a _ => pairN d ++ psrcN a
  | .ld _ d a z _ _ _ => runN d (ldRegs z) ++ pairN a
  | .st _ d a z _ _ _ => runN d (stRegs z) ++ pairN a
  | .ldc _ d a z _ _ | .stc _ d a z _ _ => runN d (kRegs z) ++ pairN a
  | .lds _ d a z _ _ _ | .sts _ d a z _ _ _ => runN d (sRegs z) ++ [a.val]
  | .atomAdd _ d a z _ _ | .atomAnd _ d a z _ _ | .atomOr _ d a z _ _ | .atomXor _ d a z _ _
  | .atomMinS _ d a z _ _ | .atomMaxS _ d a z _ _ | .atomMinZ _ d a z _ _ | .atomMaxZ _ d a z _ _
  | .atomExch _ d a z _ _ | .atomXadd _ d a z _ _ => runN d (aRegs z) ++ pairN a
  | .atomCas _ d a z _ _ => runN d (2 * aRegs z) ++ pairN a
  | .atomFadd _ d a _ _ => [d.val] ++ pairN a
  | _ => []

/-- The n codes a word reads, once for each of its reads. -/
def rowReads (i : Instr) : List Nat :=
  match i with
  | .add _ _ a b _ | .sub _ _ a b _ | .min _ _ a b _ | .max _ _ a b _ | .and _ _ a b | .or _ _ a b | .xor _ _ a b
  | .shl _ _ a b | .shrS32 _ _ a b | .shrZ32 _ _ a b | .mul _ _ a b | .mulhi _ _ a b | .mulhz _ _ a b | .div _ _ a b
  | .divz _ _ a b | .rem _ _ a b | .remz _ _ a b | .bfeZ32 _ _ a b | .bfeS32 _ _ a b | .cmp _ _ a b _ _
  | .faddF32 _ _ a b _ | .fsubF32 _ _ a b _ | .fmulF32 _ _ a b _ | .fminF32 _ _ a b _ | .fmaxF32 _ _ a b _
  | .faddF16Bf16 _ _ a b _ _ | .fsubF16Bf16 _ _ a b _ _ | .fmulF16Bf16 _ _ a b _ _ | .cvtE4m3F32 _ _ a b _
  | .cvtE5m2F32 _ _ a b _ | .cvtF32E4m3 _ _ a b | .cvtF32E5m2 _ _ a b | .cvtL8F32 _ _ a b _ | .cvtL16F32 _ _ a b _
  | .cvtF32L8 _ _ a b | .cvtF32L16 _ _ a b | .cvtQ8F32 _ _ a b _ | .cvtQ4F32 _ _ a b _ | .cvtF32Q8 _ _ a b
  | .cvtF32Q4 _ _ a b | .shflIdx _ _ a b | .shflUp _ _ a b | .shflDown _ _ a b | .shflXor _ _ a b
  | .topk _ _ a b _ | .topkSeg _ _ a b _ | .xshuf _ _ a b => srcN a ++ srcN b
  | .addi _ _ a _ | .andi _ _ a _ | .ori _ _ a _ | .xori _ _ a _ | .shli _ _ a _ | .shriZ32 _ _ a _
  | .shriS32 _ _ a _ | .rsubi _ _ a _ | .popc _ _ a | .clz _ _ a | .brev _ _ a | .mov _ _ a
  | .fabsF32 _ _ a _ | .fnegF32 _ _ a _ | .rcp _ _ a _ | .rsq _ _ a _ | .sqrt _ _ a _ | .exp2 _ _ a _
  | .log2 _ _ a _ | .sin _ _ a _ | .cos _ _ a _ | .cvtF32F16 _ _ a | .cvtF32Bf16 _ _ a | .cvtF16F32 _ _ a
  | .cvtBf16F32 _ _ a | .cvtS32F32 _ _ a | .cvtS32F32Rz _ _ a | .cvtZ32F32 _ _ a | .cvtF32S32 _ _ a
  | .cvtF32Z32 _ _ a | .cvtF64F32 _ _ a | .scan _ _ a _ | .red _ _ a _ | .redSeg _ _ a _ _ | .scanSeg _ _ a _ _
  | .regroup _ _ a => srcN a
  | .bfi _ d a b => dstN d ++ srcN a ++ srcN b
  | .sel _ d a _ => dstN d ++ srcN a
  | .sacc _ d a b e => dstN d ++ srcN a ++ srcN b ++ srcN e
  | .ffmaF32 _ _ a b u | .ffmsF32 _ _ a b u | .fnmaF32 _ _ a b u | .ffmaF16Bf16 _ _ a b _ u
  | .ffmsF16Bf16 _ _ a b _ u => srcN a ++ srcN b ++ [u.val]
  | .faddF64 _ _ a b _ | .fsubF64 _ _ a b _ | .fmulF64 _ _ a b _ | .fminF64 _ _ a b _
  | .fmaxF64 _ _ a b _ | .wpack _ _ a b _ | .addD _ _ a b | .subD _ _ a b => psrcN a ++ psrcN b
  | .ffmaF64 _ d a b _ => pairN d ++ psrcN a ++ psrcN b
  | .cvtF32F64 _ _ a | .wext _ _ a _ => psrcN a
  | .lea _ _ a b _ => psrcN a ++ srcN b
  | .ld _ _ a _ _ _ _ | .ldc _ _ a _ _ _ => pairN a
  | .lds _ _ a _ _ _ _ => [a.val]
  | .st .. | .stc .. | .sts .. | .atomAdd .. | .atomAnd .. | .atomOr .. | .atomXor .. | .atomMinS .. | .atomMaxS ..
  | .atomMinZ .. | .atomMaxZ .. | .atomExch .. | .atomXadd .. | .atomCas .. | .atomFadd .. => namedN i
  | _ => []
/-- The bits of the deltas with which the device stores a row (06 R101): the least of 0, 8, 16 and 32 in which every lane's
difference from lane 0, taken as signed, fits. -/
def storedD (v : Row) : Nat :=
  let fits := fun (d : Nat) => (List.range 32).all fun l =>
    let x := (lane v l - lane v 0).toInt
    if d = 0 then x == 0 else decide (-2 ^ (d - 1) ≤ x ∧ x < 2 ^ (d - 1))
  ([0, 8, 16].find? fits).getD 32
/-- Row reads of a word served at D = 0 (20 Table 20.4, `pbcast`). -/
def bcastReads (s : State) (i : Instr) : Nat :=
  (rowReads i).countP fun j => storedD ((rW s).rows.getD (rowOf s j) zeroRow) == 0

/-- A selector at or beyond the window length: cause 0x004 (02 R31). DESIGN CHOICE (log 82): a pair or quad that is ill-aligned names the
registers from its field on, so that one reaching beyond the window raises 0x004 before 0x005. -/
def windowBars (s : State) (i : Instr) : Bool :=
  (namedN i).any fun j => decide (hWinLen (curL s).hdr (fidOf s) ≤ j)

/-- Every check of one raw word (04 R78): the cause, or the instruction. -/
def checkWord (s : State) (w : Nat) : Dec :=
  match rawCause s w with
  | some c => .error c
  | none =>
    if frondBars s.cur w || fibreBars s w then .error 0x002
    else match decodeRaw w with
      | .error c => .error c
      | .ok i => if windowBars s i then .error 0x004 else if i.wf then .ok i else .error 0x005

/-- The same checks for an instruction. -/
def illegal (s : State) (i : Instr) : Option Nat :=
  match encode i with
  | none => none
  | some w =>
    match rawCause s w with
    | some c => some c
    | none =>
      if frondBars s.cur w || fibreBars s w then some 0x002
      else if windowBars s i then some 0x004
      else if i.wf then none else some 0x005

/-- The Y bit of a word. -/
def wordY (w : Word) : Bool := w.getLsbD 30
/-- The C bit of a word. -/
def wordC (w : Word) : Bool := w.getLsbD 31

/-- The words of the chain group that begins at a slot (04 R65). -/
def groupWords : List Word → Nat → List Word
  | [], _ => []
  | w :: _, 0 => [w]
  | w :: r, n + 1 => if wordC w then w :: groupWords r n else [w]
/-- Pipes assigned to the words' majors, and none twice (04 R78). -/
def pipeClash (ws : List Word) : Bool :=
  let ps := ws.filterMap fun w => pipeOf (fld w.toNat 24 6)
  [0, 1, 2, 3, 4].any fun p => decide (1 < ps.countP fun x => x == p)
/-- The slot recorded for 0x008. DESIGN CHOICE (log 82): of two words of one pipe the later one fails. -/
def clashSlot (ws : List Word) : Nat :=
  ((List.range ws.length).find? fun n => pipeClash (ws.take (n + 1))).getD 0

/-- The checks of a group at slot `slot` (04 R78): a cause with the place of the failing word, or the instructions. -/
def checkGroup (s : State) (slot : Nat) (ws : List Word) : Except (Nat × Nat) (List Instr) :=
  if slot + ws.length = 3 && (ws.getLast?.map wordC).getD false then .error (0x009, ws.length - 1)
  else if pipeClash ws then .error (0x008, clashSlot ws)
  else
    (List.range ws.length).foldl (fun r n =>
      match r with
      | .error e => .error e
      | .ok l => match checkWord s (ws.getD n 0).toNat with
        | .error c => .error (c, n)
        | .ok i => .ok (l ++ [i])) (.ok [])

end Sys2Proof.Machine
end

