-- ==== Sys2Proof/Machine/Issue.lean ====
section
/-! DEFINITION. Issuing a chain group (04 R64 to R67): its words run against what it read, then it takes effect as one:
traps (10 R178, R193), stalls (02 R36, 10 R190), transfers (02 R27 to R30, 07 R118 to R122), waits (02 R32). -/

namespace Sys2Proof.Machine

/-- The group's record changed. -/
def modG (s : State) (g : Grp → Grp) : State :=
  match s.grp with
  | some x => { s with grp := some (g x) }
  | none => s
/-- The packet of the group. -/
def curPkt (s : State) : Word :=
  match s.grp with
  | some g => g.base.pkt
  | none => s.f.sp.pos.pkt
/-- A group of these words begins where the executing split stands. -/
def startGroup (s : State) (words : List Word) : State :=
  let g : Grp :=
    { f := s.f, w := s.w, base := s.f.sp.pos, words := words, slot := s.f.sp.pos.slot, xfer := .next, waits := []
      fault := none, stalled := false, flags := [], keep := false
      perf := match s.cur with
        | .vec k => (getCore s (coreOf k)).perf
        | _ => []
      perfCl := (getCl s (curCl s)).perf }
  { s with grp := some g }
/-- The group's next word. -/
def atSlot (s : State) (slot : Nat) : State := modG s fun g => { g with slot := slot }
/-- The word asks for a transfer. -/
def setXfer (s : State) (x : Xfer) : State := modG s fun g => { g with xfer := x }
/-- The word asks to wait. -/
def setWait (s : State) (c : Cond2) : State := modG s fun g => { g with waits := g.waits ++ [c] }
/-- The word sets flags through a pipe. -/
def raise (s : State) (pipe : Nat) (fl : Flags) : State :=
  if fl = 0 then s else modG s fun g => { g with flags := g.flags ++ [(g.slot, pipe, fl)] }
/-- The word faults; the lowest slot's fault stands (10 R193), and working copies that any word resets stay reset (04
R66, 17 R309). -/
def failWord (s : State) (cause : Nat) (lanes : LaneSet) (addr : Word64) (keep : Bool) : State :=
  modG s fun g =>
    match g.fault with
    | some (_, sl, _, _) =>
      if sl < g.slot then { g with keep := g.keep || keep }
      else { g with fault := some (cause, g.slot, lanes, addr), keep := g.keep || keep }
    | none => { g with fault := some (cause, g.slot, lanes, addr), keep := keep }

/-- A fibre held back by congestion (21 R357). -/
def throttled (s : State) : Bool :=
  match s.cur with
  | .vec k =>
    let th := (getPart s (curL s).part).vmth
    match (getCore s (coreOf k)).permit with
    | some l => th != 0 && decide (th ≤ cntOf s.f 0) && !l.contains k
    | none => false
  | _ => false

/-- One word of the group runs: it is legal, its pipe takes it, and it has its effect or says why not. -/
def issueWord (i : Instr) (body : State → R State) (s : State) : State :=
  match illegal s i with
  | some c => failWord s c (act s) 0 false
  | none =>
    if pipeOf (major i) = some 2 && throttled s then modG s fun g => { g with stalled := true }
    else match body s with
      | .ok t => t
      | .error (.fault c l a) => failWord s c l a false
      | .error (.faultKeep c l a) => failWord s c l a true
      | .error .stall => modG s fun g => { g with stalled := true }

/-! What follows a group. -/

/-- The address of the group's last word. -/
def lastPos (g : Grp) : Pos := ⟨g.base.pkt, g.base.slot + (g.words.length - 1)⟩
/-- The address after the group. -/
def afterPos (g : Grp) : Pos := (lastPos g).next
/-- The current split stands at another address. -/
def moveTo (f : Fibre) (p : Pos) : Fibre := { f with sp := { f.sp with pos := p } }
/-- The lowest free split number. -/
def freeSplit (f : Fibre) : Option Nat := [0, 1, 2, 3].find? fun i => !((allSplits f).getD i Split.none).live
/-- The call entries of a nest stack (07 R121). -/
def callsOf (l : List NestEntry) : List NestEntry := l.filter (·.isCall)

/-- `brd` (02 R27, R30, 07 R121, R122): uniform, a new split that runs at once, or the split it merged into, or a push. -/
def doBrd (f : Fibre) (taken : LaneSet) (target fall : Pos) : Fibre :=
  let t := f.sp.mask &&& taken
  let e := f.sp.mask &&& ~~~taken
  if e = 0 then moveTo f target
  else if t = 0 then moveTo f fall
  else match freeSplit f with
    | some j =>
      let new : Split := ⟨true, target, t, callsOf f.sp.nest, false, false, none, target⟩
      let f1 := { f with sp := { f.sp with mask := e, pos := fall } }
      let l := mergeAll f1 ((allSplits f1).set j new)
      let go := ([0, 1, 2, 3].find? fun i => (l.getD i Split.none).live && (l.getD i Split.none).mask &&& t == t).getD j
      dropLatches { f1 with splits := l, sp := l.getD go Split.none, cs := go, run := 0 }
    | none =>
      switchSplit { f with sp := { f.sp with mask := t, pos := target, nest := .div fall e none :: f.sp.nest } }

/-- `join` at `here`, past which the split continues at `past`, after the join's group (02 Table 2.2, 04 R67, 07 R121). -/
def doJoin (f : Fibre) (here past : Pos) : Fibre :=
  match f.sp.nest with
  | .div resume m none :: r =>
    let x := { f.sp with pos := resume, mask := m, nest := .div resume m (some (here, past, f.sp.mask)) :: r }
    switchSplit { f with sp := x }
  | .div resume m (some (jp, jn, held)) :: r =>
    if jp = here then switchSplit { f with sp := { f.sp with pos := past, mask := f.sp.mask ||| held, nest := r } }
    else switchSplit { f with sp := { f.sp with
      pos := here, past := past, parked := true, nest := .div resume m (some (jp, jn, held)) :: r } }
  | l =>
    if nSplits f = 1 then moveTo f past
    else switchSplit { f with sp := { f.sp with pos := here, past := past, parked := true, nest := l } }

/-- A nest entry without the lanes outside a set. -/
def nestMask (m : LaneSet) (e : NestEntry) : NestEntry :=
  match e with
  | .call r => .call r
  | .div r k b => .div r (k &&& m) (b.map fun x => (x.1, x.2.1, x.2.2 &&& m))
/-- A split's masks, its nest entries' among them, without the lanes outside a set. -/
def Split.keep (m : LaneSet) (x : Split) : Split := { x with mask := x.mask &&& m, nest := x.nest.map (nestMask m) }
/-- Lanes leave the fibre (02 R26, 07 R118): they are in no mask any more. -/
def exitLanes (f : Fibre) (m : LaneSet) : Fibre :=
  { f with
    live := f.live &&& ~~~m, m := f.m.map (· &&& ~~~m), sp := f.sp.keep (~~~m), splits := f.splits.map (Split.keep (~~~m)) }
/-- `halt` (07 R118). DESIGN CHOICE (log 87): a call entry on top frees the split as an empty stack does; lanes that an entry of a
divergence beneath it holds then stand in no split, and stay live. -/
def doHalt (f : Fibre) : Fibre :=
  let f1 := exitLanes f f.sp.mask
  match f1.sp.nest with
  | .div resume m none :: r => { f1 with sp := { f1.sp with pos := resume, mask := m, nest := r } }
  | .div _ _ (some (_, past, held)) :: r => { f1 with sp := { f1.sp with pos := past, mask := held, nest := r } }
  | _ => switchSplit { f1 with sp := Split.none }

/-- Working copies of axes that a fibre holds reset to the published ones (17 R306). -/
def resetAxes (s : State) (key : Nat) : State :=
  (heldAxes s (curCtx s) key).foldl (fun t x =>
    equalCopies t (curCtx s) x.1 x.2 (axisAt (getDesc t (curCtx s) x.1) x.2)) s
/-- What a fibre waits for. -/
def waitsOf (f : Fibre) : List Cond2 :=
  match f.st with
  | .waiting l => l
  | .absent | .ready | .issuing | .ended => []
/-- The condition is an exchange's. -/
def isXshuf (c : Cond2) : Bool :=
  match c with
  | .xshuf .. => true
  | _ => false
/-- The image of a fibre's group that waits (04 R66, 09 R165). -/
def imageOf (w : Warp) (fib : Nat) : Option Image := w.images.find? fun im => im.fib == fib
/-- An access of the group of an exchange that is not matched: what it does later waits, since the group may still be suppressed
(09 R165). -/
def heldByWait (s : State) (key seq : Nat) : Bool :=
  (waitsOf (getF s key)).any isXshuf && (match imageOf (getW s (key / 4)) (key % 4) with
    | some im => decide (im.f.seq ≤ seq)
    | none => false)
/-- The set of the `fbar` a fibre waits in. -/
def fbarSet (f : Fibre) : Option (BitVec 4) :=
  (waitsOf f).findSome? fun c => match c with
    | .fbar x => some x
    | _ => none
/-- A fibre leaves Waiting (02 Table 2.3, 10 R179): on stop where stop-pending is set, Trapped or not. -/
def wakeUp (f : Fibre) : Fibre :=
  if f.stopPend then { f with st := .waiting [.stop], stopPend := false } else { f with st := .ready }
/-- Conditions a fibre waits for are met; it is ready once none is left. -/
def endWait (f : Fibre) (p : Cond2 → Bool) : Fibre :=
  match f.st with
  | .waiting l => if (l.filter fun c => !p c).isEmpty then wakeUp f else { f with st := .waiting (l.filter fun c => !p c) }
  | .absent | .ready | .issuing | .ended => f
/-- The condition is an `fbar`. -/
def isFbar (c : Cond2) : Bool :=
  match c with
  | .fbar _ => true
  | _ => false
/-- The same by fibre key. -/
def arrivalsOut (s : State) (k : Nat) : Bool := arrivalsOf (getW s (k / 4)) (k % 4) || tbWaits s k
/-- Every fibre of a set stands at the `fbar` of that set, its accesses performed as far as a sibling can tell (10 R176),
or has Ended (10 R175). -/
def fbarDone (s : State) (w4 : Nat) (set : BitVec 4) : Bool :=
  [0, 1, 2, 3].all fun i =>
    !set.getLsbD i ||
    (let f := getF s (w4 * 4 + i)
     f.st == .ended || (fbarSet f == some set && !f.saved && !arrivalsOut s (w4 * 4 + i)))
/-- The barriers of a slot that are complete released (10 R175). -/
def fbarRelease (s : State) (w4 : Nat) : State :=
  let out := [0, 1, 2, 3].filter fun i =>
    match fbarSet (getF s (w4 * 4 + i)) with
    | some set => fbarDone s w4 set
    | none => false
  out.foldl (fun t i => setF t (w4 * 4 + i) (endWait (getF t (w4 * 4 + i)) isFbar)) (noteFbar s (out.map (w4 * 4 + ·)))

/-- The slots that the current fibre holds, as the commits and releases that its end asks for (23 R383). -/
def heldOps (s : State) : List TbOp :=
  (List.range 16).flatMap fun t =>
    (match tget 0 s.f.tbR t with
     | 0 => []
     | i + 1 => [⟨curWg s, curKey s, s.f.seq, t, i, true⟩]) ++
    (match tget 0 s.f.tbA t with
     | 0 => []
     | i + 1 => [⟨curWg s, curKey s, s.f.seq, t, i, false⟩])
/-- They are asked for, each a release at cluster scope. -/
def dropHeld (s0 : State) : State :=
  let s := (heldOps s0).foldl (fun t o => noteRel t (tbKey t o.t o.slot) (tbScope o.t)) s0
  if (heldOps s).isEmpty then s
  else post { modCl s (curCl s) fun c => { c with tbq := c.tbq ++ heldOps s } with f := { s.f with tbR := [], tbA := [] } }
    [.tbApply (curCl s)]
/-- The current fibre, stream or prologue has Ended (02 R32, 07 R117): streams unbound, held axes reset (unless an
`axpub` of it is still to flip them: 17 R309), held slots let go; its warp may retire, a rendezvous may be complete (09 R168). -/
def fibreEnds (s0 : State) : State :=
  let s := dropHeld s0
  let f := { s.f with
    st := .ended, trapped := false, hnd := none, streams := List.replicate 4 Stream.unbound, stopPend := false }
  let flips := s.w.pend.any fun p => p.fib == fidOf s && (match p.kind with
    | .publish flip .. => flip
    | _ => false)
  let s1 := if flips then { s with f := f } else resetAxes { s with f := f } (curKey s)
  match s.cur with
  | .vec k =>
    post (fbarRelease s1 (k / 4)) ([.retire (k / 4)] ++
      [0, 1, 2, 3].map (fun f => .regroup s.w.launch s.w.g f) ++
      (if (getCl s (curCl s)).cmds.any fun c => c.fib == k && c.held.isSome then [.copyLine (curCl s)] else []))
  | .frond c => post s1 [.frondEnd c]
  | .prol q => post s1 [.indirect q]
  | .none => s1

/-- The address after the group at an address, from its code words. -/
def groupEnd (s : State) (p : Pos) : Pos :=
  match codeWords s (whoCur s) p.pkt with
  | .ok ws => Pos.next ⟨p.pkt, p.slot + (groupWords (ws.drop p.slot) (2 - p.slot)).length - 1⟩
  | .error _ => p.nextPkt
/-- At `tret` the fibre's commands whose failure was delivered resume at the line that failed, which is performed again, but one whose record was lost, which is abandoned
(16 R293). -/
def resumeCmds (s : State) : State :=
  let cl := curCl s
  let mine := fun (c : Cmd) => c.fib == curKey s && c.delivered
  let lost := fun (c : Cmd) => mine c && (match c.held with
    | some (cause, _) => cause == 0x187
    | none => false)
  let l := (getCl s cl).cmds
  if !l.any mine then s
  else
    let t := modCl s cl fun c => { c with
      cmds := (c.cmds.filter fun x => !lost x).map fun x => if mine x then { x with held := none, delivered := false, strec := none, idx := none, paid := false, again := true } else x }
    let u := (l.filter lost).foldl (fun (t : State) _ => { t with f := cntDown t.f 2 }) t
    post u [.copyLine cl, .copyStart cl, .goAccept cl]
/-- `tret` (10 R181). -/
def doTret (s0 : State) : State :=
  let s := refetch (resumeCmds s0)
  match s.f.hnd with
  | none => s
  | some h =>
    let pos := if s.f.trap.resume then h.after.getD (groupEnd s h.pos) else h.pos
    let f1 := { s.f with
      hnd := none, trapped := false, splits := s.f.splits.map fun x => { x with faulted := false }
      sp := { s.f.sp with pos := pos, mask := h.mask, nest := h.nest, parked := false, faulted := false, buf := none } }
    { s with f := wakeUp (dropLatches f1) }

/-- The transfer of a group made (04 R62, R67). -/
def applyXfer (s : State) (g : Grp) : State :=
  match g.xfer with
  | .next => { s with f := moveTo s.f (afterPos g) }
  | .jump p => { s with f := moveTo s.f p }
  | .brd taken p => { s with f := doBrd s.f taken p g.base.nextPkt }
  | .join slot => { s with f := doJoin s.f ⟨g.base.pkt, slot⟩ (afterPos g) }
  | .yield => { s with f := dropLatches { moveTo s.f (afterPos g) with st := .ready } }
  | .tret => doTret s
  | .halt =>
    match s.cur with
    | .vec _ =>
      let f := doHalt s.f
      if f.live = 0 then fibreEnds { s with f := f } else { s with f := f }
    | _ => fibreEnds s

/-- The split that issued gives way after 256 groups (02 R30). -/
def countRun (f : Fibre) (cs : Nat) : Fibre :=
  if f.cs ≠ cs then f
  else if 255 ≤ f.run then switchSplit f
  else { f with run := f.run + 1 }

/-- A stop that is pending takes effect at a group boundary (10 Table 10.3). -/
def stopAtBoundary (f : Fibre) : Fibre :=
  match f.st with
  | .issuing | .ready => if f.stopPend && !f.trapped then { f with st := .waiting [.stop], stopPend := false } else f
  | _ => f

/-- A breakpoint register stands at a packet. -/
def brkHits (s : State) (r : Word64) (pkt : Word) : Bool :=
  r.getLsbD 32 && bf r.toNat 0 32 == pkt.toNat && debugPart s (bf r.toNat 33 4)
/-- SSTEP names the current agent. -/
def stepHits (s : State) (r : Word64) : Bool :=
  r.getLsbD 8 &&
  match s.cur with
  | .vec k => !r.getLsbD 9 && k % 256 == bf r.toNat 0 2 * 64 + bf r.toNat 2 4 * 4 + bf r.toNat 6 2
  | .frond _ => r.getLsbD 9
  | _ => false
/-- Breakpoint and single step of a group that issued outside the handler split. -/
def debugNow (s : State) (g : Grp) : State :=
  if inHandler g.f then s
  else
    let c := getCl s (curCl s)
    match s.cur with
    | .prol _ | .none => s
    | .vec _ | .frond _ =>
      let s1 := if brkHits s c.brk0 g.base.pkt || brkHits s c.brk1 g.base.pkt then
        debugHold s 0x1E1 (g.words.headD 0) 0 g.f.sp.mask g.base.slot else s
      if stepHits s c.sstep then debugHold s1 0x1E3 (g.words.headD 0) 0 g.f.sp.mask g.base.slot else s1

/-- The conditions a group's words wait for (02 Table 2.3); a stop beside another condition, or one that `tret` found
pending, is pending. A fibre whose last
lane exited in the group has Ended (07 R118). -/
def startWait (f : Fibre) (l : List Cond2) : Fibre :=
  let others := l.filter fun c => c != .stop
  if l.isEmpty || f.st == .ended then f
  else if others.isEmpty then { f with st := .waiting [.stop] }
  else { f with st := .waiting others, stopPend := f.stopPend || l.contains .stop || f.st == .waiting [.stop] }
/-- The words of a prologue's run counted (22 R370): a run that issues more than 65,536 ends. -/
def countProl (s : State) (n : Nat) : State :=
  match s.cur with
  | .prol q =>
    let t := modQ s q fun x => { x with prol := x.prol.map fun p => { p with words := p.words + n } }
    match (getQ t q).prol with
    | some p => if 65536 < p.words && t.f.st != .ended then post { t with f := { t.f with st := .ended } } [.indirect q] else t
    | none => t
  | _ => s
/-- A fibre that Ended in a group waits for no result of it. -/
def dropEnded (s : State) : State :=
  if s.f.st = .ended then
    { s with w := { s.w with pend := s.w.pend.filter fun p => !(p.fib == fidOf s && p.kind == .result) } }
  else s
/-- The image of a group that waits in an exchange or a regroup: the state without the group, the rows it leaves. -/
def keepImage (pre post : State) (waits : List Cond2) : State :=
  let later := waits.any fun c => match c with
    | .xshuf .. | .regroup .. => true
    | _ => false
  if later then
    let im : Image := ⟨fidOf pre, pre.f, pre.w.rows, pre.w.pois, pre.w.pend, post.w.rows, post.w.pois, []⟩
    { post with w := { post.w with images := (post.w.images.filter fun x => x.fib != fidOf pre) ++ [im] } }
  else post
/-- Row reads of a group's words served at D = 0 (06 R101, 20 Table 20.4). -/
def groupBcasts (s : State) (g : Grp) : Nat :=
  g.words.foldl (fun n w => match decodeRaw w.toNat with
    | .ok i => n + bcastReads s i
    | .error _ => n) 0
/-- A group that issued with its effects. -/
def commit (pre post0 : State) (g : Grp) : State :=
  let post := keepImage pre post0 g.waits
  let s1 := { post with
    grp := none, f := { addFlags post.f (orFlags g.flags) with gpos := g.base }, w := { post.w with stall := 0 } }
  let s2 := debugNow (perfCur (perfCur (perfCur s1 0x23 1) 0x24 g.words.length) 0x29 (groupBcasts pre g)) g
  let s3 := if g.waits.isEmpty then applyXfer s2 g else dropEnded (applyXfer s2 g)
  let s4 := { s3 with f := startWait s3.f g.waits }
  let f5 := if g.waits.isEmpty then countRun s4.f pre.f.cs else if s4.f.cs = pre.f.cs then { s4.f with run := s4.f.run + 1 } else s4.f
  let s5 := { s4 with f := stopAtBoundary f5 }
  let s6 := if s5.f.cs = pre.f.cs then s5 else perfCur s5 0x27 1
  match s6.cur with
  | .vec k => if g.waits.any isFbar then fbarRelease s6 (k / 4) else s6
  | _ => countProl s6 g.words.length

/-- A request for more rows recorded (10 R187): which fibre and split, how many, its age. DESIGN CHOICE (log 68): a request
whose fibre leaves the `rgrow` without it (a watchdog trap, whose handler may pass over it) stands and is granted. -/
def recordGrow (s : State) (ws : List Word) : State :=
  match s.cur, ws.find? fun w => fld w.toNat 24 6 == 7 && fld w.toNat 8 4 == 4 with
  | .vec k, some w =>
    if s.w.rg.any (fun x => x.1 == k % 4 && x.2.1 == s.f.cs) || bf w.toNat 0 8 ≤ s.w.rows.length then s
    else
      let c := coreOf k
      post (modCore { s with w := { s.w with rg := s.w.rg ++ [(k % 4, s.f.cs, bf w.toNat 0 8, (getCore s c).nextOrder)] } } c
        fun x => { x with nextOrder := x.nextOrder + 1 }) [.rgrow c]
  | _, _ => s

/-- A group that is not ready (02 R30, R33, R36): with Y the fibre passes the slot, else the slot stalls; another split
may run. A slot that has stalled 2^wdlg times in a row is due for the watchdog (10 R190). -/
def stallGroup (pre0 : State) (g : Grp) : State :=
  let pre := recordGrow pre0 g.words
  match pre.cur with
  | .vec k =>
    let f := switchSplit pre.f
    let t := if f.cs = pre.f.cs then pre else perfCur pre 0x27 1
    if wordY (g.words.headD 0) then { t with f := dropLatches { f with st := .ready }, w := { pre.w with stall := 0 } }
    else
      let wdlg := (getPart pre (curL pre).part).wdlg
      let due := wdlg != 0 && (pre.w.stall + 1) % 2 ^ wdlg == 0
      post { t with f := f, w := { pre.w with stall := pre.w.stall + 1, stallAt := pre.f.cs } } (if due then [.watchdog (.vec k)] else [])
  | _ => pre

/-- The steps of an `atom.xadd` that traps on XO stay performed, and nothing else of its group (13 R241). -/
def keepAdds (pre post : State) : State :=
  let us := post.hist.filter fun u => u.rd && u.wr && u.cls != .sync && decide (nextPo pre.hist ≤ u.po)
  us.reverse.foldl (fun t u => (List.range u.size).foldl (fun t i => setClsByte t u.cls (u.addr + i) (u.byteOf u.val (u.addr + i))) t)
    { pre with hist := us ++ pre.hist }

/-- A trap of a group (04 R66, 10 R178): `pre` is the state its effects were not made in. A word raises 0x1F2 for a latch bank
(11 R217), whose `mxmul` issues again (R216): only a refused write has resume = 1. -/
def trapGroup (pre : State) (g : Grp) (cause slot : Nat) (lanes : LaneSet) (addr : Word64) : State :=
  enterTrap pre
    { cause := cause, wslot := slot, tword := g.words.getD (slot - g.base.slot) 0, lanes := lanes, addr := addr
      base := g.base, resume := resumes cause && cause != 0x1F2, after := some (afterPos g) }

/-- The group takes effect as one (04 R66, 10 R193). -/
def finishGroup (pre post : State) : State :=
  match post.grp with
  | none => post
  | some g =>
    if g.stalled then stallGroup pre g
    else match g.fault with
      | some (cause, slot, lanes, addr) =>
        trapGroup (if g.keep then resetAxes { pre with f := { pre.f with lostAxis := false } } (curKey pre) else pre) g cause slot lanes addr
      | none =>
        match arithTrap (teNow pre.f) g.flags with
        | some (cause, slot) =>
          let kept := { pre with f := addFlags pre.f (orFlags g.flags) }
          trapGroup (if teNow pre.f &&& orFlags g.flags &&& flagXO ≠ 0 then keepAdds kept post else kept) g cause slot
            (act pre) 0
        | none => commit pre post g

/-- The raw bits of an instruction. -/
def wordBits (i : Instr) : Word := BitVec.ofNat 32 ((encode i).getD 0)
/-- A word of the group being executed, or a group of this one word. -/
def runWord (i : Instr) (body : State → R State) (s : State) : State :=
  match s.grp with
  | some _ => issueWord i body s
  | none => finishGroup s (issueWord i body (startGroup s [wordBits i]))

/-! Operands by selector. -/

/-- A source: the state after (a stream moves), the row, the lanes with a live element (08 R135). -/
def readSrc (s : State) (x : Src) : R (State × Row × LaneSet) := do
  let all : LaneSet := 0xFFFFFFFF#32
  match x with
  | .n j => return (s, ← readN s j.val, all)
  | .q i => return (s, ← readQ s i.val, all)
  | .b i => return (s, ← readB s i.val, all)
  | .st i => readStream s i.val
  | .k i => return (s, rowBroadcast (← readK s (Fin.ofNat 16 i.val)), all)
  | .z => return (s, zeroRow, all)
  | .lane => return (s, rowGen fun l => BitVec.ofNat 32 l, all)
  | .fid => return (s, rowBroadcast (BitVec.ofNat 32 (fidOf s)), all)

/-- A pair source: low and high rows. -/
def readPair (s : State) (x : PSrc) : R (Row × Row) := do
  match x with
  | .n j => return (← readN s j.val, ← readN s (j.val + 1))
  | .k i =>
    return (rowBroadcast (← readK s (Fin.ofNat 16 i.val)), rowBroadcast (← readK s (Fin.ofNat 16 (i.val + 1))))

/-- A result written: the element of n, the result queue, a stream; the latch of the pipe (06 R103, R104). -/
def writeDst (s : State) (pipe : Nat) (d : Dst) (v : Row) : R State := do
  match d with
  | .n j =>
    haveRow s j.val
    return latchRes (pushRes (writeN s j.val v) v) pipe v
  | .q => return latchRes (pushRes s v) pipe v
  | .st i => return latchRes (← writeStream s i.val v) pipe v
  | .none => return latchRes s pipe v

/-- A pair result: the queue entry and the latch take the low register (07 R133). -/
def writePair (s : State) (pipe : Nat) (d : NReg) (lo hi : Row) : R State := do
  haveRow s d.val
  haveRow s (d.val + 1)
  return latchRes (pushRes (writeN (writeN s d.val lo) (d.val + 1) hi) lo) pipe lo

/-- d's old element (07 R130, R132): zero where d holds none to read back. -/
def readOld (s : State) (d : Dst) : R Row := do
  match d with
  | .n j => readN s j.val
  | .q | .st _ | .none => return zeroRow

/-- A word with one source. -/
def vec1 (pipe : Nat) (d : Dst) (a : Src) (f : Word → Word) (s : State) : R State := do
  let (s1, x, _) ← readSrc s a
  writeDst s1 pipe d (rowGen fun l => f (lane x l))
/-- A word with two sources. -/
def vec2 (pipe : Nat) (d : Dst) (a b : Src) (f : Word → Word → Word) (s : State) : R State := do
  let (s1, x, _) ← readSrc s a
  let (s2, y, _) ← readSrc s1 b
  writeDst s2 pipe d (rowGen fun l => f (lane x l) (lane y l))

/-- The flags of the lanes of a set. -/
def lanesFlags (m : LaneSet) (f : Nat → Flags) : Flags := (lanesOf m).foldl (fun a l => a ||| f l) 0#8
/-- A word with one source and flags (08 R135). -/
def flag1 (pipe : Nat) (d : Dst) (a : Src) (f : Word → Word × Flags) (s : State) : R State := do
  let (s1, x, m) ← readSrc s a
  let s2 ← writeDst s1 pipe d (rowGen fun l => (f (lane x l)).1)
  return raise s2 pipe (lanesFlags (act s &&& m) fun l => (f (lane x l)).2)
/-- A word with two sources and flags. -/
def flag2 (pipe : Nat) (d : Dst) (a b : Src) (f : Word → Word → Word × Flags) (s : State) : R State := do
  let (s1, x, m) ← readSrc s a
  let (s2, y, n) ← readSrc s1 b
  let s3 ← writeDst s2 pipe d (rowGen fun l => (f (lane x l) (lane y l)).1)
  return raise s3 pipe (lanesFlags (act s &&& m &&& n) fun l => (f (lane x l) (lane y l)).2)
/-- A word with three sources and flags, the third an n-register. -/
def flag3 (pipe : Nat) (d : Dst) (a b : Src) (c : Nat) (f : Word → Word → Word → Word × Flags) (s : State) :
    R State := do
  let (s1, x, m) ← readSrc s a
  let (s2, y, n) ← readSrc s1 b
  let z ← readN s2 c
  let s3 ← writeDst s2 pipe d (rowGen fun l => (f (lane x l) (lane y l) (lane z l)).1)
  return raise s3 pipe (lanesFlags (act s &&& m &&& n) fun l => (f (lane x l) (lane y l) (lane z l)).2)

end Sys2Proof.Machine
end

