-- ==== Sys2Proof/Machine/Control.lean ====
section
/-! DEFINITION. Majors 0x00 to 0x05: no operation, halt, branches, calls, divergence, masks, k-registers (07 R117 to
R126). -/

namespace Sys2Proof.Machine

/-- The fibre as it stood before the group. -/
def preF (s : State) : Fibre :=
  match s.grp with
  | some g => g.f
  | none => s.f

/-- Slot 0 of the packet at a signed offset (07 R119). -/
def branchTo (s : State) (o : BitVec 20) : Pos := ⟨curPkt s + o.signExtend 32, 0⟩

/-- A branch condition (04 Table 4.5). -/
def condHolds (s : State) (c : Cond) : Bool :=
  match c with
  | .al => true
  | .kt => kcGet (rF s)
  | .kf => !kcGet (rF s)
  | .any => (readM s 0 &&& act s) != 0
  | .all => (readM s 0 &&& act s) == act s
  | .none => (readM s 0 &&& act s) == 0
  | .eod i => branchEod ((preF s).streams.getD i.val Stream.unbound)
  | .neod i => !branchEod ((preF s).streams.getD i.val Stream.unbound)

/-- `nop` (R117). -/
def execNop (p : Pfx) (s : State) : Host.Outcome State Fault Refusal := .next (runWord (.nop p) (fun s => .ok s) s)
/-- `halt`; in the handler split it is a nested trap (R117, R118, 10 R180). -/
def execHalt (p : Pfx) (s : State) : Host.Outcome State Fault Refusal :=
  .next (runWord (.halt p) (fun s => if inHandler s.f then faultAll s 0x1E9 else .ok (setXfer s .halt)) s)
/-- `bra` (R119). -/
def execBra (p : Pfx) (k : Cond) (o : BitVec 20) (s : State) : Host.Outcome State Fault Refusal :=
  .next (runWord (.bra p k o)
    (fun s => .ok (if condHolds s k then setXfer s (.jump (branchTo s o)) else s)) s)

/-- A push on the executing split's nest stack, or cause 0x143 (R120). -/
def pushNest (s : State) (e : NestEntry) : R State :=
  if 8 ≤ s.f.sp.nest.length then faultAll s 0x143
  else .ok { s with f := { s.f with sp := { s.f.sp with nest := e :: s.f.sp.nest } } }
/-- `call` (R120). -/
def execCall (p : Pfx) (o : BitVec 20) (s : State) : Host.Outcome State Fault Refusal :=
  .next (runWord (.call p o) (fun s => do
    let t ← pushNest s (.call ⟨curPkt s + 1, 0⟩)
    return setXfer t (.jump (branchTo s o))) s)
/-- `ret` (R120). -/
def execRet (p : Pfx) (s : State) : Host.Outcome State Fault Refusal :=
  .next (runWord (.ret p) (fun s =>
    match s.f.sp.nest with
    | .call r :: l => .ok (setXfer { s with f := { s.f with sp := { s.f.sp with nest := l } } } (.jump r))
    | _ => faultAll s 0x148) s)
/-- `jmp` (R120). -/
def execJmp (p : Pfx) (k : KReg) (s : State) : Host.Outcome State Fault Refusal :=
  .next (runWord (.jmp p k) (fun s => do
    let v ← readK s k
    return setXfer s (.jump ⟨v, 0⟩)) s)

/-- `brd` (R122, 02 R27); divergence in the handler split is a nested trap (10 R180). -/
def execBrd (p : Pfx) (m : MReg) (o : BitVec 20) (s : State) : Host.Outcome State Fault Refusal :=
  .next (runWord (.brd p m o) (fun s =>
    let t := readM s m
    if t &&& act s ≠ 0 ∧ ~~~t &&& act s ≠ 0 ∧ inHandler s.f = true then faultAll s 0x1E9
    else if t &&& act s ≠ 0 ∧ ~~~t &&& act s ≠ 0 ∧ freeSplit s.f = none ∧ 8 ≤ s.f.sp.nest.length then faultAll s 0x143
    else .ok (setXfer s (.brd t (branchTo s o)))) s)
/-- `join` (02 R28). -/
def execJoin (p : Pfx) (s : State) : Host.Outcome State Fault Refusal :=
  .next (runWord (.join p) (fun s => .ok (setXfer s (.join (curSlot s)))) s)

/-- `mand` (R123). -/
def execMand (p : Pfx) (d a b : MReg) (s : State) : Host.Outcome State Fault Refusal :=
  .next (runWord (.mand p d a b) (fun s => .ok (writeM s d.val (readM s a &&& readM s b))) s)
/-- `mor`. -/
def execMor (p : Pfx) (d a b : MReg) (s : State) : Host.Outcome State Fault Refusal :=
  .next (runWord (.mor p d a b) (fun s => .ok (writeM s d.val (readM s a ||| readM s b))) s)
/-- `mnot`. -/
def execMnot (p : Pfx) (d a : MReg) (s : State) : Host.Outcome State Fault Refusal :=
  .next (runWord (.mnot p d a) (fun s => .ok (writeM s d.val (~~~(readM s a)))) s)
/-- `mmov`. -/
def execMmov (p : Pfx) (d a : MReg) (s : State) : Host.Outcome State Fault Refusal :=
  .next (runWord (.mmov p d a) (fun s => .ok (writeM s d.val (readM s a))) s)

/-- A scalar word with two k sources (R124). -/
def scal2 (d a b : KReg) (f : Word → Word → Word) (s : State) : R State := do
  let x ← readK s a
  let y ← readK s b
  return writeK s d.val (f x y)
/-- A scalar comparison: kc and k[d] (R124). -/
def scalCmp (d a b : KReg) (f : Word → Word → Bool) (s : State) : R State := do
  let x ← readK s a
  let y ← readK s b
  return writeK (writeKc s (f x y)) d.val (if f x y then 1 else 0)
/-- A scalar word with one k source. -/
def scal1 (d a : KReg) (f : Word → Word) (s : State) : R State := do
  let x ← readK s a
  return writeK s d.val (f x)

/-- `kadd` (R124). -/
def execKadd (p : Pfx) (d a b : KReg) (s : State) : Host.Outcome State Fault Refusal :=
  .next (runWord (.kadd p d a b) (scal2 d a b (· + ·)) s)
/-- `ksub`. -/
def execKsub (p : Pfx) (d a b : KReg) (s : State) : Host.Outcome State Fault Refusal :=
  .next (runWord (.ksub p d a b) (scal2 d a b (· - ·)) s)
/-- `kand`. -/
def execKand (p : Pfx) (d a b : KReg) (s : State) : Host.Outcome State Fault Refusal :=
  .next (runWord (.kand p d a b) (scal2 d a b (· &&& ·)) s)
/-- `kor`. -/
def execKor (p : Pfx) (d a b : KReg) (s : State) : Host.Outcome State Fault Refusal :=
  .next (runWord (.kor p d a b) (scal2 d a b (· ||| ·)) s)
/-- `kxor`. -/
def execKxor (p : Pfx) (d a b : KReg) (s : State) : Host.Outcome State Fault Refusal :=
  .next (runWord (.kxor p d a b) (scal2 d a b (· ^^^ ·)) s)
/-- `kshl`. -/
def execKshl (p : Pfx) (d a b : KReg) (s : State) : Host.Outcome State Fault Refusal :=
  .next (runWord (.kshl p d a b) (scal2 d a b fun x y => x <<< shiftCount y) s)
/-- `kshr.z32`. -/
def execKshrZ32 (p : Pfx) (d a b : KReg) (s : State) : Host.Outcome State Fault Refusal :=
  .next (runWord (.kshrZ32 p d a b) (scal2 d a b fun x y => x >>> shiftCount y) s)
/-- `kshr.s32`. -/
def execKshrS32 (p : Pfx) (d a b : KReg) (s : State) : Host.Outcome State Fault Refusal :=
  .next (runWord (.kshrS32 p d a b) (scal2 d a b fun x y => x.sshiftRight (shiftCount y)) s)
/-- `kmul`. -/
def execKmul (p : Pfx) (d a b : KReg) (s : State) : Host.Outcome State Fault Refusal :=
  .next (runWord (.kmul p d a b) (scal2 d a b (· * ·)) s)
/-- `kmin.s32`. -/
def execKminS32 (p : Pfx) (d a b : KReg) (s : State) : Host.Outcome State Fault Refusal :=
  .next (runWord (.kminS32 p d a b) (scal2 d a b (minMax true false)) s)
/-- `kmin.z32`. -/
def execKminZ32 (p : Pfx) (d a b : KReg) (s : State) : Host.Outcome State Fault Refusal :=
  .next (runWord (.kminZ32 p d a b) (scal2 d a b (minMax false false)) s)
/-- `kmax.s32`. -/
def execKmaxS32 (p : Pfx) (d a b : KReg) (s : State) : Host.Outcome State Fault Refusal :=
  .next (runWord (.kmaxS32 p d a b) (scal2 d a b (minMax true true)) s)
/-- `kmax.z32`. -/
def execKmaxZ32 (p : Pfx) (d a b : KReg) (s : State) : Host.Outcome State Fault Refusal :=
  .next (runWord (.kmaxZ32 p d a b) (scal2 d a b (minMax false true)) s)
/-- `kcmp.b32.eq`. -/
def execKcmpEq (p : Pfx) (d a b : KReg) (s : State) : Host.Outcome State Fault Refusal :=
  .next (runWord (.kcmpEq p d a b) (scalCmp d a b (compare32 true 0)) s)
/-- `kcmp.b32.ne`. -/
def execKcmpNe (p : Pfx) (d a b : KReg) (s : State) : Host.Outcome State Fault Refusal :=
  .next (runWord (.kcmpNe p d a b) (scalCmp d a b (compare32 true 1)) s)
/-- `kcmp.s32.lt`. -/
def execKcmpS32Lt (p : Pfx) (d a b : KReg) (s : State) : Host.Outcome State Fault Refusal :=
  .next (runWord (.kcmpS32Lt p d a b) (scalCmp d a b (compare32 true 2)) s)
/-- `kcmp.z32.lt`. -/
def execKcmpZ32Lt (p : Pfx) (d a b : KReg) (s : State) : Host.Outcome State Fault Refusal :=
  .next (runWord (.kcmpZ32Lt p d a b) (scalCmp d a b (compare32 false 2)) s)
/-- `kcmp.s32.le`. -/
def execKcmpS32Le (p : Pfx) (d a b : KReg) (s : State) : Host.Outcome State Fault Refusal :=
  .next (runWord (.kcmpS32Le p d a b) (scalCmp d a b (compare32 true 3)) s)
/-- `kcmp.z32.le`. -/
def execKcmpZ32Le (p : Pfx) (d a b : KReg) (s : State) : Host.Outcome State Fault Refusal :=
  .next (runWord (.kcmpZ32Le p d a b) (scalCmp d a b (compare32 false 3)) s)
/-- `kmov`. -/
def execKmov (p : Pfx) (d a : KReg) (s : State) : Host.Outcome State Fault Refusal :=
  .next (runWord (.kmov p d a) (scal1 d a id) s)

/-- imm9, sign-extended (04 R69). -/
def sext9 (i : BitVec 9) : Word := i.signExtend 32
/-- `kaddi` (R125). -/
def execKaddi (p : Pfx) (d a : KReg) (i : BitVec 9) (s : State) : Host.Outcome State Fault Refusal :=
  .next (runWord (.kaddi p d a i) (scal1 d a (· + sext9 i)) s)
/-- `kandi`. -/
def execKandi (p : Pfx) (d a : KReg) (i : BitVec 9) (s : State) : Host.Outcome State Fault Refusal :=
  .next (runWord (.kandi p d a i) (scal1 d a (· &&& sext9 i)) s)
/-- `kori`. -/
def execKori (p : Pfx) (d a : KReg) (i : BitVec 9) (s : State) : Host.Outcome State Fault Refusal :=
  .next (runWord (.kori p d a i) (scal1 d a (· ||| sext9 i)) s)
/-- `kxori`. -/
def execKxori (p : Pfx) (d a : KReg) (i : BitVec 9) (s : State) : Host.Outcome State Fault Refusal :=
  .next (runWord (.kxori p d a i) (scal1 d a (· ^^^ sext9 i)) s)
/-- `kshli`. -/
def execKshli (p : Pfx) (d a : KReg) (i : Fin 32) (s : State) : Host.Outcome State Fault Refusal :=
  .next (runWord (.kshli p d a i) (scal1 d a (· <<< i.val)) s)
/-- `kshri.z32`. -/
def execKshriZ32 (p : Pfx) (d a : KReg) (i : Fin 32) (s : State) : Host.Outcome State Fault Refusal :=
  .next (runWord (.kshriZ32 p d a i) (scal1 d a (· >>> i.val)) s)
/-- `kshri.s32`. -/
def execKshriS32 (p : Pfx) (d a : KReg) (i : Fin 32) (s : State) : Host.Outcome State Fault Refusal :=
  .next (runWord (.kshriS32 p d a i) (scal1 d a fun x => x.sshiftRight i.val) s)
/-- `kmovi`. -/
def execKmovi (p : Pfx) (d : KReg) (i : BitVec 9) (s : State) : Host.Outcome State Fault Refusal :=
  .next (runWord (.kmovi p d i) (fun s => .ok (writeK s d.val (sext9 i))) s)

end Sys2Proof.Machine
end

