-- ==== Sys2Proof/Machine/IntAlu.lean ====
section
/-! DEFINITION. Majors 0x10 to 0x15 and 0x21: vector integer arithmetic, compares, moves, 64-bit addresses and work
identifiers (07 R127 to R134). -/

namespace Sys2Proof.Machine

/-- `add` by type (04 Table 4.7). -/
def addOf (t : IType) (x y : Word) : Word :=
  match t with
  | .s32 | .z32 => x + y
  | .s16 | .z16 => onHalves (· + ·) x y
/-- `sub` by type. -/
def subOf (t : IType) (x y : Word) : Word :=
  match t with
  | .s32 | .z32 => x - y
  | .s16 | .z16 => onHalves (· - ·) x y
/-- `min` and `max` by type. -/
def minMaxOf (t : IType) (mx : Bool) (x y : Word) : Word :=
  match t with
  | .s32 => minMax true mx x y
  | .z32 => minMax false mx x y
  | .s16 => onHalves (minMax true mx) x y
  | .z16 => onHalves (minMax false mx) x y
/-- Code of a condition (R131). -/
def cmpCode (e : CmpOp) : Nat :=
  match e with
  | .eq => 0
  | .ne => 1
  | .lt => 2
  | .le => 3
  | .gt => 4
  | .ge => 5
/-- A lane's 64-bit value of a pair of rows. -/
def lane64 (x : Row × Row) (l : Nat) : Word64 := pair64 (lane x.1 l) (lane x.2 l)
/-- A pair result by lane. -/
def writePair64 (s : State) (pipe : Nat) (d : NReg) (f : Nat → Word64) : R State :=
  writePair s pipe d (rowGen fun l => lo32 (f l)) (rowGen fun l => hi32 (f l))
/-- A word on pairs. -/
def pair2 (pipe : Nat) (d : NReg) (a b : PSrc) (f : Word64 → Word64 → Word64) (s : State) : R State := do
  let x ← readPair s a
  let y ← readPair s b
  writePair64 s pipe d fun l => f (lane64 x l) (lane64 y l)
/-- The launch's widths w0 to w5 (06 R112). -/
def cutWidths (s : State) : List Nat := [0, 1, 2, 3, 4, 5].map (hWidth (curL s).hdr)

/-- `add` (R127). -/
def execAdd (p : Pfx) (d : Dst) (a : Src) (b : Src) (t : IType) (s : State) : Host.Outcome State Fault Refusal :=
  .next (runWord (.add p d a b t) (vec2 0 d a b (addOf t)) s)
/-- `sub`. -/
def execSub (p : Pfx) (d : Dst) (a : Src) (b : Src) (t : IType) (s : State) : Host.Outcome State Fault Refusal :=
  .next (runWord (.sub p d a b t) (vec2 0 d a b (subOf t)) s)
/-- `min`. -/
def execMin (p : Pfx) (d : Dst) (a : Src) (b : Src) (t : IType) (s : State) : Host.Outcome State Fault Refusal :=
  .next (runWord (.min p d a b t) (vec2 0 d a b (minMaxOf t false)) s)
/-- `max`. -/
def execMax (p : Pfx) (d : Dst) (a : Src) (b : Src) (t : IType) (s : State) : Host.Outcome State Fault Refusal :=
  .next (runWord (.max p d a b t) (vec2 0 d a b (minMaxOf t true)) s)
/-- `and`. -/
def execAnd (p : Pfx) (d : Dst) (a : Src) (b : Src) (s : State) : Host.Outcome State Fault Refusal :=
  .next (runWord (.and p d a b) (vec2 0 d a b (· &&& ·)) s)
/-- `or`. -/
def execOr (p : Pfx) (d : Dst) (a : Src) (b : Src) (s : State) : Host.Outcome State Fault Refusal :=
  .next (runWord (.or p d a b) (vec2 0 d a b (· ||| ·)) s)
/-- `xor`. -/
def execXor (p : Pfx) (d : Dst) (a : Src) (b : Src) (s : State) : Host.Outcome State Fault Refusal :=
  .next (runWord (.xor p d a b) (vec2 0 d a b (· ^^^ ·)) s)
/-- `shl`. -/
def execShl (p : Pfx) (d : Dst) (a : Src) (b : Src) (s : State) : Host.Outcome State Fault Refusal :=
  .next (runWord (.shl p d a b) (vec2 0 d a b fun x y => x <<< shiftCount y) s)
/-- `shr.s32`. -/
def execShrS32 (p : Pfx) (d : Dst) (a : Src) (b : Src) (s : State) : Host.Outcome State Fault Refusal :=
  .next (runWord (.shrS32 p d a b) (vec2 0 d a b fun x y => x.sshiftRight (shiftCount y)) s)
/-- `shr.z32`. -/
def execShrZ32 (p : Pfx) (d : Dst) (a : Src) (b : Src) (s : State) : Host.Outcome State Fault Refusal :=
  .next (runWord (.shrZ32 p d a b) (vec2 0 d a b fun x y => x >>> shiftCount y) s)
/-- `addi` (R128). -/
def execAddi (p : Pfx) (d : Dst) (a : Src) (i : BitVec 9) (s : State) : Host.Outcome State Fault Refusal :=
  .next (runWord (.addi p d a i) (vec1 0 d a (· + sext9 i)) s)
/-- `andi`. -/
def execAndi (p : Pfx) (d : Dst) (a : Src) (i : BitVec 9) (s : State) : Host.Outcome State Fault Refusal :=
  .next (runWord (.andi p d a i) (vec1 0 d a (· &&& sext9 i)) s)
/-- `ori`. -/
def execOri (p : Pfx) (d : Dst) (a : Src) (i : BitVec 9) (s : State) : Host.Outcome State Fault Refusal :=
  .next (runWord (.ori p d a i) (vec1 0 d a (· ||| sext9 i)) s)
/-- `xori`. -/
def execXori (p : Pfx) (d : Dst) (a : Src) (i : BitVec 9) (s : State) : Host.Outcome State Fault Refusal :=
  .next (runWord (.xori p d a i) (vec1 0 d a (· ^^^ sext9 i)) s)
/-- `shli`. -/
def execShli (p : Pfx) (d : Dst) (a : Src) (i : Fin 32) (s : State) : Host.Outcome State Fault Refusal :=
  .next (runWord (.shli p d a i) (vec1 0 d a (· <<< i.val)) s)
/-- `shri.z32`. -/
def execShriZ32 (p : Pfx) (d : Dst) (a : Src) (i : Fin 32) (s : State) : Host.Outcome State Fault Refusal :=
  .next (runWord (.shriZ32 p d a i) (vec1 0 d a (· >>> i.val)) s)
/-- `shri.s32`. -/
def execShriS32 (p : Pfx) (d : Dst) (a : Src) (i : Fin 32) (s : State) : Host.Outcome State Fault Refusal :=
  .next (runWord (.shriS32 p d a i) (vec1 0 d a fun x => x.sshiftRight i.val) s)
/-- `rsubi`. -/
def execRsubi (p : Pfx) (d : Dst) (a : Src) (i : BitVec 9) (s : State) : Host.Outcome State Fault Refusal :=
  .next (runWord (.rsubi p d a i) (vec1 0 d a (sext9 i - ·)) s)
/-- `mul` (R129). -/
def execMul (p : Pfx) (d : Dst) (a : Src) (b : Src) (s : State) : Host.Outcome State Fault Refusal :=
  .next (runWord (.mul p d a b) (vec2 0 d a b (· * ·)) s)
/-- `mulhi.s32`. -/
def execMulhi (p : Pfx) (d : Dst) (a : Src) (b : Src) (s : State) : Host.Outcome State Fault Refusal :=
  .next (runWord (.mulhi p d a b) (vec2 0 d a b mulHiS) s)
/-- `mulhz.z32`. -/
def execMulhz (p : Pfx) (d : Dst) (a : Src) (b : Src) (s : State) : Host.Outcome State Fault Refusal :=
  .next (runWord (.mulhz p d a b) (vec2 0 d a b mulHiZ) s)
/-- `div.s32`. -/
def execDiv (p : Pfx) (d : Dst) (a : Src) (b : Src) (s : State) : Host.Outcome State Fault Refusal :=
  .next (runWord (.div p d a b) (flag2 0 d a b fun x y => ((divS32 x y).1, flagIf (divS32 x y).2.2 flagID)) s)
/-- `divz.z32`. -/
def execDivz (p : Pfx) (d : Dst) (a : Src) (b : Src) (s : State) : Host.Outcome State Fault Refusal :=
  .next (runWord (.divz p d a b) (flag2 0 d a b fun x y => ((divZ32 x y).1, flagIf (divZ32 x y).2.2 flagID)) s)
/-- `rem.s32`. -/
def execRem (p : Pfx) (d : Dst) (a : Src) (b : Src) (s : State) : Host.Outcome State Fault Refusal :=
  .next (runWord (.rem p d a b) (flag2 0 d a b fun x y => ((divS32 x y).2.1, flagIf (divS32 x y).2.2 flagID)) s)
/-- `remz.z32`. -/
def execRemz (p : Pfx) (d : Dst) (a : Src) (b : Src) (s : State) : Host.Outcome State Fault Refusal :=
  .next (runWord (.remz p d a b) (flag2 0 d a b fun x y => ((divZ32 x y).2.1, flagIf (divZ32 x y).2.2 flagID)) s)
/-- `popc` (R130). -/
def execPopc (p : Pfx) (d : Dst) (a : Src) (s : State) : Host.Outcome State Fault Refusal :=
  .next (runWord (.popc p d a) (vec1 0 d a popCount) s)
/-- `clz`. -/
def execClz (p : Pfx) (d : Dst) (a : Src) (s : State) : Host.Outcome State Fault Refusal :=
  .next (runWord (.clz p d a) (vec1 0 d a leadingZeros) s)
/-- `brev`. -/
def execBrev (p : Pfx) (d : Dst) (a : Src) (s : State) : Host.Outcome State Fault Refusal :=
  .next (runWord (.brev p d a) (vec1 0 d a bitReverse) s)
/-- `bfe.z32`. -/
def execBfeZ32 (p : Pfx) (d : Dst) (a : Src) (b : Src) (s : State) : Host.Outcome State Fault Refusal :=
  .next (runWord (.bfeZ32 p d a b) (vec2 0 d a b bfeZ) s)
/-- `bfe.s32`. -/
def execBfeS32 (p : Pfx) (d : Dst) (a : Src) (b : Src) (s : State) : Host.Outcome State Fault Refusal :=
  .next (runWord (.bfeS32 p d a b) (vec2 0 d a b bfeS) s)
/-- `bfi`, whose old value of d is zero where d holds no element. -/
def execBfi (p : Pfx) (d : Dst) (a : Src) (b : Src) (s : State) : Host.Outcome State Fault Refusal :=
  .next (runWord (.bfi p d a b) (fun s => do
    let old ← readOld s d
    let (s1, x, _) ← readSrc s a
    let (s2, y, _) ← readSrc s1 b
    writeDst s2 0 d (rowGen fun l => bfi (lane old l) (lane x l) (lane y l))) s)
/-- `cmp` (R131). -/
def execCmp (p : Pfx) (d : MReg) (a : Src) (b : Src) (e : CmpOp) (unsigned : Bool) (s : State) : Host.Outcome State Fault Refusal :=
  .next (runWord (.cmp p d a b e unsigned) (fun s => do
    let (s1, x, _) ← readSrc s a
    let (s2, y, _) ← readSrc s1 b
    return writeM s2 d.val (setOf fun l => compare32 (!unsigned) (cmpCode e) (lane x l) (lane y l))) s)
/-- `movi` (R132). -/
def execMovi (p : Pfx) (d : Dst) (i : BitVec 9) (s : State) : Host.Outcome State Fault Refusal :=
  .next (runWord (.movi p d i) (fun s => writeDst s 0 d (rowBroadcast (sext9 i))) s)
/-- `mov`. -/
def execMov (p : Pfx) (d : Dst) (a : Src) (s : State) : Host.Outcome State Fault Refusal :=
  .next (runWord (.mov p d a) (vec1 0 d a id) s)
/-- `sel`. -/
def execSel (p : Pfx) (d : Dst) (a : Src) (m : MReg) (s : State) : Host.Outcome State Fault Refusal :=
  .next (runWord (.sel p d a m) (fun s => do
    let old ← readOld s d
    let (s1, x, _) ← readSrc s a
    let sel := readM s m
    writeDst s1 0 d (rowGen fun l => if inSet sel l then lane x l else lane old l)) s)
/-- `lea` (R133). -/
def execLea (p : Pfx) (d : NReg) (a : PSrc) (b : Src) (e : Fin 5) (s : State) : Host.Outcome State Fault Refusal :=
  .next (runWord (.lea p d a b e) (fun s => do
    let x ← readPair s a
    let (s1, y, _) ← readSrc s b
    writePair64 s1 0 d fun l => lane64 x l + (lane y l).signExtend 64 <<< e.val) s)
/-- `wpack` (R134). -/
def execWpack (p : Pfx) (d : NReg) (a : PSrc) (b : PSrc) (e : Fin 6) (s : State) : Host.Outcome State Fault Refusal :=
  .next (runWord (.wpack p d a b e) (fun s => do
    let x ← readPair s a
    let y ← readPair s b
    writePair64 s 0 d fun l => wpack (cutWidths s) e.val (lane64 x l) (lane64 y l)) s)
/-- `wext`. -/
def execWext (p : Pfx) (d : NReg) (a : PSrc) (e : Fin 6) (s : State) : Host.Outcome State Fault Refusal :=
  .next (runWord (.wext p d a e) (fun s => do
    let x ← readPair s a
    writePair64 s 0 d fun l => wext (cutWidths s) e.val (lane64 x l)) s)
/-- `add.d`. -/
def execAddD (p : Pfx) (d : NReg) (a : PSrc) (b : PSrc) (s : State) : Host.Outcome State Fault Refusal :=
  .next (runWord (.addD p d a b) (pair2 0 d a b (· + ·)) s)
/-- `sub.d`. -/
def execSubD (p : Pfx) (d : NReg) (a : PSrc) (b : PSrc) (s : State) : Host.Outcome State Fault Refusal :=
  .next (runWord (.subD p d a b) (pair2 0 d a b (· - ·)) s)

end Sys2Proof.Machine
end

