-- ==== Sys2Proof/Machine/Special.lean ====
section
/-! DEFINITION. The special functions of major 0x1B (08 R145, Table 8.5). `rcp` and `sqrt` are correctly rounded. `rsq`,
`exp2`, `log2`, `sin` and `cos` deliver a free value (Config) kept within the bound of the table, around the exact value
computed in fixed point on 400 bits (log 7). -/

namespace Sys2Proof.Machine

/-- Fraction bits of the fixed-point values. -/
abbrev fxK : Nat := 400
/-- ln 2 in units of 2^-400. -/
def ln2K : Int := 0xB17217F7D1CF79ABC9E3B39803F2F6AF40F343267298B62D8A0D175B8BAAFA2BE7B876206DEBAC98559552FB4AFA1B10ED2E
/-- π in units of 2^-640. -/
def pi640 : Nat :=
  0x3243F6A8885A308D313198A2E03707344A4093822299F31D0082EFA98EC4E6C89452821E638D01377BE5466CF34E90C6CC0AC29B7C97C50DD3F84D5B5B54709179216D5D98979FB1BD1310BA698DFB5AC

/-- A product of two fixed-point values. -/
def fxMul (a b : Int) : Int := a * b / 2 ^ fxK
/-- 1 + (r/n)(1 + (r/(n+1))(…)): exp(r) for n = 1, with `k` terms. -/
def expTail (r : Int) : Nat → Nat → Int
  | 0, _ => 2 ^ fxK
  | k + 1, n => 2 ^ fxK + fxMul r (expTail r k (n + 1)) / (n : Int)
/-- 1 − (q/(n(n+1)))(1 − …): cos from n = 1, sin over r from n = 2, q = r². -/
def trigTail (q : Int) : Nat → Nat → Int
  | 0, _ => 2 ^ fxK
  | k + 1, n => 2 ^ fxK - fxMul q (trigTail q k (n + 2)) / ((n : Int) * ((n : Int) + 1))
/-- Bits of log2 of m in [1, 2), by squaring. -/
def logBits : Nat → Int → Int → Int
  | 0, _, acc => acc
  | k + 1, m, acc =>
    let s := fxMul m m
    if (2 : Int) ^ (fxK + 1) ≤ s then logBits k (s / 2) (2 * acc + 1) else logBits k s (2 * acc)

/-- m × 2^e in units of 2^-k, rounded down. -/
def fxOf (m : Nat) (e : Int) (k : Nat) : Int :=
  if 0 ≤ e + k then (m : Int) * 2 ^ (e + k).toNat else (m : Int) / 2 ^ (-(e + k)).toNat

/-- An FP32 code lies within 2^be of v × 2^ve, by more than the error of v, 2^40 of its units. -/
def nearBy (code : Nat) (v ve be : Int) : Bool :=
  match fmt32.decode code with
  | .nan _ => false
  | .inf n =>
    -- a finite result beyond the largest is delivered as infinity
    !n && decide (fxOf 0xFFFFFF 104 0 * 2 ^ (fxK + 300) ≤
      (if 0 ≤ ve + fxK + 300 then (v - 2 ^ 40) * 2 ^ (ve + fxK + 300).toNat else 0) + 2 ^ (be + fxK + 300).toNat)
  | .fin n m e =>
    let q := Min.min e (Min.min ve be)
    let x : Int := (m : Int) * 2 ^ (e - q).toNat
    let d := (if n then -x else x) - v * 2 ^ (ve - q).toNat
    decide ((d.natAbs : Int) + 2 ^ (ve - q).toNat * 2 ^ 40 ≤ 2 ^ (be - q).toNat)

/-- The delivered code of a free value, and its flags: within the bound, else the value rounded to nearest. `tiny`: the
exact value is tiny. DESIGN CHOICE (log 7): whether a result is tiny (05 R83) is decided by the delivered code, and by the
exact value where that code is zero. -/
def deliver (free : Word) (fo : Bool) (v ve be : Int) (tiny pos : Bool) : Nat × Flags :=
  let near := fmt32.round .rn false
    (.fin (decide (v < 0)) (2 * v.natAbs + 1) (ve - 1))
  let code := if nearBy free.toNat v ve be && !(pos && free.msb) then free.toNat else near.1
  let mag := code % 2 ^ 31
  if mag = fmt32.infCode then (code, flagOF ||| flagNX)
  else if (mag ≠ 0 ∧ mag < 2 ^ 23) ∨ (mag = 0 ∧ tiny = true) then
    ((if fo then code - mag else code), flagUF ||| flagNX)
  else (code, flagNX)

/-- The operand after the input flush. -/
def specIn (fi : Bool) (a : Word) : Val := fmt32.decode (fmt32.flushIn fi a.toNat)
/-- A NaN operand (05 R81). -/
def specNan (s : Bool) : Nat × Flags := (fmt32.nanCode, flagIf s flagNV)

/-- `exp2`. -/
def spExp2 (fi fo : Bool) (a : Word) : Nat × Flags :=
  match specIn fi a with
  | .nan s => specNan s
  | .inf n => (if n then 0 else fmt32.infCode, 0#8)
  | .fin n m e =>
    let x : Int := let y := fxOf m e fxK; if n then (if 0 ≤ e + fxK ∨ m = 0 then -y else -y - 1) else y
    let i := x / 2 ^ fxK
    let whole := decide (0 ≤ e) || m % 2 ^ (-e).toNat == 0
    if whole && decide (-149 ≤ i) && decide (i ≤ 127) then fmt32.round .rn fo (.fin false 1 i)
    else
      let c : Int := Max.max (-300) (Min.min 300 i)
      let f := if c = i then x - i * 2 ^ fxK else 0
      let v := expTail (fxMul f ln2K) 80 1
      let be : Int := Max.max c (-126) - 22
      deliver (Config.special 3 a fi fo) fo v (c - fxK) be (decide (c < -126)) true

/-- `log2`. -/
def spLog2 (fi fo : Bool) (a : Word) : Nat × Flags :=
  match specIn fi a with
  | .nan s => specNan s
  | .inf n => if n then (fmt32.nanCode, flagNV) else (fmt32.infCode, 0#8)
  | .fin n m e =>
    if m = 0 then (fmt32.signBit true + fmt32.infCode, flagDZ)
    else if n then (fmt32.nanCode, flagNV)
    else
      let l := Nat.log2 m
      let ex : Int := e + l
      if m = 2 ^ l then fmt32.round .rn fo (.fin (decide (ex < 0)) ex.natAbs 0)
      else
        let v := ex * 2 ^ fxK + logBits fxK (fxOf m (-l) fxK) 0
        let inside := ex == 0 || ex == -1
        let be : Int := if inside then -22 else (Nat.log2 v.natAbs : Int) - fxK - 22
        deliver (Config.special 4 a fi fo) fo v (-fxK) be false false

/-- The operand reduced by 2π to [0, 2π), in units of 2^-400; its sign is applied by the caller. -/
def reduce2Pi (m : Nat) (e : Int) : Int :=
  let x : Nat := if 0 ≤ e + 640 then m * 2 ^ (e + 640).toNat else m / 2 ^ (-(e + 640)).toNat
  ((x % (2 * pi640) : Nat) : Int) / 2 ^ 240
/-- `sin` and `cos`. -/
def spTrig (cosine fi fo : Bool) (a : Word) : Nat × Flags :=
  match specIn fi a with
  | .nan s => specNan s
  | .inf _ => (fmt32.nanCode, flagNV)
  | .fin n m e =>
    if m = 0 then (if cosine then 0x3F800000 else fmt32.signBit n, 0#8)
    else
      let r := reduce2Pi m e
      let q := fxMul r r
      let v := if cosine then trigTail q 90 1 else fxMul r (trigTail q 90 2)
      let w := if n && !cosine then -v else v
      deliver (Config.special (if cosine then 6 else 5) a fi fo) fo w (-fxK) (-22)
        (!cosine && decide (e + Nat.log2 m < -126)) false

/-- `rsq`: the neighbour above or below, at the part's choice. -/
def spRsq (fi fo : Bool) (a : Word) : Nat × Flags :=
  fRsq (if Config.rsqUp a then .ru else .rm) fi fo a.toNat

/-- A result as a lane element. -/
def elemOf (p : Nat × Flags) : Word × Flags := (BitVec.ofNat 32 p.1, p.2)
/-- A word with one FP32 source, under the mode of its rounding field. -/
def fp1 (pipe : Nat) (d : Dst) (a : Src) (r : Rnd) (f : RMode → Bool → Bool → Word → Nat × Flags) (s : State) :
    R State :=
  let fm := (rF s).fmode
  flag1 pipe d a (fun x => elemOf (f (Rnd.mode fm r) (fiOf fm) (foOf fm) x)) s

/-- `rcp` (R145). -/
def execRcp (p : Pfx) (d : Dst) (a : Src) (r : Rnd) (s : State) : Host.Outcome State Fault Refusal :=
  .next (runWord (.rcp p d a r) (fp1 3 d a r fun md fi fo x => fRcp md fi fo x.toNat) s)
/-- `rsq`. -/
def execRsq (p : Pfx) (d : Dst) (a : Src) (r : Rnd) (s : State) : Host.Outcome State Fault Refusal :=
  .next (runWord (.rsq p d a r) (fp1 3 d a r fun _ fi fo x => spRsq fi fo x) s)
/-- `sqrt`. -/
def execSqrt (p : Pfx) (d : Dst) (a : Src) (r : Rnd) (s : State) : Host.Outcome State Fault Refusal :=
  .next (runWord (.sqrt p d a r) (fp1 3 d a r fun md fi fo x => fSqrt md fi fo x.toNat) s)
/-- `exp2`. -/
def execExp2 (p : Pfx) (d : Dst) (a : Src) (r : Rnd) (s : State) : Host.Outcome State Fault Refusal :=
  .next (runWord (.exp2 p d a r) (fp1 3 d a r fun _ fi fo x => spExp2 fi fo x) s)
/-- `log2`. -/
def execLog2 (p : Pfx) (d : Dst) (a : Src) (r : Rnd) (s : State) : Host.Outcome State Fault Refusal :=
  .next (runWord (.log2 p d a r) (fp1 3 d a r fun _ fi fo x => spLog2 fi fo x) s)
/-- `sin`. -/
def execSin (p : Pfx) (d : Dst) (a : Src) (r : Rnd) (s : State) : Host.Outcome State Fault Refusal :=
  .next (runWord (.sin p d a r) (fp1 3 d a r fun _ fi fo x => spTrig false fi fo x) s)
/-- `cos`. -/
def execCos (p : Pfx) (d : Dst) (a : Src) (r : Rnd) (s : State) : Host.Outcome State Fault Refusal :=
  .next (runWord (.cos p d a r) (fp1 3 d a r fun _ fi fo x => spTrig true fi fo x) s)

end Sys2Proof.Machine
end

