-- ==== Sys2Proof/Machine/Float.lean ====
section
/-! DEFINITION. Majors 0x16 to 0x1A, 0x1C, 0x1D and 0x09: floating point, conversions, scales, mode, flags and amax
(08 R135 to R152). -/

namespace Sys2Proof.Machine

/-- An FP32 word with two sources under its rounding field (R136, R138). -/
def fp2 (d : Dst) (a b : Src) (r : Rnd) (f : RMode → Bool → Bool → Nat → Nat → Nat × Flags) (s : State) : R State :=
  let fm := (rF s).fmode
  flag2 1 d a b (fun x y => elemOf (f (Rnd.mode fm r) (fiOf fm) (foOf fm) x.toNat y.toNat)) s
/-- An FP32 word with an accumulator, by `fmode.rm` (R141). -/
def fp3 (d : Dst) (a b : Src) (u : Fin 16) (f : RMode → Bool → Bool → Nat → Nat → Nat → Nat × Flags) (s : State) :
    R State :=
  let fm := (rF s).fmode
  flag3 1 d a b u.val (fun x y z => elemOf (f (rmOf fm) (fiOf fm) (foOf fm) x.toNat y.toNat z.toNat)) s
/-- The format of a packed word. -/
def halfFmt (t : HType) : Fmt :=
  match t with
  | .f16 => fmt16
  | .bf16 => fmtBf16
/-- Both halves of a lane (R142): results packed, flags joined. -/
def packHalves (f : Nat → Nat × Flags) : Word × Flags :=
  (BitVec.ofNat 32 ((f 0).1 % 65536 + (f 1).1 % 65536 * 65536), (f 0).2 ||| (f 1).2)
/-- Half i of a lane. -/
def halfOf (x : Word) (i : Nat) : Nat := bf x.toNat (16 * i) 16
/-- A packed word with two sources (R142). -/
def half2 (d : Dst) (a b : Src) (t : HType) (r : Rnd)
    (f : Fmt → RMode → Bool → Bool → Nat → Nat → Nat × Flags) (s : State) : R State :=
  let fm := (rF s).fmode
  flag2 1 d a b (fun x y => packHalves fun i =>
    f (halfFmt t) (Rnd.mode fm r) (fiOf fm) (foOf fm) (halfOf x i) (halfOf y i)) s
/-- A packed word with an accumulator (R143); `neg` subtracts it. -/
def half3 (d : Dst) (a b : Src) (t : HType) (u : Fin 16) (neg : Bool) (s : State) : R State :=
  let fm := (rF s).fmode
  flag3 1 d a b u.val (fun x y z => packHalves fun i =>
    fFma (halfFmt t) (rmOf fm) (fiOf fm) (foOf fm) false neg (halfOf x i) (halfOf y i) (halfOf z i)) s
/-- An FP64 word on pairs (R144): no flush. -/
def fp64 (d : NReg) (a b : PSrc) (r : Rnd) (f : RMode → Nat → Nat → Nat → Nat × Flags) (s : State) : R State := do
  let x ← readPair s a
  let y ← readPair s b
  let md := Rnd.mode (rF s).fmode r
  let v := fun l => f md (lane64 x l).toNat (lane64 y l).toNat l
  let s1 ← writePair64 s 1 d fun l => BitVec.ofNat 64 (v l).1
  return raise s1 1 (lanesFlags (act s) fun l => (v l).2)

/-- A conversion without a scale. -/
def cvt1 (d : Dst) (a : Src) (f : RMode → Bool → Bool → Nat → Nat × Flags) (s : State) : R State :=
  let fm := (rF s).fmode
  flag1 1 d a (fun x => elemOf (f (rmOf fm) (fiOf fm) (foOf fm) x.toNat)) s
/-- A conversion to an integer (R148). -/
def cvtInt (d : Dst) (a : Src) (f : RMode → Nat → Int × Flags) (s : State) : R State :=
  let fm := (rF s).fmode
  flag1 1 d a (fun x => (BitVec.ofInt 32 (f (rmOf fm) x.toNat).1, (f (rmOf fm) x.toNat).2)) s
/-- The scale row: `z` stands for 1.0 where the scale is FP32 (R147). -/
def scaleRow (b : Src) (fp : Bool) (r : Row) : Row :=
  match b with
  | .z => if fp then rowBroadcast 0x3F800000#32 else r
  | .n _ | .q _ | .b _ | .st _ | .k _ | .lane | .fid => r
/-- A conversion with a scale. -/
def cvt2 (d : Dst) (a b : Src) (fp : Bool) (f : RMode → Bool → Nat → Nat → Nat × Flags) (s : State) : R State := do
  let fm := (rF s).fmode
  let (s1, x, m) ← readSrc s a
  let (s2, y, n) ← readSrc s1 b
  let y' := scaleRow b fp y
  let v := fun l => f (rmOf fm) (foOf fm) (lane x l).toNat (lane y' l).toNat
  let s3 ← writeDst s2 1 d (rowGen fun l => BitVec.ofNat 32 (v l).1)
  return raise s3 1 (lanesFlags (act s &&& m &&& n) fun l => (v l).2)
/-- The fold into amax0 or amax1 (06 R110, R149). -/
def foldAmax (s : State) (which : Bool) (m : LaneSet) (x : Row) : State :=
  let i := if which then 1 else 0
  { s with f := { s.f with amax := s.f.amax.set i ((lanesOf m).foldl (fun c l => amaxFold c (lane x l))
      (s.f.amax.getD i 0)) } }
/-- A conversion marked amax (04 Table 4.9). -/
def cvtAmax (d : Dst) (a b : Src) (which fp : Bool) (f : RMode → Nat → Nat → Nat × Flags) (s : State) : R State := do
  let fm := (rF s).fmode
  let (s1, x, m) ← readSrc s a
  let (s2, y, n) ← readSrc s1 b
  let y' := scaleRow b fp y
  let v := fun l => f (rmOf fm) (lane x l).toNat (lane y' l).toNat
  let s3 ← writeDst s2 1 d (rowGen fun l => BitVec.ofNat 32 (v l).1)
  let live := act s &&& m &&& n
  return foldAmax (raise s3 1 (lanesFlags live fun l => (v l).2)) which live x
/-- b[7:0] as s8. -/
def byteInt (b : Nat) : Int := (BitVec.ofNat 8 b).toInt
/-- BF16 widened: every subnormal source is tiny in FP32 too, where fo acts on it (R147). -/
def cvtBf16Up (fi fo : Bool) (x : Nat) : Nat × Flags := convert fmtBf16 fmt32 .rn fi fo x

/-- `fadd.f32` (R138). -/
def execFaddF32 (p : Pfx) (d : Dst) (a : Src) (b : Src) (r : Rnd) (s : State) : Host.Outcome State Fault Refusal :=
  .next (runWord (.faddF32 p d a b r) (fp2 d a b r (fAdd fmt32)) s)
/-- `fsub.f32`. -/
def execFsubF32 (p : Pfx) (d : Dst) (a : Src) (b : Src) (r : Rnd) (s : State) : Host.Outcome State Fault Refusal :=
  .next (runWord (.fsubF32 p d a b r) (fp2 d a b r (fSub fmt32)) s)
/-- `fmul.f32`. -/
def execFmulF32 (p : Pfx) (d : Dst) (a : Src) (b : Src) (r : Rnd) (s : State) : Host.Outcome State Fault Refusal :=
  .next (runWord (.fmulF32 p d a b r) (fp2 d a b r (fMul fmt32)) s)
/-- `fmin.f32` (R139). -/
def execFminF32 (p : Pfx) (d : Dst) (a : Src) (b : Src) (r : Rnd) (s : State) : Host.Outcome State Fault Refusal :=
  .next (runWord (.fminF32 p d a b r) (fp2 d a b r fun _ fi _ => fMinMax fmt32 fi false) s)
/-- `fmax.f32`. -/
def execFmaxF32 (p : Pfx) (d : Dst) (a : Src) (b : Src) (r : Rnd) (s : State) : Host.Outcome State Fault Refusal :=
  .next (runWord (.fmaxF32 p d a b r) (fp2 d a b r fun _ fi _ => fMinMax fmt32 fi true) s)
/-- `fabs.f32` (R140). -/
def execFabsF32 (p : Pfx) (d : Dst) (a : Src) (r : Rnd) (s : State) : Host.Outcome State Fault Refusal :=
  .next (runWord (.fabsF32 p d a r) (vec1 1 d a (· &&& 0x7FFFFFFF#32)) s)
/-- `fneg.f32`. -/
def execFnegF32 (p : Pfx) (d : Dst) (a : Src) (r : Rnd) (s : State) : Host.Outcome State Fault Refusal :=
  .next (runWord (.fnegF32 p d a r) (vec1 1 d a (· ^^^ 0x80000000#32)) s)
/-- `ffma.f32` (R141). -/
def execFfmaF32 (p : Pfx) (d : Dst) (a : Src) (b : Src) (u : Fin 16) (s : State) : Host.Outcome State Fault Refusal :=
  .next (runWord (.ffmaF32 p d a b u) (fp3 d a b u fun md fi fo => fFma fmt32 md fi fo false false) s)
/-- `ffms.f32`. -/
def execFfmsF32 (p : Pfx) (d : Dst) (a : Src) (b : Src) (u : Fin 16) (s : State) : Host.Outcome State Fault Refusal :=
  .next (runWord (.ffmsF32 p d a b u) (fp3 d a b u fun md fi fo => fFma fmt32 md fi fo false true) s)
/-- `fnma.f32`. -/
def execFnmaF32 (p : Pfx) (d : Dst) (a : Src) (b : Src) (u : Fin 16) (s : State) : Host.Outcome State Fault Refusal :=
  .next (runWord (.fnmaF32 p d a b u) (fp3 d a b u fun md fi fo => fFma fmt32 md fi fo true false) s)
/-- `fadd.f16`, `fadd.bf16` (R142). -/
def execFaddF16Bf16 (p : Pfx) (d : Dst) (a : Src) (b : Src) (t : HType) (r : Rnd) (s : State) : Host.Outcome State Fault Refusal :=
  .next (runWord (.faddF16Bf16 p d a b t r) (half2 d a b t r fAdd) s)
/-- `fsub.f16`, `fsub.bf16`. -/
def execFsubF16Bf16 (p : Pfx) (d : Dst) (a : Src) (b : Src) (t : HType) (r : Rnd) (s : State) : Host.Outcome State Fault Refusal :=
  .next (runWord (.fsubF16Bf16 p d a b t r) (half2 d a b t r fSub) s)
/-- `fmul.f16`, `fmul.bf16`. -/
def execFmulF16Bf16 (p : Pfx) (d : Dst) (a : Src) (b : Src) (t : HType) (r : Rnd) (s : State) : Host.Outcome State Fault Refusal :=
  .next (runWord (.fmulF16Bf16 p d a b t r) (half2 d a b t r fMul) s)
/-- `ffma.f16`, `ffma.bf16` (R143). -/
def execFfmaF16Bf16 (p : Pfx) (d : Dst) (a : Src) (b : Src) (t : HType) (u : Fin 16) (s : State) : Host.Outcome State Fault Refusal :=
  .next (runWord (.ffmaF16Bf16 p d a b t u) (half3 d a b t u false) s)
/-- `ffms.f16`, `ffms.bf16`. -/
def execFfmsF16Bf16 (p : Pfx) (d : Dst) (a : Src) (b : Src) (t : HType) (u : Fin 16) (s : State) : Host.Outcome State Fault Refusal :=
  .next (runWord (.ffmsF16Bf16 p d a b t u) (half3 d a b t u true) s)
/-- `fadd.f64` (R144). -/
def execFaddF64 (p : Pfx) (d : NReg) (a : PSrc) (b : PSrc) (r : Rnd) (s : State) : Host.Outcome State Fault Refusal :=
  .next (runWord (.faddF64 p d a b r) (fp64 d a b r fun md x y _ => fAdd fmt64 md false false x y) s)
/-- `fsub.f64`. -/
def execFsubF64 (p : Pfx) (d : NReg) (a : PSrc) (b : PSrc) (r : Rnd) (s : State) : Host.Outcome State Fault Refusal :=
  .next (runWord (.fsubF64 p d a b r) (fp64 d a b r fun md x y _ => fSub fmt64 md false false x y) s)
/-- `fmul.f64`. -/
def execFmulF64 (p : Pfx) (d : NReg) (a : PSrc) (b : PSrc) (r : Rnd) (s : State) : Host.Outcome State Fault Refusal :=
  .next (runWord (.fmulF64 p d a b r) (fp64 d a b r fun md x y _ => fMul fmt64 md false false x y) s)
/-- `ffma.f64`: d is read as the accumulator. -/
def execFfmaF64 (p : Pfx) (d : NReg) (a : PSrc) (b : PSrc) (r : Rnd) (s : State) : Host.Outcome State Fault Refusal :=
  .next (runWord (.ffmaF64 p d a b r) (fun s => do
    let lo ← readN s d.val
    let hi ← readN s (d.val + 1)
    fp64 d a b r (fun md x y l => fFma fmt64 md false false false false x y (lane64 (lo, hi) l).toNat) s) s)
/-- `fmin.f64`. -/
def execFminF64 (p : Pfx) (d : NReg) (a : PSrc) (b : PSrc) (r : Rnd) (s : State) : Host.Outcome State Fault Refusal :=
  .next (runWord (.fminF64 p d a b r) (fp64 d a b r fun _ x y _ => fMinMax fmt64 false false x y) s)
/-- `fmax.f64`. -/
def execFmaxF64 (p : Pfx) (d : NReg) (a : PSrc) (b : PSrc) (r : Rnd) (s : State) : Host.Outcome State Fault Refusal :=
  .next (runWord (.fmaxF64 p d a b r) (fp64 d a b r fun _ x y _ => fMinMax fmt64 false true x y) s)
/-- `cvt.f32.f16` (R147). -/
def execCvtF32F16 (p : Pfx) (d : Dst) (a : Src) (s : State) : Host.Outcome State Fault Refusal :=
  .next (runWord (.cvtF32F16 p d a) (cvt1 d a fun _ fi fo x => convert fmt16 fmt32 .rn fi fo (x % 65536)) s)
/-- `cvt.f32.bf16`: fo acts on a subnormal result. -/
def execCvtF32Bf16 (p : Pfx) (d : Dst) (a : Src) (s : State) : Host.Outcome State Fault Refusal :=
  .next (runWord (.cvtF32Bf16 p d a) (cvt1 d a fun _ fi fo x => cvtBf16Up fi fo (x % 65536)) s)
/-- `cvt.f16.f32`. -/
def execCvtF16F32 (p : Pfx) (d : Dst) (a : Src) (s : State) : Host.Outcome State Fault Refusal :=
  .next (runWord (.cvtF16F32 p d a) (cvt1 d a fun md fi fo x => convert fmt32 fmt16 md fi fo x) s)
/-- `cvt.bf16.f32`. -/
def execCvtBf16F32 (p : Pfx) (d : Dst) (a : Src) (s : State) : Host.Outcome State Fault Refusal :=
  .next (runWord (.cvtBf16F32 p d a) (cvt1 d a fun md fi fo x => convert fmt32 fmtBf16 md fi fo x) s)
/-- `cvt.f64.f32`: exact, no flush. -/
def execCvtF64F32 (p : Pfx) (d : NReg) (a : Src) (s : State) : Host.Outcome State Fault Refusal :=
  .next (runWord (.cvtF64F32 p d a) (fun s => do
    let (s1, x, m) ← readSrc s a
    let v := fun l => convert fmt32 fmt64 .rn false false (lane x l).toNat
    let s2 ← writePair64 s1 1 d fun l => BitVec.ofNat 64 (v l).1
    return raise s2 1 (lanesFlags (act s &&& m) fun l => (v l).2)) s)
/-- `cvt.f32.f64`: no flush. -/
def execCvtF32F64 (p : Pfx) (d : Dst) (a : PSrc) (s : State) : Host.Outcome State Fault Refusal :=
  .next (runWord (.cvtF32F64 p d a) (fun s => do
    let x ← readPair s a
    let v := fun l => convert fmt64 fmt32 (rmOf (rF s).fmode) false false (lane64 x l).toNat
    let s1 ← writeDst s 1 d (rowGen fun l => BitVec.ofNat 32 (v l).1)
    return raise s1 1 (lanesFlags (act s) fun l => (v l).2)) s)
/-- `cvt.e4m3.f32`. -/
def execCvtE4m3F32 (p : Pfx) (d : Dst) (a : Src) (b : Src) (x : Bool) (s : State) : Host.Outcome State Fault Refusal :=
  .next (runWord (.cvtE4m3F32 p d a b x) (cvtAmax d a b x true fun md x b => scaleTo8 fmtE4m3 md x b) s)
/-- `cvt.e5m2.f32`. -/
def execCvtE5m2F32 (p : Pfx) (d : Dst) (a : Src) (b : Src) (x : Bool) (s : State) : Host.Outcome State Fault Refusal :=
  .next (runWord (.cvtE5m2F32 p d a b x) (cvtAmax d a b x true fun md x b => scaleTo8 fmtE5m2 md x b) s)
/-- `cvt.f32.e4m3`. -/
def execCvtF32E4m3 (p : Pfx) (d : Dst) (a : Src) (b : Src) (s : State) : Host.Outcome State Fault Refusal :=
  .next (runWord (.cvtF32E4m3 p d a b) (cvt2 d a b true fun _ _ x b => scaleFrom8 fmtE4m3 (x % 256) b) s)
/-- `cvt.f32.e5m2`. -/
def execCvtF32E5m2 (p : Pfx) (d : Dst) (a : Src) (b : Src) (s : State) : Host.Outcome State Fault Refusal :=
  .next (runWord (.cvtF32E5m2 p d a b) (cvt2 d a b true fun _ _ x b => scaleFrom8 fmtE5m2 (x % 256) b) s)
/-- `cvt.l8.f32` (R93). -/
def execCvtL8F32 (p : Pfx) (d : Dst) (a : Src) (b : Src) (x : Bool) (s : State) : Host.Outcome State Fault Refusal :=
  .next (runWord (.cvtL8F32 p d a b x) (cvtAmax d a b x false fun _ x b => logL8.ofF32 x (byteInt b)) s)
/-- `cvt.l16.f32`. -/
def execCvtL16F32 (p : Pfx) (d : Dst) (a : Src) (b : Src) (x : Bool) (s : State) : Host.Outcome State Fault Refusal :=
  .next (runWord (.cvtL16F32 p d a b x) (cvtAmax d a b x false fun _ x b => logL16.ofF32 x (byteInt b)) s)
/-- `cvt.f32.l8` (R91). -/
def execCvtF32L8 (p : Pfx) (d : Dst) (a : Src) (b : Src) (s : State) : Host.Outcome State Fault Refusal :=
  .next (runWord (.cvtF32L8 p d a b) (cvt2 d a b false fun _ fo x b => logL8.toF32 fo (x % 256) (byteInt b)) s)
/-- `cvt.f32.l16`. -/
def execCvtF32L16 (p : Pfx) (d : Dst) (a : Src) (b : Src) (s : State) : Host.Outcome State Fault Refusal :=
  .next (runWord (.cvtF32L16 p d a b) (cvt2 d a b false fun _ fo x b => logL16.toF32 fo (x % 65536) (byteInt b)) s)
/-- `cvt.q8.f32` (R95). -/
def execCvtQ8F32 (p : Pfx) (d : Dst) (a : Src) (b : Src) (x : Bool) (s : State) : Host.Outcome State Fault Refusal :=
  .next (runWord (.cvtQ8F32 p d a b x) (cvtAmax d a b x false fun md x b => quantise md 255 x (b % 65536) (bf b 16 8)) s)
/-- `cvt.q4.f32`. -/
def execCvtQ4F32 (p : Pfx) (d : Dst) (a : Src) (b : Src) (x : Bool) (s : State) : Host.Outcome State Fault Refusal :=
  .next (runWord (.cvtQ4F32 p d a b x) (cvtAmax d a b x false fun md x b => quantise md 15 x (b % 65536) (bf b 16 4)) s)
/-- `cvt.f32.q8`. -/
def execCvtF32Q8 (p : Pfx) (d : Dst) (a : Src) (b : Src) (s : State) : Host.Outcome State Fault Refusal :=
  .next (runWord (.cvtF32Q8 p d a b) (cvt2 d a b false fun md _ x b => dequantise md (x % 256) (b % 65536) (bf b 16 8)) s)
/-- `cvt.f32.q4`. -/
def execCvtF32Q4 (p : Pfx) (d : Dst) (a : Src) (b : Src) (s : State) : Host.Outcome State Fault Refusal :=
  .next (runWord (.cvtF32Q4 p d a b) (cvt2 d a b false fun md _ x b => dequantise md (x % 16) (b % 65536) (bf b 16 4)) s)
/-- `cvt.s32.f32` (R148). -/
def execCvtS32F32 (p : Pfx) (d : Dst) (a : Src) (s : State) : Host.Outcome State Fault Refusal :=
  .next (runWord (.cvtS32F32 p d a) (cvtInt d a fun md x => f32ToInt md (-2147483648) 2147483647 x) s)
/-- `cvt.s32.f32.rz`. -/
def execCvtS32F32Rz (p : Pfx) (d : Dst) (a : Src) (s : State) : Host.Outcome State Fault Refusal :=
  .next (runWord (.cvtS32F32Rz p d a) (cvtInt d a fun _ x => f32ToInt .rz (-2147483648) 2147483647 x) s)
/-- `cvt.z32.f32`. -/
def execCvtZ32F32 (p : Pfx) (d : Dst) (a : Src) (s : State) : Host.Outcome State Fault Refusal :=
  .next (runWord (.cvtZ32F32 p d a) (cvtInt d a fun md x => f32ToInt md 0 4294967295 x) s)
/-- `cvt.f32.s32`. -/
def execCvtF32S32 (p : Pfx) (d : Dst) (a : Src) (s : State) : Host.Outcome State Fault Refusal :=
  .next (runWord (.cvtF32S32 p d a) (cvt1 d a fun md _ _ x => intToF32 md (BitVec.ofNat 32 x).toInt) s)
/-- `cvt.f32.z32`. -/
def execCvtF32Z32 (p : Pfx) (d : Dst) (a : Src) (s : State) : Host.Outcome State Fault Refusal :=
  .next (runWord (.cvtF32Z32 p d a) (cvt1 d a fun md _ _ x => intToF32 md x) s)
/-- `sacc` (R150); d with no element to read back counts as zero (log 20). -/
def execSacc (p : Pfx) (d : Dst) (a : Src) (b : Src) (e : Src) (s : State) : Host.Outcome State Fault Refusal :=
  .next (runWord (.sacc p d a b e) (fun s => do
    let old ← readOld s d
    let (s1, x, m) ← readSrc s a
    let (s2, y, n) ← readSrc s1 b
    let (s3, z, o) ← readSrc s2 e
    let fm := (rF s).fmode
    let v := fun l => saccValue (rmOf fm) (fiOf fm) (foOf fm) (lane old l).toNat (lane x l).toInt
      (bf (lane y l).toNat 0 16) (bf (lane z l).toNat 0 16)
    let s4 ← writeDst s3 1 d (rowGen fun l => BitVec.ofNat 32 (v l).1)
    return raise s4 1 (lanesFlags (act s &&& m &&& n &&& o) fun l => (v l).2)) s)

/-- `setrm` (R151, 06 R108). -/
def execSetrm (p : Pfx) (m : BitVec 3) (s : State) : Host.Outcome State Fault Refusal :=
  .next (runWord (.setrm p m) (fun s => .ok { s with f := { s.f with fmode := setRm s.f.fmode m.toNat } }) s)
/-- `rdflags`: the flags as they stood before the group (R152). -/
def execRdflags (p : Pfx) (x : KReg) (s : State) : Host.Outcome State Fault Refusal :=
  .next (runWord (.rdflags p x) (fun s => .ok (writeK s x.val (rF s).fflags)) s)
/-- `clrflags`: before the flags of the other words of the group are set (R152). -/
def execClrflags (p : Pfx) (f : BitVec 8) (s : State) : Host.Outcome State Fault Refusal :=
  .next (runWord (.clrflags p f)
    (fun s => .ok { s with f := { s.f with fflags := s.f.fflags &&& ~~~(f.setWidth 32) } }) s)
/-- `rdamax`. -/
def execRdamax (p : Pfx) (x : KReg) (b : Bool) (s : State) : Host.Outcome State Fault Refusal :=
  .next (runWord (.rdamax p x b) (fun s => .ok (writeK s x.val ((rF s).amax.getD (if b then 1 else 0) 0))) s)
/-- `clramax`; a group makes it first (R152). -/
def execClramax (p : Pfx) (b : Bool) (s : State) : Host.Outcome State Fault Refusal :=
  .next (runWord (.clramax p b)
    (fun s => .ok { s with f := { s.f with amax := s.f.amax.set (if b then 1 else 0) 0 } }) s)

end Sys2Proof.Machine
end

