-- ==== Sys2Proof/Machine/CrossLane.lean ====
section
/-! DEFINITION. Majors 0x1E to 0x20: shuffles, votes, scans, reductions, top-k (09 R153 to R162), the exchange with a
partner workgroup and the regroup move with their events (R163 to R170). -/

namespace Sys2Proof.Machine

/-- The poisoned lanes of a source, active or not (10 R182). -/
def srcPois (s : State) (a : Src) : LaneSet :=
  match a with
  | .n j => tget 0 (rW s).pois (rowOf s j.val)
  | .q i => ((rF s).q.getD i.val QEnt.zero).pois
  | .b i => let b := (rF s).b.getD i.val Latch.invalid; if b.valid then b.pois else 0
  | .st _ | .k _ | .z | .lane | .fid => 0
/-- A shuffle (R157, Table 9.1): a lane is read by its number, whatever its state. -/
def shfl (op : Nat) (d : Dst) (a b : Src) (s : State) : R State := do
  let (s1, x, _) ← readSrc s a
  let (s2, y, _) ← readSrc s1 b
  let bad := srcPois s a
  need s ((lanesOf (act s)).all fun l => !inSet bad ((shflSource op l (lane y l)).getD l)) 0x1F1
  writeDst s2 3 d (shuffle op x y)
/-- A vote (R158). -/
def vote (d a : MReg) (f : LaneSet → LaneSet → Bool) (s : State) : R State :=
  .ok (writeM s d.val (if f (readM s a) (act s) then 0xFFFFFFFF#32 else 0))
/-- A scan or reduction (R159 to R161): over one segment, or over those that begin at lanes of a mask. -/
def fold (red : Bool) (d : Dst) (a : Src) (seg : Option MReg) (o : RedOp) (s : State) : R State := do
  let (s1, x, m) ← readSrc s a
  let fm := (rF s).fmode
  -- a ragged read writes head bits for the next group; this word reads its mask as it stood (04 R65)
  let heads := segHeads (act s) (match seg with
    | some b => readM s b
    | none => 0)
  let r := if red then reduceRow o (rmOf fm) (fiOf fm) (foOf fm) (act s) m heads x
    else scanRow o (rmOf fm) (fiOf fm) (foOf fm) (act s) m heads x
  let s2 ← writeDst s1 3 d r.1
  return raise s2 3 r.2
/-- A ranking (R162). -/
def rank (seg : Bool) (d : Dst) (a b : Src) (o : TopOp) (s : State) : R State := do
  let (s1, x, _) ← readSrc s a
  let (s2, y, _) ← readSrc s1 b
  let v := (lane y (lowestLane (act s))).toNat
  writeDst s2 3 d (topkRow o (if seg then 2 ^ Nat.min (bf v 8 3) 5 else 32) (bf v 0 6) (act s) x)

/-- `shfl.idx` (R157). -/
def execShflIdx (p : Pfx) (d : Dst) (a : Src) (b : Src) (s : State) : Host.Outcome State Fault Refusal :=
  .next (runWord (.shflIdx p d a b) (shfl 0 d a b) s)
/-- `shfl.up` (R157). -/
def execShflUp (p : Pfx) (d : Dst) (a : Src) (b : Src) (s : State) : Host.Outcome State Fault Refusal :=
  .next (runWord (.shflUp p d a b) (shfl 1 d a b) s)
/-- `shfl.down` (R157). -/
def execShflDown (p : Pfx) (d : Dst) (a : Src) (b : Src) (s : State) : Host.Outcome State Fault Refusal :=
  .next (runWord (.shflDown p d a b) (shfl 2 d a b) s)
/-- `shfl.xor` (R157). -/
def execShflXor (p : Pfx) (d : Dst) (a : Src) (b : Src) (s : State) : Host.Outcome State Fault Refusal :=
  .next (runWord (.shflXor p d a b) (shfl 3 d a b) s)
/-- `vote.any` (R158). -/
def execVoteAny (p : Pfx) (d : MReg) (a : MReg) (s : State) : Host.Outcome State Fault Refusal :=
  .next (runWord (.voteAny p d a) (vote d a fun v m => v &&& m != 0) s)
/-- `vote.all` (R158). -/
def execVoteAll (p : Pfx) (d : MReg) (a : MReg) (s : State) : Host.Outcome State Fault Refusal :=
  .next (runWord (.voteAll p d a) (vote d a fun v m => v &&& m == m) s)
/-- `vote.uni` (R158). -/
def execVoteUni (p : Pfx) (d : MReg) (a : MReg) (s : State) : Host.Outcome State Fault Refusal :=
  .next (runWord (.voteUni p d a) (vote d a fun v m => v &&& m == 0 || v &&& m == m) s)
/-- `ballot`. -/
def execBallot (p : Pfx) (d : KReg) (a : MReg) (s : State) : Host.Outcome State Fault Refusal :=
  .next (runWord (.ballot p d a) (fun s => .ok (writeK s d.val (readM s a &&& act s))) s)
/-- `mpopc.below`. -/
def execMpopcBelow (p : Pfx) (d : Dst) (a : MReg) (s : State) : Host.Outcome State Fault Refusal :=
  .next (runWord (.mpopcBelow p d a) (fun s => writeDst s 3 d (rowGen fun l =>
    BitVec.ofNat 32 ((lanesOf (readM s a &&& act s)).filter fun j => decide (j < l)).length)) s)
/-- `mpopc.total`. -/
def execMpopcTotal (p : Pfx) (d : Dst) (a : MReg) (s : State) : Host.Outcome State Fault Refusal :=
  .next (runWord (.mpopcTotal p d a) (fun s => writeDst s 3 d (rowBroadcast (BitVec.ofNat 32 (laneCount (readM s a &&& act s))))) s)
/-- `scan` (R160). -/
def execScan (p : Pfx) (d : Dst) (a : Src) (o : RedOp) (s : State) : Host.Outcome State Fault Refusal :=
  .next (runWord (.scan p d a o) (fold false d a none o) s)
/-- `red` (R161). -/
def execRed (p : Pfx) (d : Dst) (a : Src) (o : RedOp) (s : State) : Host.Outcome State Fault Refusal :=
  .next (runWord (.red p d a o) (fold true d a none o) s)
/-- `red.seg`. -/
def execRedSeg (p : Pfx) (d : Dst) (a : Src) (b : MReg) (o : RedOp) (s : State) : Host.Outcome State Fault Refusal :=
  .next (runWord (.redSeg p d a b o) (fold true d a (some b) o) s)
/-- `scan.seg`. -/
def execScanSeg (p : Pfx) (d : Dst) (a : Src) (b : MReg) (o : RedOp) (s : State) : Host.Outcome State Fault Refusal :=
  .next (runWord (.scanSeg p d a b o) (fold false d a (some b) o) s)
/-- `topk` (R162). -/
def execTopk (p : Pfx) (d : Dst) (a : Src) (b : Src) (o : TopOp) (s : State) : Host.Outcome State Fault Refusal :=
  .next (runWord (.topk p d a b o) (rank false d a b o) s)
/-- `topk.seg`. -/
def execTopkSeg (p : Pfx) (d : Dst) (a : Src) (b : Src) (o : TopOp) (s : State) : Host.Outcome State Fault Refusal :=
  .next (runWord (.topkSeg p d a b o) (rank true d a b o) s)

/-! Results that come later. -/

/-- Rows a destination claims. -/
def dstRows (s : State) (d : Dst) (m : LaneSet) : List (Nat × LaneSet) :=
  match d with
  | .n j => [(rowOf s j.val, m)]
  | .q | .st _ | .none => []
/-- The destination pushes an entry (06 R103). -/
def dstPushes (d : Dst) : Bool :=
  match d with
  | .n _ | .q => true
  | .st _ | .none => false
/-- A word whose result comes while its fibre waits. -/
def laterResult (s : State) (d : Dst) : R State := do
  match d with
  | .n j => haveRow s j.val
  | .st i => let _ ← writeStream s i.val zeroRow
  | .q | .none => pure ()
  let p : Pend := { Pend.mk0 s .result with rows := dstRows s d (act s), lanes := act s }
  let t := claimRows s (act s) (p.rows.map (·.1))
  return inFlightAdd (pushLater t p 3 (dstPushes d)) p
/-- The slot and bits of the first word of the group at an address that a test picks, from the code as it stands. -/
def wordWhere (s : State) (p : Pos) (f : Nat → Bool) : Nat × Word :=
  match codeWords s (whoCur s) p.pkt with
  | .ok ws =>
    match [p.slot, p.slot + 1, p.slot + 2].find? fun i => i < 3 && f (ws.getD i 0).toNat with
    | some i => (i, ws.getD i 0)
    | none => (p.slot, ws.getD p.slot 0)
  | .error _ => (p.slot, 0)
/-- The slot and bits of the first word of a major in the group at an address, from the code as it stands. -/
def wordOfMajor (s : State) (p : Pos) (m : Nat) : Nat × Word :=
  match codeWords s (whoCur s) p.pkt with
  | .ok ws =>
    match [p.slot, p.slot + 1, p.slot + 2].find? fun i => i < 3 && fld (ws.getD i 0).toNat 24 6 == m with
    | some i => (i, ws.getD i 0)
    | none => (p.slot, 0)
  | .error _ => (p.slot, 0)
/-- What accesses of the current fibre from number `seq` on do later may follow. -/
def groupFollows (s : State) (seq : Nat) : State :=
  let l := s.w.pend.filter fun p => p.fib == fidOf s && decide (seq ≤ p.seq)
  let evs := l.flatMap fun p => match p.kind with
    | .arrive i _ => [Ev.arrival s.w.launch s.w.g i 1 s.cur]
    | .rsig g i c => [Ev.arrival s.w.launch g i c s.cur]
    | .fstart .. => [Ev.frondStart (curCl s)]
    | .load | .store | .strm .. | .result => []
    | k => [doneEv s.cur k]
  postNew s (evs ++ (if tbWaits s (curKey s) then [.tbApply (curCl s)] else []))
/-- A result written to an output stream after its word issued: none while the stream takes no elements (18 R321). DESIGN CHOICE
(log 77): elements that fail now, though they passed when the word issued, write nothing, and the failure is held for the next group
boundary. -/
def streamLands (s : State) (i : Fin 4) (v : Row) : Option State :=
  match writeStream s i.val v with
  | .ok u => some u
  | .error (.fault c l a) | .error (.faultKeep c l a) =>
    let w := wordOfMajor s s.f.gpos 0x20
    some (holdFail s ⟨c, w.2, a, l, true, inHandler s.f, none, w.1⟩)
  | .error .stall => none
/-- The wait of an exchange or regroup ends; where its result's stream is not ready, the fibre waits for that. -/
def endsOrLands (f : Fibre) (late : Option (Fin 4)) (v : Row) : Fibre :=
  let isMove := fun (c : Cond2) => match c with
    | .xshuf .. | .regroup .. => true
    | _ => false
  match late with
  | none => endWait f isMove
  | some i => { f with st := .waiting ((waitsOf f).filter (!isMove ·) ++ [.lands i v]) }
/-- A result that waits for its output stream is written once the stream takes it. -/
def landStream (s : State) : State :=
  let isLands := fun (c : Cond2) => match c with
    | .lands .. => true
    | _ => false
  match (waitsOf s.f).find? isLands with
  | some (.lands i v) => match streamLands s i v with
    | some u => { u with f := endWait u.f isLands }
    | none => s
  | _ => s
/-- The current fibre's result in flight takes its value for lanes `m`; it is ready again, its latches gone (02 R35). What the group does
later follows. -/
def resultLands (s : State) (d : Dst) (m : LaneSet) (v : Row) : State :=
  let t := match s.w.pend.find? fun p => p.fib == fidOf s && p.kind == .result with
    | some p =>
      let wrote := fun (r : Nat) => match imageOf s.w (fidOf s) with
        | some im => tget 0 im.wrote r
        | none => 0
      let rows := p.rows.map fun x => (x.1, (x.2 ||| (m &&& ~~~p.lanes)) &&& m &&& ~~~wrote x.1)
      let w := { s.w with pend := s.w.pend.map fun x => if x.fib == p.fib && x.seq == p.seq then { p with rows := rows } else x }
      land { s with w := w } { p with rows := rows, lanes := m, data := [v] }
    | none => s
  let r : State × Option (Fin 4) := match d with
    | .st i => match streamLands t i v with
      | some u => (u, none)
      | none => (t, some i)
    | .n _ | .q | .none => (t, none)
  let u := r.1
  let x := { u with
    w := { u.w with images := u.w.images.filter fun im => im.fib != fidOf u }
    f := dropLatches (endsOrLands u.f r.2 v) }
  match imageOf s.w (fidOf s) with
  | some im => groupFollows x im.f.seq
  | none => x

/-! The exchange (R163 to R167). -/

/-- Warp k of workgroup g of the launch has a work item (02 R22). -/
def warpExists (h : BitVec 2048) (g k : Nat) : Bool :=
  (List.range 32).any fun l => hExists h (g * 2 ^ hW h + k * 32 + l)
/-- `xshuf` (R163, R164); of the handler split, a nested trap (10 R180). -/
def execXshuf (p : Pfx) (d : Dst) (a b : Src) (s : State) : Host.Outcome State Fault Refusal :=
  .next (runWord (.xshuf p d a b) (fun s => do
    if inHandler s.f then faultAll s 0x1E9
    let (s1, x, _) ← readSrc s a
    let (s2, y, _) ← readSrc s1 b
    let dist := (lane y (lowestLane (act s))).toNat
    let g := s.w.g ^^^ dist
    if dist = 0 || !warpExists (curL s).hdr g s.w.idx then writeDst s2 3 d x
    else do
      need s (nSplits s.f == 1) 0x149
      need s (srcPois s a == 0) 0x1F1
      let s3 ← laterResult s2 d
      ready (unitHasRoom s)
      let n := s3.f.exch
      let m : XMsg := ⟨s.w.launch, s.w.g, g, s.w.idx, fidOf s, n, x⟩
      let s4 := outRaise (modCl { s3 with f := { s3.f with exLost := none } } (curCl s) fun c => { c with xbuf := c.xbuf ++ [m] })
        (unitOf s.cur) s.w.launch
      let s5 := perfCl s4 (curCl s) 0x3E 1
      let peer := getWg s5 (wgKey s.w.launch g)
      let s6 := if peer.live then post s5 [.exchange peer.cluster] else s5
      return setWait s6 (.xshuf n g d)) s)

/-- The key of a workgroup's warp by its index. -/
def warpKeyOf (s : State) (w : Wg) (idx : Nat) : Option Nat :=
  w.warps.find? fun k => (getW s k).idx == idx && (getW s k).live
/-- Messages held at a cluster's workgroups (R164). -/
def heldMessages (s : State) (cl : Nat) : Nat :=
  s.fibs.foldl (fun n p => if p.1 < 49152 && p.1 / 256 == cl then n + p.2.xin.length else n) 0 +
  (match s.cur with
   | .vec k => if k / 256 = cl then s.f.xin.length - (tget Fibre.none s.fibs k).xin.length else 0
   | _ => 0)
/-- A message goes to its receiver; a match for an exchange that timed out and was not sent again is discarded (R165). -/
def deliverMsg (s : State) (m : XMsg) : State :=
  match warpKeyOf s (getWg s (wgKey m.launch m.g)) m.idx with
  | some k =>
    let key := 4 * k + m.fib
    let f := getF s key
    if f.exLost = some (m.src, m.n) then s else setF s key { f with xin := f.xin ++ [(m.src, m.n, m.row)] }
  | none => s
/-- The arrival queue of a workgroup's partition has room (22 R378). -/
def arrivalRoom (s : State) (launch : Nat) : Bool := decide ((getPart s (getL s launch).part).arrivals.length < 256)
/-- A message can leave the network: into the exchange buffer of its receiver's cluster, or, of a Saved workgroup, into the
partition's arrival queue (R164, R166). -/
def canArrive (s : State) (m : XMsg) : Bool :=
  let w := getWg s (wgKey m.launch m.g)
  w.live && (warpKeyOf s w m.idx).isSome && (if w.saved then arrivalRoom s m.launch else decide (heldMessages s w.cluster < 64))
/-- The arrivals that can take place. -/
def exchangeEvs (s : State) : List Ev :=
  (distinct (s.clusters.flatMap fun p => (p.2.xbuf.filter (canArrive s)).map fun m => (getWg s (wgKey m.launch m.g)).cluster)).map .exchange
/-- A message for a Saved workgroup goes to the Hawkmoth core's arrival queue, to be written into its save area (R166, 22 R378). -/
def saveMsg (s : State) (m : XMsg) : State :=
  let p := (getL s m.launch).part
  post (modPart s p fun x => { x with arrivals := x.arrivals ++ [.message m.launch m.src m.g m.idx m.fib m.n m.row] }) [.savedArrival p]
/-- A message's sender takes 0x1F6 after its wait: its route uses a link declared down (25 R411). -/
def lostMsg (s : State) (m : XMsg) : State :=
  match warpKeyOf s (getWg s (wgKey m.launch m.src)) m.idx with
  | some k => onAgent s (.vec (4 * k + m.fib)) fun s =>
    let w := wordOfMajor s s.f.gpos 0x20
    holdFail s ⟨0x1F6, w.2, 0, s.f.sp.mask, true, inHandler s.f, none, w.1⟩
  | none => s
/-- EXCHANGE_MESSAGE_ARRIVAL (R164, R166): the oldest message for a workgroup of the cluster that can arrive; its acknowledgement
returns. -/
def arriveMsg (s : State) (cl : Nat) : State :=
  let for_ := fun (m : XMsg) => (getWg s (wgKey m.launch m.g)).cluster == cl && canArrive s m
  match s.clusters.findSome? fun p => (p.2.xbuf.find? for_).map fun m => (p.1, m) with
  | none => s
  | some (from_, m) =>
    let s1 := modCl s from_ fun c => { c with xbuf := c.xbuf.erase m }
    let unit := match warpKeyOf s (getWg s (wgKey m.launch m.src)) m.idx with
      | some k => coreOf (4 * k)
      | none => 0
    let t := if linkLost s (clusterPort from_) (clusterPort cl) then lostMsg s1 m
      else if (getWg s (wgKey m.launch m.g)).saved then saveMsg s1 m else deliverMsg s1 m
    postNew (post t [.ack unit m.launch]) (exchangeEvs t)
/-- EXCHANGE_MESSAGE_ARRIVAL. -/
def execExchangeMessageArrival (cluster : Nat) (s : State) : Host.Outcome State Fault Refusal :=
  .next (arriveMsg s cluster)

/-- The exchange a fibre waits in: number, partner, destination. -/
def xshufOf (f : Fibre) : Option (Nat × Nat × Dst) :=
  (waitsOf f).findSome? fun c => match c with
    | .xshuf n g d => some (n, g, d)
    | _ => none
/-- The message that matches the current fibre's exchange, where it is there. -/
def xshufMatch (s : State) : Option (Nat × Nat × Row) :=
  match xshufOf s.f with
  | some (n, g, _) => s.f.xin.find? fun x => x.1 == g && x.2.1 == n
  | none => none
/-- The current fibre's exchange is matched: its row is there; the buffer has room for a message that waits (R164). -/
def matchXshuf (s : State) : State :=
  match xshufOf s.f, xshufMatch s with
  | some (n, _, d), some x =>
    let t := resultLands { s with f := { s.f with xin := s.f.xin.erase x, exch := n + 1 } } d s.f.sp.mask x.2.2
    postNew t (exchangeEvs t)
  | _, _ => s

/-- What the group a fibre waits in left in flight is dropped: the queue entry goes, or stays with zeros. -/
def dropResult (s : State) (keep : Bool) : State :=
  match s.w.pend.find? fun p => p.fib == fidOf s && p.kind == .result with
  | none => s
  | some p =>
    let q := match s.f.q.findIdx? fun e => e.id == p.seq + 1 with
      | some i => if keep then s.f.q.set i { s.f.q.getD i QEnt.zero with empty := 0 } else s.f.q.eraseIdx i ++ [QEnt.zero]
      | none => s.f.q
    let b := s.f.b.map fun x => if x.src = some (p.seq + 1) then Latch.invalid else x
    { s with f := { s.f with q := q, b := b }, w := { s.w with pend := s.w.pend.filter fun x => x != p } }
/-- The current fibre's message, sent by the `xshuf` it waits in, withdrawn (R165). -/
def withdrawMsg (s : State) : State :=
  match xshufOf s.f with
  | some (n, g, _) =>
    let mine := fun (m : XMsg) =>
      m.launch == s.w.launch && m.src == s.w.g && m.idx == s.w.idx && m.fib == fidOf s && m.n == n
    let s1 := modCl s (curCl s) fun c => { c with xbuf := c.xbuf.filter fun m => !mine m }
    let s2 := match warpKeyOf s1 (getWg s1 (wgKey s.w.launch g)) s.w.idx with
      | some k =>
        let key := 4 * k + fidOf s
        setF s1 key { getF s1 key with xin := (getF s1 key).xin.filter fun x => !(x.1 == s.w.g && x.2.1 == n) }
      | none => s1
    let s3 := postNew s2 (exchangeEvs s2)
    if (getCl s (curCl s)).xbuf.any mine then outLower s3 (unitOf s.cur) s.w.launch else s3
  | none => s
/-- A contribution of the current fibre to a reduction that is not complete, withdrawn. -/
def withdrawRedn (s : State) : State :=
  let isRedn := fun (c : Cond2) => match c with
    | .nred .. | .nbar .. => true
    | _ => false
  if (waitsOf s.f).any isRedn then
    { s with redns := (s.redns.map fun r => { r with con := r.con.filter fun c => c.1 != curKey s }).filter fun r =>
        !r.con.isEmpty }
  else s
/-- The current fibre leaves the word it waits in, which may issue again (16 R293) or be passed over (`keep`). -/
def leaveWait (s : State) (keep : Bool) : State := dropResult (withdrawRedn (withdrawMsg s)) keep
/-- An access of the current fibre that does not take place after all: its counter falls, nothing is owed for it. -/
def dropPend (s : State) (p : Pend) : State :=
  let down := fun (f : Fibre) (k : PKind) => match counterOf s.cur k with
    | some c => cntDown f c
    | none => f
  let f := if jointLeft s.w p then s.f else match p.kind with
    | .go _ => cntDown (down s.f p.kind) 1
    | k => down s.f k
  let t := { s with f := f, w := { s.w with pend := s.w.pend.filter fun x => !(x.fib == p.fib && x.seq == p.seq) } }
  if p.wr then outLower t (unitOf s.cur) s.w.launch else t
/-- Rows that the group of an image wrote, as they would stand without it (04 R66): its lanes as before, but for what others have
written since; accesses in flight write again the lanes it took from them, and those that have landed have written them. -/
def rowsWithout (w : Warp) (im : Image) : Warp :=
  let wrote := fun (r : Nat) => tget 0 im.wrote r
  let again := fun (p q : Pend) => { q with rows := p.rows.map fun x => (x.1, x.2 &&& ~~~wrote x.1), ks := p.ks }
  let same := fun (p q : Pend) => p.fib == q.fib && p.seq == q.seq
  let n := Nat.min w.rows.length im.rows.length
  let w1 := { w with
    rows := (List.range w.rows.length).map fun r =>
      if r < n then rowMerge (wrote r) (im.rows.getD r zeroRow) (w.rows.getD r zeroRow) else w.rows.getD r zeroRow
    pois := (List.range n).foldl (fun t r =>
      tset 0 t r ((tget 0 w.pois r &&& wrote r) ||| (tget 0 im.pois r &&& ~~~wrote r))) w.pois
    pend := w.pend.map fun q => match im.pend.find? fun p => same p q with
      | some p => again p q
      | none => q }
  (im.pend.filter fun p => !w.pend.any fun q => same p q).foldl (fun w p => landRows w (again p p)) w1
/-- The fibre as it would stand without the group of an image: what landed in its queue and k-registers since has landed; what
others did to it since stands. -/
def fibreWithout (f : Fibre) (im : Image) (landed : List Pend) (took : Nat → Nat) : Fibre :=
  let streams := (List.range 4).map fun i =>
    let x := im.f.streams.getD i Stream.unbound
    { x with writes := (f.streams.getD i Stream.unbound).writes - took i }
  landed.foldl landRegs { im.f with
    st := f.st, saved := f.saved, stopPend := f.stopPend, wake := f.wake, fails := f.fails, xin := f.xin, exLost := f.exLost
    exch := f.exch, seq := f.seq, gpos := f.gpos, cnt := f.cnt, goes := f.goes, lostAxis := f.lostAxis, streams := streams }
/-- The group that the current fibre waits in suppressed (04 R66): its registers and rows, its stores and atomics, what it would
still do. DEDUCED (log 31): an access of it to path 0x7 or to a table that has been performed stays. -/
def undoGroup (s0 : State) : State :=
  match imageOf s0.w (fidOf s0) with
  | none => s0
  | some im =>
    let mine := fun (p : Pend) => p.fib == fidOf s0 && decide (im.f.seq ≤ p.seq)
    let s := withdrawWrites s0 fun u => u.ag == curKey s0 && u.wg == curWg s0 && u.seq < 2 ^ 41 && decide (im.f.seq ≤ u.seq) && u.cls != .sync
    let took := fun (i : Nat) => s.w.pend.foldl (fun n p => match p.kind with
      | .strm j m => if mine p && j == i then n + m else n
      | _ => n) 0
    let t := (s.w.pend.filter mine).foldl dropPend s
    let landed := im.pend.filter fun p => p.fib == fidOf s && !t.w.pend.any fun q => q.fib == p.fib && q.seq == p.seq
    let w := rowsWithout t.w im
    let u := modCl { t with f := fibreWithout t.f im landed took, w := { w with images := w.images.filter fun x => x.fib != fidOf s } }
      (curCl s) fun c => { c with tbq := c.tbq.filter fun o => !(o.fib == curKey s && decide (im.f.seq ≤ o.seq)) }
    postNew u ([0, 1, 2, 3].map fun i => Ev.fetch s.cur (Fin.ofNat 4 i))
/-- A trap of the current fibre at the group it issued last, delivered while it waits; `undo`: the group is suppressed. -/
def trapWaiting (s : State) (maj cause : Nat) (resume : Bool) (addr : Word64) (undo : Bool) : State :=
  let word := wordOfMajor s s.f.gpos maj
  let t := if undo then undoGroup (withdrawMsg s) else leaveWait s resume
  enterTrap { t with f := { t.f with st := .ready } }
    { cause := cause, wslot := word.1, tword := word.2, lanes := s.f.sp.mask, addr := addr, base := s.f.gpos
      resume := resume, after := if undo then none else some s.f.sp.pos }
/-- The partner fibre of an exchange is Saved, with its workgroup or with its slot alone (R166, 10 R189). -/
def partnerSaved (s : State) (g : Nat) : Bool :=
  let w := getWg s (wgKey s.w.launch g)
  w.saved || (match warpKeyOf s w s.w.idx with
    | some k => (getF s (4 * k + fidOf s)).saved
    | none => false)
/-- EXCHANGE_TIMEOUT (R165) of an exchange that is not matched: the message withdrawn, the fault at the `xshuf`; with replay
it is sent again with the same number. The timeout does not run while a party is Saved. DESIGN CHOICE (log 31): a handler
that passes over the word leaves the number as it was, so that the fibre's next exchange has it. -/
def timeoutXshuf (s : State) : State :=
  match xshufOf s.f with
  | some (n, g, _) =>
    if s.f.saved || partnerSaved s g || (xshufMatch s).isSome then s
    else trapWaiting { s with f := { s.f with exLost := some (g, n) } } 0x20 0x1C6 false 0 true
  | none => s
/-- EXCHANGE_TIMEOUT. -/
def execExchangeTimeout (a : Agent) (s : State) : Host.Outcome State Fault Refusal :=
  .next (onAgent s a timeoutXshuf)

/-! The regroup (R168 to R170). -/

/-- Rows of the current fibre's window that the slot holds. -/
def windowRows (s : State) : List Nat :=
  ((List.range (hWinLen (curL s).hdr (fidOf s))).map (rowOf s)).filter fun r => decide (r < s.w.rows.length)
/-- `regroup` (R168); of the handler split, a nested trap (10 R180). -/
def execRegroup (p : Pfx) (d : Dst) (a : Src) (s : State) : Host.Outcome State Fault Refusal :=
  .next (runWord (.regroup p d a) (fun s => do
    if inHandler s.f then faultAll s 0x1E9
    need s (nSplits s.f == 1) 0x144
    let (s1, x, _) ← readSrc s a
    ready ((windowRows s).all fun r => !inFlight (rW s) r)
    let s2 ← laterResult s1 d
    return setWait (post s2 [.regroup s.w.launch s.w.g (fidOf s)]) (.regroup d x)) s)

/-- The participants of a rendezvous: fibre keys of the workgroup's warps by index, whose fibre f has not Ended. -/
def participants (s : State) (w : Wg) (f : Nat) : List Nat :=
  let l := (List.range 64).filterMap fun i => warpKeyOf s w i
  (l.map fun k => 4 * k + f).filter fun k =>
    match (getF s k).st with
    | .ended | .absent => false
    | .ready | .issuing | .waiting _ => true
/-- The key row of a participant that has arrived. -/
def regroupKey (f : Fibre) : Option (Dst × Row) :=
  if f.saved || f.trapped then none
  else (waitsOf f).findSome? fun c => match c with
    | .regroup d x => some (d, x)
    | _ => none
/-- Insertion by key, then place. -/
def insertItem (x : Nat × Nat × Nat) : List (Nat × Nat × Nat) → List (Nat × Nat × Nat)
  | [] => [x]
  | y :: r => if x.1 < y.1 then x :: y :: r else y :: insertItem x r
/-- The order of the move: (key, participant, lane). -/
def regroupOrder (s : State) (ps : List Nat) : List (Nat × Nat × Nat) :=
  (List.range ps.length).foldl (fun acc i =>
    let f := getF s (ps.getD i 0)
    match regroupKey f with
    | some (_, x) => (lanesOf f.live).foldl (fun acc l => insertItem ((lane x l).toNat, i, l) acc) acc
    | none => acc) []
/-- Lanes a nest stack holds: in phase B the resume lanes execute and the entry holds the others (02 R28). -/
def nestLanes (l : List NestEntry) : LaneSet :=
  l.foldl (fun a e => match e with
    | .call _ => a
    | .div _ k none => a ||| k
    | .div _ _ (some (_, _, held)) => a ||| held) 0
/-- One participant after the move: rows of the window as the participants' groups left them, `wid`, masks and lanes of the items
that come to it; what others have written since stands at the lanes it names (02 R38, 06 R102). DESIGN CHOICE
(log 71): a lane that becomes live joins the executing mask, and nest entries keep their lanes (R169 names no mask); a
window row that a warp does not hold reads zero as a source and takes nothing. -/
def regroupOne (old s : State) (ps : List Nat) (order : List (Nat × Nat × Nat)) (i : Nat) : State :=
  let key := ps.getD i 0
  let items := (order.drop (32 * i)).take 32
  let from_ := fun (l : Nat) => let x := items.getD l (0, 0, 0); (ps.getD x.2.1 0, x.2.2)
  let m := setOf fun l => decide (l < items.length)
  onAgent s (.vec key) fun s =>
    let rs := windowRows s
    let srcW := fun (l : Nat) => getW old ((from_ l).1 / 4)
    let left := fun (l r : Nat) => match imageOf (srcW l) ((from_ l).1 % 4) with
      | some im => (im.left.getD r zeroRow, tget 0 im.leftPois r)
      | none => ((srcW l).rows.getD r zeroRow, tget 0 (srcW l).pois r)
    let takes := fun (l r : Nat) => inSet m l && !(match imageOf s.w (fidOf s) with
      | some im => inSet (tget 0 im.wrote r) l
      | none => false)
    let w1 := rs.foldl (fun (w : Warp) r =>
      { w with
        rows := w.rows.set r (rowGen fun l =>
          if takes l r then lane (left l r).1 (from_ l).2 else lane (w.rows.getD r zeroRow) l)
        pois := tset 0 w.pois r (setOf fun l =>
          if takes l r then inSet (left l r).2 (from_ l).2 else inSet (tget 0 w.pois r) l) }) s.w
    let w2 := { w1 with
      wid := (List.range 32).map fun l => if inSet m l then (srcW l).wid.getD (from_ l).2 0 else w1.wid.getD l 0 }
    let srcM := fun (l j : Nat) => inSet ((getF old (from_ l).1).m.getD j 0) (from_ l).2
    let f := s.f
    let nest := f.sp.nest.map (nestMask m)
    let f1 := { f with
      live := m
      m := [0, 1, 2, 3].map fun j => setOf fun l => inSet m l && srcM l j
      sp := { f.sp with mask := m &&& ~~~(nestLanes nest), nest := nest } }
    let t := { s with w := w2, f := f1 }
    let d := (regroupKey f).map (·.1)
    let v := rowGen fun l => BitVec.ofNat 32 ((getW old ((from_ l).1 / 4)).idx * 32 + (from_ l).2)
    let u := resultLands t (d.getD .none) m v
    if m = 0 then fibreEnds u else u
/-- Every participant of a regroup has arrived. -/
def allArrived (s : State) (launch g f : Nat) : Bool :=
  let ps := participants s (getWg s (wgKey launch g)) f
  !ps.isEmpty && ps.all fun k => (regroupKey (getF s k)).isSome
/-- REGROUP_MOVE (R168, R169): once every participant has arrived. -/
def moveRegroup (s : State) (launch g f : Nat) : State :=
  let w := getWg s (wgKey launch g)
  let ps := participants s w f
  if !allArrived s launch g f then s
  else
    let order := regroupOrder s ps
    perfCl ((List.range ps.length).foldl (fun t i => regroupOne s t ps order i) s) w.cluster 0x3D order.length
/-- REGROUP_MOVE. -/
def execRegroupMove (launch g f : Nat) (s : State) : Host.Outcome State Fault Refusal :=
  .next (moveRegroup s launch g f)

end Sys2Proof.Machine
end

