-- ==== Sys2Proof/Machine/System.lean ====
section
/-! DEFINITION. Majors 0x06 and 0x07 (10 R171 to R187), the watchdog and debug events (10 R190, R191), and the granting,
eviction and restoring of rows (10 R187 to R189). -/

namespace Sys2Proof.Machine

/-! Waiting, handing over, stopping (R173 to R177). -/

/-- `wait` (R173). -/
def execWait (p : Pfx) (x : Fin 4) (i : BitVec 8) (s : State) : Host.Outcome State Fault Refusal :=
  .next (runWord (.wait p x i) (fun s =>
    .ok (if cntOf (rF s) x.val ≤ i.toNat then (if x.val = 2 then noteCe s else s)
      else setWait s (.counter x.val i.toNat))) s)
/-- `yield` (R174); without effect on a frond stream (R172). -/
def execYield (p : Pfx) (s : State) : Host.Outcome State Fault Refusal :=
  .next (runWord (.yield p) (fun s =>
    .ok (match s.cur with
      | .vec _ => setXfer s .yield
      | _ => s)) s)
/-- Another fibre of the set waits at an `fbar` of another set that names this one (R175). -/
def fbarClash (s : State) (set : BitVec 4) : Bool :=
  [0, 1, 2, 3].any fun i =>
    set.getLsbD i && i != fidOf s &&
    (match fbarSet (getF s (curKey s / 4 * 4 + i)) with
     | some x => x != set && x.getLsbD (fidOf s)
     | none => false)
/-- `fbar` (R175); of the handler split, a nested trap (R180). -/
def execFbar (p : Pfx) (x : BitVec 4) (s : State) : Host.Outcome State Fault Refusal :=
  .next (runWord (.fbar p x) (fun s => do
    if inHandler s.f then faultAll s 0x1E9
    need s (!fbarClash s x) 0x14A
    return setWait s (.fbar x)) s)
/-- The key of fibre f of the current slot. -/
def sibling (s : State) (f : Nat) : Nat := curKey s / 4 * 4 + f
/-- `fstop` on a fibre other than the issuer, or on the issuer with its token set (Table 10.3). -/
def stopOther (f : Fibre) : Fibre :=
  match f.st with
  | .absent | .ended => f
  | .ready | .issuing | .waiting _ =>
    if f.wake then { f with wake := false }
    else match f.st with
      | .waiting [.stop] | .waiting [.held ..] => f
      | _ => { f with stopPend := true }
/-- `fstop` (R177, Table 10.3). -/
def execFstop (p : Pfx) (f : Fin 4) (s : State) : Host.Outcome State Fault Refusal :=
  .next (runWord (.fstop p f) (fun s =>
    if sibling s f.val = curKey s then
      if s.f.wake then .ok { s with f := { s.f with wake := false } } else .ok (setWait s .stop)
    else .ok (setF s (sibling s f.val) (stopOther (getF s (sibling s f.val))))) s)
/-- `fwake` on a fibre other than the issuer (Table 10.3). -/
def wakeOther (f : Fibre) : Fibre :=
  match f.st with
  | .absent | .ended => f
  | .waiting [.held ..] => f
  | .waiting [.stop] => { f with st := .ready }
  | .ready | .issuing | .waiting _ =>
    if f.wake then f else if f.stopPend then { f with stopPend := false } else { f with wake := true }
/-- `fwake` (R177, Table 10.3). -/
def execFwake (p : Pfx) (f : Fin 4) (s : State) : Host.Outcome State Fault Refusal :=
  .next (runWord (.fwake p f) (fun s =>
    if sibling s f.val = curKey s then .ok { s with f := { s.f with wake := true } }
    else .ok (setF s (sibling s f.val) (wakeOther (getF s (sibling s f.val))))) s)

/-! Traps (R178, R181). -/

/-- `trap` (R178); in the handler split a nested trap (R180). -/
def execTrap (p : Pfx) (i : BitVec 8) (s : State) : Host.Outcome State Fault Refusal :=
  .next (runWord (.trap p i) (fun s => faultAll s 0x1E8) s)
/-- `tret` (R181): not ready while an access that the handler split issued before the group is in flight. -/
def execTret (p : Pfx) (s : State) : Host.Outcome State Fault Refusal :=
  .next (runWord (.tret p) (fun s => do
    ready (!(rW s).pend.any fun x => x.fib == fidOf s && x.hs)
    return setXfer s .tret) s)

/-! CSRs (R184, 06 Table 6.3, 20 Table 20.4). -/

/-- Counters of timing and caches (log 6). -/
def perfIsFree (c : Nat) : Bool :=
  c == 0x25 || c == 0x28 || (0x2A ≤ c && c ≤ 0x2E) || c == 0x3C
/-- Such a counter of a core or of 768 + a cluster: the events of every step since reset, modulo 2^32 (20 R345). -/
def perfSum (s : State) (c unit : Nat) : Word :=
  BitVec.ofNat 32 ((List.range (s.tick - s.tick0)).foldl (fun n i => n + Config.perfStep c unit (s.tick0 + i)) 0)
/-- A performance counter, 0x23 to 0x3F, as the current agent reads it, as it stood before the group (20 R346, R352). -/
def perfRead (s : State) (c : Nat) : Word :=
  if c < 0x35 then
    match s.cur with
    | .vec k =>
      if perfIsFree c then perfSum s c (coreOf k)
      else (match s.grp with
        | some g => g.perf
        | none => (getCore s (coreOf k)).perf).getD (c - 0x23) 0
    | _ => 0
  else if perfIsFree c then perfSum s c (768 + curCl s)
  else (match s.grp with
    | some g => g.perfCl
    | none => (getCl s (curCl s)).perf).getD (c - 0x35) 0
/-- `wid` of the lowest active lane. -/
def widLow (s : State) : Word64 := s.w.wid.getD (lowestLane (act s)) 0
/-- What a CSR reads. -/
def csrValue (s : State) (c : Nat) : Word :=
  let f := rF s
  let w := fun n => BitVec.ofNat 32 n
  let h := (curL s).hdr
  match c with
  | 0x00 => f.fmode
  | 0x01 => f.fflags
  | 0x02 => f.amax.getD 0 0
  | 0x03 => f.amax.getD 1 0
  | 0x04 => fstatOf f s.cur
  | 0x05 => f.sp.mask
  | 0x06 => f.live
  | 0x08 => lo32 (widLow s)
  | 0x09 => hi32 (widLow s)
  | 0x0A => w (hWidth h 0 + hWidth h 1 * 2 ^ 7 + hWidth h 2 * 2 ^ 14 + hWidth h 3 * 2 ^ 21)
  | 0x0B => w (hWidth h 4 + hWidth h 5 * 2 ^ 7 + hLevel h * 2 ^ 14)
  | 0x0C => w (hWinBase h (fidOf s) + hWinLen h (fidOf s) * 2 ^ 7 + (rW s).rows.length * 2 ^ 13)
  | 0x10 => w (f.trap.cause + f.trap.wslot * 2 ^ 9 + f.trap.gslot * 2 ^ 11 + (if f.trap.resume then 2 ^ 16 else 0))
  | 0x11 => f.trap.tepc
  | 0x12 => f.trap.tword
  | 0x13 => lo32 f.trap.taddr
  | 0x14 => hi32 f.trap.taddr &&& 0x3FFFFF#32
  | 0x15 => f.trap.tlanes
  | 0x16 => f.trap.tscr0
  | 0x17 => f.trap.tscr1
  | 0x18 => w (cntOf f 0 + cntOf f 1 * 2 ^ 8 + cntOf f 2 * 2 ^ 16 + cntOf f 3 * 2 ^ 24)
  | 0x20 => (getCl s (curCl s)).sprep
  | 0x21 => lo32 s.cyc
  | 0x22 => f.cyHi.getD (hi32 s.cyc)
  | _ => perfRead s c
/-- `csrr` (R184, 20 R352). -/
def execCsrr (p : Pfx) (x : KReg) (i : BitVec 8) (s : State) : Host.Outcome State Fault Refusal :=
  .next (runWord (.csrr p x i) (fun s =>
    let t := writeK s x.val (csrValue s i.toNat)
    .ok (if i = 0x21#8 then { t with f := { t.f with cyHi := some (hi32 s.cyc) } }
      else if i = 0x22#8 then { t with f := { t.f with cyHi := none } } else t)) s)
/-- What a `csrw` leaves (R184, 06 Tables 6.4, 6.5, 6.7). -/
def csrStore (f : Fibre) (c : Nat) (v : Word) : Fibre :=
  match c with
  | 0x00 => { f with fmode := writeMode f.fmode v }
  | 0x01 => { f with fflags := f.fflags &&& ~~~v }
  | 0x10 => { f with trap := { f.trap with resume := v.getLsbD 16 } }
  | 0x16 => { f with trap := { f.trap with tscr0 := v } }
  | 0x17 => { f with trap := { f.trap with tscr1 := v } }
  | _ => f
/-- `csrw` (R184). -/
def execCsrw (p : Pfx) (x : KReg) (i : BitVec 8) (s : State) : Host.Outcome State Fault Refusal :=
  .next (runWord (.csrw p x i) (fun s => do
    let v ← readK s x
    return { s with f := csrStore s.f i.toNat v }) s)

/-! Rows of a core (R186 to R189). -/

/-- The next multiple of 8. -/
def roundUp8 (n : Nat) : Nat := (n + 7) / 8 * 8
/-- Warp keys of a core's slots. -/
def coreSlots (core : Nat) : List Nat := (List.range 16).map fun i => core * 16 + i
/-- Runs reserved on a core, but the run of one slot: base, length. -/
def coreRuns (s : State) (core : Nat) (but : Nat) : List (Nat × Nat) :=
  (coreSlots core).filterMap fun k =>
    let w := getW s k
    if w.live && w.resv != 0 && k != but then some (w.base, w.resv) else none
/-- A run is free. -/
def runFree (rs : List (Nat × Nat)) (base n : Nat) : Bool :=
  decide (base + n ≤ 1024) && rs.all fun r => decide (base + n ≤ r.1) || decide (r.1 + r.2 ≤ base)
/-- The lowest base at which a run of n rows fits (06 R98). -/
def fitRun (rs : List (Nat × Nat)) (n : Nat) : Option Nat :=
  ((List.range 128).map (8 * ·)).find? fun b => runFree rs b n
/-- Events that follow when room frees on a core or a cluster (02 R24, 10 R187, R188). -/
def roomEvs (s : State) (cores : List Nat) : List Ev :=
  cores.flatMap (fun c => [Ev.rgrow c, Ev.restoreSlot c]) ++
  s.launches.filterMap fun p => if p.2.live then some (Ev.place p.1) else none
/-- Room freed on a core. -/
def roomOn (s : State) (core : Nat) : State := postNew s (roomEvs s [core])

/-- `rgrow` (R187): a group that asks for more rows is not ready; the grant raises the count first. -/
def execRgrow (p : Pfx) (i : BitVec 8) (s : State) : Host.Outcome State Fault Refusal :=
  .next (runWord (.rgrow p i) (fun s => do
    if inHandler s.f then faultAll s 0x1E9
    ready (decide (i.toNat ≤ (rW s).rows.length))
    return s) s)
/-- The row count lowered (R186). -/
def dropRows (w : Warp) (n : Nat) : Warp :=
  { w with rows := w.rows.take n, resv := roundUp8 n, pois := w.pois.filter fun p => decide (p.1 < n) }
/-- `rshrink` (R186). -/
def execRshrink (p : Pfx) (i : BitVec 8) (s : State) : Host.Outcome State Fault Refusal :=
  .next (runWord (.rshrink p i) (fun s => do
    if inHandler s.f then faultAll s 0x1E9
    let n := i.toNat
    ready (!((rW s).pend.any fun x => x.rows.any fun r => decide (n ≤ r.1)))
    if s.w.rows.length ≤ n then return s
    else return roomOn { s with w := dropRows s.w n } (curKey s / 64)) s)

/-- The requests of a core's slots that hold rows: slot, rows, age. -/
def growRequests (s : State) (core : Nat) : List (Nat × Nat × Nat) :=
  (coreSlots core).flatMap fun k =>
    let w := getW s k
    if w.live && w.resv != 0 then w.rg.map fun x => (k, x.2.2.1, x.2.2.2) else []
/-- The oldest request of a core. -/
def oldestGrow (s : State) (core : Nat) : Option (Nat × Nat × Nat) :=
  (growRequests s core).foldl (fun best x => match best with
    | none => some x
    | some b => if x.2.2 < b.2.2 then some x else best) none
/-- RGROW_GRANT (R187): the oldest request, if it fits; the slot's requests for no more rows than it then has are met. DESIGN CHOICE
(log 88): where the run moves, the slot's own old run counts as free. -/
def grantGrow (s : State) (core : Nat) : State :=
  match oldestGrow s core with
  | none => s
  | some (k, n, _) =>
    let w := getW s k
    let rs := coreRuns s core k
    let base := if runFree rs w.base (roundUp8 n) then some w.base else fitRun rs (roundUp8 n)
    match base with
    | none => s
    | some b =>
      let w1 := { w with
        base := b, resv := Nat.max w.resv (roundUp8 n), rg := w.rg.filter fun x => decide (n < x.2.2.1)
        rows := w.rows ++ List.replicate (n - w.rows.length) zeroRow }
      postNew (setW s k w1) [.rgrow core, .restoreSlot core]
/-- RGROW_GRANT. -/
def execRgrowGrant (core : Nat) (s : State) : Host.Outcome State Fault Refusal := .next (grantGrow s core)

/-- Fibres of a slot. -/
def slotFibres (k : Nat) : List Nat := [4 * k, 4 * k + 1, 4 * k + 2, 4 * k + 3]
/-- A warp is blocked in `rgrow` (R188). -/
def rgBlocked (s : State) (k : Nat) : Bool :=
  (slotFibres k).all fun i =>
    !(getF s i).saved && match (getF s i).st with
    | .absent | .ended | .waiting _ => true
    | .ready | .issuing => (getW s k).rg.any fun x => x.1 == i % 4
/-- Warps resident with rows on a core. -/
def resident (s : State) (core : Nat) : List Nat :=
  (coreSlots core).filter fun k => (getW s k).live && !(getW s k).retired && (getW s k).resv != 0
/-- A fibre marked Saved; it will return to the state it left (02 Table 2.3). -/
def saveFibre (f : Fibre) : Fibre :=
  match f.st with
  | .absent | .ended => f
  | .ready | .issuing | .waiting _ => { f with saved := true }
/-- Bytes of shadow storage of a cluster (01 Table 1.3). -/
def shadowSize : Nat := 3 * 2 ^ 19
/-- Bytes of it in use. -/
def shadowUsed (s : State) (cl : Nat) : Nat := (getCl s cl).saves.foldl (fun n x => n + x.inShadow) 0
/-- Bytes that a slot's eviction saves: its rows and its fibres' records. -/
def slotBytes (w : Warp) : Nat := 128 * w.rows.length + w.nfib * Config.saveFibre
/-- Bytes stored one after another. -/
def wrList (m : Tab Byte) (a : Nat) : List Byte → Tab Byte
  | [] => m
  | b :: r => wrList (wrByte m a b) (a + 1) r
/-- The lowest place at which n bytes fit among runs, below a limit; 0 where they fit nowhere. -/
def fitArea (rs : List (Nat × Nat)) (n lim : Nat) : Nat :=
  ((0 :: rs.map fun r => r.1 + r.2).foldl (fun (best : Option Nat) a =>
    if decide (a + n ≤ lim) && rs.all fun r => decide (a + n ≤ r.1) || decide (r.1 + r.2 ≤ a) then
      some (match best with
        | none => a
        | some b => Nat.min a b)
    else best) none).getD 0
/-- Where a cluster's spill area begins in a partition's device memory (12 R223). -/
def spillAt (s : State) (part cl : Nat) : Nat := spillStart (getPart s part) + 3 * 2 ^ 20 * cl
/-- Device memory with a save's bytes from its spill part on; a partition without memory has no spill region. -/
def spillBytes (s : State) (part cl at1 : Nat) (l : List Byte) : Tab Byte :=
  if partTop (getPart s part) = 0 then s.mem else wrList s.mem (spillAt s part cl + at1) l
/-- A save of which `k` bytes go to shadow storage and the others to the spill area (R189, 22 R377). -/
def addSave (s : State) (cl part : Nat) (slot : Bool) (key k : Nat) (l : List Byte) : State :=
  let c := getCl s cl
  let n := l.length - k
  let x : SaveArea :=
    { slot := slot, key := key, inShadow := k, inSpill := n
      shAt := fitArea (c.saves.map fun x => (x.shAt, x.inShadow)) k shadowSize
      spAt := fitArea (c.saves.map fun x => (x.spAt, x.inSpill)) n (3 * 2 ^ 20) }
  setCl { s with mem := spillBytes s part cl x.spAt (l.drop k) } cl
    { c with saves := c.saves ++ [x], shadow := wrList c.shadow x.shAt (l.take k) }
/-- Words as bytes. -/
def wordBytes (ws : List Word) : List Byte :=
  ws.flatMap fun w => [w.extractLsb' 0 8, w.extractLsb' 8 8, w.extractLsb' 16 8, w.extractLsb' 24 8]
/-- Bytes of a save whose layout the spec does not give, from place `a` of it on (log 8). -/
def openBytes (s : State) (cl a n : Nat) : List Byte := (List.range n).map fun i => Config.saveByte s.tick cl (a + i)
/-- An evicted slot's save, its fibres' records and its rows, in shadow storage where it has room, else in the spill area (R189). -/
def saveSlot (s : State) (cl k : Nat) : State :=
  let w := getW s k
  let n := slotBytes w
  addSave s cl (getL s w.launch).part true k (if shadowUsed s cl + n ≤ shadowSize then n else 0)
    (openBytes s cl 0 (w.nfib * Config.saveFibre) ++ w.rows.flatMap wordBytes)
/-- A save read back. -/
def dropSave (s : State) (cl : Nat) (slot : Bool) (key : Nat) : State :=
  modCl s cl fun c => { c with saves := c.saves.filter fun x => !(x.slot == slot && x.key == key) }
/-- A slot evicted (R188, R189). -/
def evictSlot (s : State) (core k : Nat) : State :=
  let w := getW s k
  let notify := (w.rg.filter fun x => gnOf (getF s (4 * k + x.1)).fmode).map fun x => (4 * k + x.1, x.2.1)
  let s1 := (slotFibres k).foldl (fun t i => setF t i (saveFibre (getF t i))) s
  let s2 := saveSlot (setW s1 k { w with resv := 0, rg := [], stall := 0 }) (k / 64) k
  perfCore (modCore s2 core fun c => { c with evicted := c.evicted ++ [⟨k, w.resv, notify⟩] }) core 0x34 1
/-- The youngest of some warps. -/
def youngest (s : State) (l : List Nat) : Option Nat :=
  l.foldl (fun b k => match b with
    | none => some k
    | some x => if (getW s x).order < (getW s k).order then some k else b) none
/-- Every resident warp of a core is blocked and a request for rows is pending (R188). -/
def evictable (s : State) (core : Nat) : Bool :=
  let l := resident s core
  l.all (rgBlocked s) && l.any fun k => !(getW s k).rg.isEmpty
/-- Elements of output streams of a slot are still to be performed, before the slot is saved (18 R331). -/
def strmOut (s : State) (k : Nat) : Bool :=
  (getW s k).pend.any fun p => match p.kind with
    | .strm .. => true
    | _ => false
/-- REGISTER_GROW_EVICTION (R188): while every resident warp is blocked and a request is pending. -/
def evictGrow (s : State) (core : Nat) : State :=
  let l := resident s core
  if !evictable s core then s
  else match youngest s l with
    | none => s
    | some k => if strmOut s k then s else postNew (grantGrow (evictSlot s core k) core) [.evict core, .restoreSlot core]
/-- REGISTER_GROW_EVICTION. -/
def execRegisterGrowEviction (core : Nat) (s : State) : Host.Outcome State Fault Refusal := .next (evictGrow s core)

/-- A Saved fibre back in the state it left (02 R35, 18 R331). -/
def unsaveFibre (s : State) (k : Nat) : State :=
  if (getF s k).saved then
    onAgent s (.vec k) fun s =>
      let f := dropLatches s.f
      let t := { s with f := { f with saved := false, streams := f.streams.map dropQueue } }
      postNew t (([0, 1, 2, 3].map fun i => Ev.fetch (.vec k) (Fin.ofNat 4 i)) ++
        [.regroup s.w.launch s.w.g (k % 4)] ++ exchangeEvs t)
  else s
/-- A fibre to be notified takes 0x146 at the `rgrow` that its split holds (R188). -/
def notifyGrow (s : State) (x : Nat × Nat) : State :=
  let f := getF s x.1
  let g := if f.cs = x.2 then f else dropLatches (takeSplit f x.2)
  setF s x.1 { g with fails := g.fails ++ [⟨0x146, 0, 0, g.sp.mask, false, false, none, 0⟩] }
/-- The partition of a slot's warp is neither being saved nor Saved (22 R376). -/
def slotRuns (s : State) (k : Nat) : Bool := decide ((getPart s (getL s (getW s k).launch).part).pre ≤ 1)
/-- EVICTED_SLOT_RESTORE (R188): the slot evicted first whose partition runs, when a run of its size is free and none is to be
evicted. -/
def restoreEvicted (s : State) (core : Nat) : State :=
  match (getCore s core).evicted.find? fun e => slotRuns s e.slot with
  | none => s
  | some e =>
    match if evictable s core then none else fitRun (coreRuns s core e.slot) e.rows with
    | none => s
    | some b =>
      let s1 := dropSave (modCore s core fun c => { c with evicted := c.evicted.erase e }) (core / 4) true e.slot
      let s2 := setW s1 e.slot { getW s1 e.slot with base := b, resv := e.rows }
      let s3 := (slotFibres e.slot).foldl unsaveFibre s2
      postNew (e.notify.foldl notifyGrow s3) ([.restoreSlot core] ++ roomEvs s [core])
/-- EVICTED_SLOT_RESTORE. -/
def execEvictedSlotRestore (core : Nat) (s : State) : Host.Outcome State Fault Refusal := .next (restoreEvicted s core)

/-! Traps that no word raises. -/

/-- The first word at an address, from the code as it stands. -/
def wordAt (s : State) (p : Pos) : Word :=
  match codeWords s (whoCur s) p.pkt with
  | .ok ws => ws.getD p.slot 0
  | .error _ => 0
/-- A held failure delivered to the current fibre (10 R178, R191, 16 R293, 25 R414): `tepc` names the group issued last or
the one to issue next; in a wait, the group it waits in. -/
def deliverFail (s : State) (h : HeldFail) : State :=
  let f := s.f
  let inWait := match f.st with
    | .waiting _ => true
    | _ => false
  let base := h.at1.getD (if h.last || inWait then f.gpos else f.sp.pos)
  let grow := wordWhere s base fun w => fld w 24 6 == 7 && fld w 8 4 == 4
  let u := leaveWait s false
  let copy := decide (0x183 ≤ h.cause ∧ h.cause ≤ 0x187)
  let v := if copy then modCl u (curCl s) fun c => { c with
      cmds := c.cmds.map fun x =>
        if x.fib == curKey s && x.num == h.tword.toNat / 65536 && x.held.isSome then { x with delivered := true } else x }
    else u
  let t := { v with f := { v.f with st := .ready } }
  enterTrap t
    { cause := h.cause, wslot := if h.cause = 0x146 then grow.1 else if h.last || h.at1.isSome then h.slot else base.slot
      tword := if h.cause = 0x146 then grow.2 else h.tword
      lanes := h.lanes, addr := h.addr, base := base, resume := resumes h.cause
      after := if h.last || inWait || h.at1.isSome then some f.sp.pos else none, cont := some f.sp.pos }
/-- A held failure may be delivered now (16 R293): the fibre is neither Saved nor waiting on stop, nor Trapped but for a
failure of the handler split's own access, which nests (10 R180); while it waits otherwise, only one that names the group
to issue next. DESIGN CHOICE (log 89): a debug event of another split of a Trapped fibre, whose group stands (R191), is held until
after `tret` as any other failure is. -/
def canDeliver (f : Fibre) (h : HeldFail) : Bool :=
  (!f.trapped || (h.hs && inHandler f)) && !f.saved &&
  match f.st with
  | .absent | .ended | .waiting [.stop] | .waiting [.held ..] => false
  | .waiting _ => !h.last
  | .ready | .issuing => true
/-- The first held failure of some kind delivered, in the order in which they occurred. -/
def deliverCause (s : State) (p : HeldFail → Bool) : State :=
  match s.f.fails.find? fun h => p h && canDeliver s.f h with
  | none => s
  | some h => deliverFail { s with f := { s.f with fails := s.f.fails.erase h } } h
/-- The oldest held failure delivered. -/
def deliverNext (s : State) : State := deliverCause s fun _ => true

/-- WATCHDOG (R190): the slot's Issuing fibre stalls on a group whose first word has Y clear; the split that stalled takes
the trap. -/
def watchdogTrap (s0 : State) : State :=
  match s0.cur with
  | .vec k =>
    let s := if s0.f.cs = s0.w.stallAt then s0 else { s0 with f := dropLatches (takeSplit s0.f s0.w.stallAt) }
    if s0.w.stall = 0 || (getPart s0 (curL s0).part).wdlg = 0 || s0.w.fib ≠ k % 4 || s0.f.saved || s0.f.st ≠ .issuing then s0
    else
      enterTrap s
        { cause := 0x1E2, wslot := s.f.sp.pos.slot, tword := wordAt s s.f.sp.pos, lanes := act s, addr := 0
          base := s.f.sp.pos, resume := false, after := none }
  | _ => s0
/-- WATCHDOG. -/
def execWatchdog (a : Agent) (s : State) : Host.Outcome State Fault Refusal := .next (onAgent s a watchdogTrap)
/-- BREAKPOINT (R191): the trap after a group at the armed packet; `commit` holds it when the group issues. -/
def execBreakpoint (a : Agent) (s : State) : Host.Outcome State Fault Refusal :=
  .next (onAgent s a fun s => deliverCause s fun h => h.cause == 0x1E1)
/-- SINGLE_STEP (R191). -/
def execSingleStep (a : Agent) (s : State) : Host.Outcome State Fault Refusal :=
  .next (onAgent s a fun s => deliverCause s fun h => h.cause == 0x1E3)

/-- DATA_WATCHPOINT (R191): the trap after an access in the watched region. -/
def execDataWatchpoint (a : Agent) (lanes : LaneSet) (va : Word64) (s : State) : Host.Outcome State Fault Refusal :=
  .next (onAgent s a fun s => deliverCause s fun h => h.cause == 0x1E4 && h.lanes == lanes && h.addr == va)

/-! The debug block's RELEASE (R191). -/

/-- A fibre held by a nested trap. -/
def isHeld (f : Fibre) : Bool :=
  match f.st with
  | .waiting [.held ..] => true
  | _ => false
/-- The agents of a cluster in HOLD's order. -/
def clusterAgents (cl : Nat) : List Agent :=
  (List.range 256).map (fun i => .vec (cl * 256 + i)) ++ [.frond cl]
/-- The fibre HOLD shows. -/
def heldAgent (s : State) (cl : Nat) : Option Agent := (clusterAgents cl).find? fun a => isHeld (getF s (fibKey a))
/-- RELEASE with act 1. -/
def endHeld (s : State) : State :=
  fibreEnds { s with f := { exitLanes s.f s.f.live with
    trap := TrapRegs.zero, sp := Split.none, splits := List.replicate 4 Split.none } }
/-- RELEASE_END. -/
def execReleaseEnd (cluster : Nat) (s : State) : Host.Outcome State Fault Refusal :=
  .next (hostWrite s fun s => match heldAgent s cluster with
    | some a => onAgent s a endHeld
    | none => s)
/-- RELEASE with act 2: the fibre returns to its handler at the group after the one that raised the nested trap. -/
def returnHeld (s : State) : State :=
  let after := match s.f.st with
    | .waiting [.held _ (some p)] => p
    | _ => groupEnd s s.f.sp.pos
  { s with f := { moveTo s.f after with st := .ready } }
/-- RELEASE_RETURN. -/
def execReleaseReturn (cluster : Nat) (s : State) : Host.Outcome State Fault Refusal :=
  .next (hostWrite s fun s => match heldAgent s cluster with
    | some a => onAgent s a returnHeld
    | none => s)

end Sys2Proof.Machine
end

