-- ==== Sys2Proof/Machine/Staging.lean ====
section
/-! DEFINITION. Device registers on path 0x7 (12 R225, R226): the staging bank and GO (06 R114, 16 R283, R284, R287, 23
R387), FSTART and FSTAT (11 R194), CLINFO and the rest of 12 Table 12.5. -/

namespace Sys2Proof.Machine

/-! The staging bank (16 R283). -/

/-- The bank the executing split reaches, with its written set. -/
def stgBank (s : State) : List Word64 × BitVec 4 :=
  match bank s.f with
  | some h => (h.stg, h.stgSet)
  | none => (s.f.stg, s.f.stgSet)
/-- The bank set. -/
def setBank (s : State) (l : List Word64) (m : BitVec 4) : State :=
  match bank s.f with
  | some h => { s with f := { s.f with hnd := some { h with stg := l, stgSet := m } } }
  | none => { s with f := { s.f with stg := l, stgSet := m } }
/-- A store to SRC, DST, SHAPE or FLAGS. -/
def stageStore (s : State) (reg : Nat) (v : Word64) : State :=
  let b := stgBank s
  setBank s (b.1.set reg v) (b.2 ||| (1#4 <<< reg))
/-- STAGING_STORE. -/
def execStagingStore (a : Agent) (reg : Fin 4) (v : Word64) (s : State) : Host.Outcome State Fault Refusal :=
  .next (onAgent s a fun s => stageStore s reg.val v)

/-- SHAPE.len. -/
def shLen (v : Word64) : Nat := bf v.toNat 0 20
/-- SHAPE.rows. -/
def shRows (v : Word64) : Nat := bf v.toNat 20 12
/-- SHAPE.spitch in bytes. -/
def shSpitch (v : Word64) : Nat := bf v.toNat 32 16 * 4
/-- SHAPE.dpitch in bytes. -/
def shDpitch (v : Word64) : Nat := bf v.toNat 48 16 * 4
/-- FLAGS.mode. -/
def flMode (v : Word64) : Nat := bf v.toNat 0 2
/-- FLAGS.rel. -/
def flRel (v : Word64) : Bool := v.getLsbD 5
/-- FLAGS.rscope. -/
def flRscope (v : Word64) : Nat := bf v.toNat 6 2
/-- FLAGS.tb. -/
def flTb (v : Word64) : Bool := v.getLsbD 8
/-- FLAGS.tbi. -/
def flTbi (v : Word64) : Nat := bf v.toNat 9 4
/-- Bytes of an index (FLAGS.isz). -/
def flIsize (v : Word64) : Nat := if v.getLsbD 13 then 2 else 4
/-- FLAGS.ioff. -/
def flIoff (v : Word64) : Nat := bf v.toNat 16 20
/-- FLAGS.tlim. -/
def flTlim (v : Word64) : Nat := bf v.toNat 36 16

/-- A side on path 0x4 whose row or pitch is no multiple of its handle's element size (R284, 2). -/
def sideBad (s : State) (va : Word64) (len pitch : Nat) : Bool :=
  let d := getDesc s (curCtx s) (bf va.toNat 38 12)
  bf va.toNat 50 4 == 4 && d.valid && (len % esizeBytes d != 0 || pitch % esizeBytes d != 0)
/-- Misuse of FLAGS (R284, 3). -/
def flagsBad (s : State) (v : Word64) (rows : Nat) : Bool :=
  let n := v.toNat
  let m := flMode v
  bf n 14 2 != 0 || bf n 52 12 != 0 || (bf n 2 1 == 0 && bf n 3 2 != 0) || (bf n 5 1 == 0 && bf n 6 2 != 0) ||
  ((m == 0 || m == 3) && (bf n 13 1 != 0 || flIoff v != 0 || flTlim v != 0)) || (m == 2 && bf n 13 1 != 0) ||
  (m == 1 && (flIoff v % flIsize v != 0 || decide (hScr (curL s).hdr < flIoff v + (rows + 1) * flIsize v))) ||
  (flTb v && (!flRel v || flRscope v == 0))
/-- Acquire bit and its scope (15 R279). -/
def flAcq (v : Word64) : Bool := v.getLsbD 2
/-- See `flAcq`. -/
def flAscope (v : Word64) : Nat := bf v.toNat 3 2
/-- The slot of buffer t that a fibre holds Reserved; held slots stand plus 1. -/
def heldR (f : Fibre) (t : Nat) : Option Nat :=
  match tget 0 f.tbR t with
  | 0 => none
  | n + 1 => some n
/-- The slot of buffer t that a fibre holds Acquired. -/
def heldA (f : Fibre) (t : Nat) : Option Nat :=
  match tget 0 f.tbA t with
  | 0 => none
  | n + 1 => some n
/-- The destination leaves the slot passed (23 R387). -/
def destOutside (s : State) (dst shape : Word64) (t slot : Nat) : Bool :=
  let b := (getWg s (curWg s)).tbufs.getD t ⟨0, 0, 0, [], 0, 0⟩
  let lo := bf dst.toNat 0 50
  let start := curCl s * 2 ^ 20 + b.start + slot * b.size
  bf dst.toNat 50 4 != 2 || decide (lo < start) ||
  decide (start + b.size < lo + shRows shape * shDpitch shape + shLen shape)
/-- The checks of a GO, in order (R284, 23 R387). -/
def goCause (s : State) : Option Nat :=
  let b := stgBank s
  let src := b.1.getD 0 0
  let dst := b.1.getD 1 0
  let shape := b.1.getD 2 0
  let flags := b.1.getD 3 0
  if b.2 ≠ 0xF#4 then some 0x180
  else if shLen shape = 0 || sideBad s dst (shLen shape) (shDpitch shape) ||
      (flMode flags != 3 && sideBad s src (shLen shape) (shSpitch shape)) then some 0x181
  else if flagsBad s flags (shRows shape) then some 0x182
  else if !flTb flags then none
  else if hNtb (curL s).hdr ≤ flTbi flags then some 0x14D
  else match heldR s.f (flTbi flags) with
    | none => some 0x186
    | some slot => if destOutside s dst shape (flTbi flags) slot then some 0x14F else none
/-- A store to GO (R284, R287): the cause of the word's lanes, or the command on its way to the engine. -/
def goIssue (s : State) (lanes : LaneSet) (va : Word64) : R State :=
  match goCause s with
  | some c => .error (.fault c lanes va)
  | none => do
    ready (decide (cntOf s.f 2 < 255 ∧ cntOf s.f 1 < 255))
    let b := stgBank s
    let flags := b.1.getD 3 0
    let slot := if flTb flags then tget 0 s.f.tbR (flTbi flags) else 0
    let cmd := b.1 ++ [BitVec.ofNat 64 slot, BitVec.ofNat 64 s.nextId]
    let num := (s.f.goes + s.w.pend.countP fun p => p.fib == fidOf s && (match p.kind with
      | .go _ => true
      | _ => false)) % 65536
    let t := setBank (if flAcq flags then noteRel s (goKey (curKey s) num) (scopeOfCode (flAscope flags)) else s) b.1 0
    let f := if flTb flags then { t.f with tbR := tset 0 t.f.tbR (flTbi flags) 0 } else t.f
    let t1 := { t with f := cntUp f 1, nextId := t.nextId + 1 }
    return post (inFlightAdd t1 (Pend.mk0 t1 (.go cmd))) [.goAccept (curCl s)]

/-- A fault of an event at the group the fibre issues next. -/
def eventFault (s : State) (cause : Nat) (lanes : LaneSet) (addr : Word64) : State :=
  enterTrap s
    { cause := cause, wslot := s.f.sp.pos.slot, tword := wordAt s s.f.sp.pos, lanes := lanes, addr := addr
      base := s.f.sp.pos, resume := resumes cause, after := none }
/-- A word's effect as an event. -/
def eventOf (s : State) (r : R State) : State :=
  match r with
  | .ok t => t
  | .error (.fault c l a) | .error (.faultKeep c l a) => eventFault s c l a
  | .error .stall => s
/-- GO. -/
def execGo (a : Agent) (s : State) : Host.Outcome State Fault Refusal :=
  .next (onAgent s a fun s => eventOf s (goIssue s (act s) 0x001C000000000020#64))

/-- Forced pre-emption holds the command (16 R294, 22 R377). -/
def cmdStopped (s : State) (c : Cmd) : Bool := decide (2 ≤ (getPart s (getL s (c.wg / 2 ^ 64)).part).pre)
/-- A start store that the same fibre issued before an access still waits: accesses to path 0x7 keep their order (12 R226). -/
def startBefore (w : Warp) (p : Pend) : Bool :=
  w.pend.any fun x => x.fib == p.fib && decide (x.seq < p.seq) && (match x.kind with
    | .fstart .. => true
    | _ => false)
/-- A GO that the same fibre issued before an access still waits. -/
def goBefore (w : Warp) (p : Pend) : Bool :=
  w.pend.any fun x => x.fib == p.fib && decide (x.seq < p.seq) && (match x.kind with
    | .go _ => true
    | _ => false)
/-- GOs on their way to the engine of a cluster: warp key and access. -/
def pendingGos (s : State) (cl : Nat) : List (Nat × Pend × List Word64) :=
  (List.range 64).flatMap fun i =>
    (getW s (cl * 64 + i)).pend.filterMap fun p => match p.kind with
      | .go c => if heldByWait s (4 * (cl * 64 + i) + p.fib) p.seq || startBefore (getW s (cl * 64 + i)) p then none
        else some (cl * 64 + i, p, c)
      | _ => none
/-- The GO that comes first. -/
def firstGo (l : List (Nat × Pend × List Word64)) : Option (Nat × Pend × List Word64) :=
  l.foldl (fun b x => match b with
    | none => some x
    | some y => if (x.2.2.getD 5 0).toNat < (y.2.2.getD 5 0).toNat then some x else b) none
/-! What follows an access that is performed. -/

/-- What may follow once an access of the current agent is performed: tile-buffer changes held for it (23 R385), the end
of its warp (02 R37), of its stream or of its prologue's run (22 R369). -/
def afterAccess (s : State) : State :=
  let evs := match s.cur with
    | .vec k => [Ev.tbApply (k / 256)] ++ (if s.f.st = .ended then [Ev.retire (k / 4)] else [])
    | .frond c => [Ev.tbApply c] ++ (if s.f.st = .ended then [Ev.frondEnd c] else [])
    | .prol q => if s.f.st = .ended then [Ev.indirect q] else []
    | .none => []
  let need := (getCl s (curCl s)).tbq.isEmpty && s.f.st != .ended
  let t := if need then s else postNew s evs
  if s.f.saved then postNew t [.saved (curPart s)] else t
/-- Where an arrival of the current agent goes: launch, workgroup, barrier, count (R244, R251); the end of a
publication (17 R309) or of an `enq` (22 R372). -/
def arrivalOf (s : State) (p : Pend) : Option Ev :=
  match p.kind with
  | .arrive i _ => some (.arrival s.w.launch s.w.g i 1 s.cur)
  | .rsig g i c => some (.arrival s.w.launch g i c s.cur)
  | .publish .. => some (.published s.cur)
  | .enq .. => some (.enqDone s.cur)
  | _ => none
/-- Arrivals and publications of the current agent before which no access is in flight follow (R244, 17 R309). -/
def freeArrivals (s : State) : State :=
  let free := s.w.pend.filter fun p =>
    p.fib == fidOf s && !heldByWait s (curKey s) p.seq && !s.w.pend.any fun x => x.fib == p.fib && decide (x.seq < p.seq)
  postNew s (free.filterMap (arrivalOf s))
/-- GO_ACCEPT (R287): the first pending GO takes a free entry of the queue. DESIGN CHOICE (log 90): a command's number is how many
GOs of its fibre were accepted before it, so the first is 0. -/
def acceptGo (s : State) (cl : Nat) : State :=
  match firstGo (pendingGos s cl) with
  | none => s
  | some (k, p, c) =>
    if 32 ≤ ((getCl s cl).cmds.filter fun x => !cmdStopped s x).length then s
    else
      let w := getW s k
      let key := 4 * k + p.fib
      let f := getF s key
      let v := c.getD 3 0
      let cmd : Cmd :=
        { src := c.getD 0 0, dst := c.getD 1 0, shape := c.getD 2 0, flags := v, fib := key, num := f.goes
          wg := wgKey w.launch w.g
          tbs := match (c.getD 4 0).toNat with
            | 0 => none
            | n + 1 => some (flTbi v, n)
          row := 0, byte := 0, strec := none, idx := none, running := false, held := none, delivered := false, paid := false, again := false }
      let s1 := setW s k { w with pend := w.pend.filter fun x => x != p }
      let s2 := setF s1 key { (if jointLeft w p then f else cntDown f 1) with goes := (f.goes + 1) % 65536 }
      let s3 := modCl s2 cl fun x => { x with cmds := x.cmds ++ [cmd] }
      post (onAgent s3 (agentOf key) fun s => afterAccess (freeArrivals s)) ([.copyStart cl, .frondStart cl] ++ (if 1 < (pendingGos s cl).length then [.goAccept cl] else []) )
/-- GO_ACCEPT. -/
def execGoAccept (cluster : Nat) (s : State) : Host.Outcome State Fault Refusal := .next (acceptGo s cluster)

/-! The frond core's start register (11 R194). -/

/-- A start store that waits. -/
def isStart : PKind → Bool
  | .fstart .. => true
  | _ => false
/-- The start store that has waited longest for the queue: its warp, access, value, arrival (R194; DEDUCED, log 83: R194
states the order of the requests in the queue). -/
def waitingStart (s : State) (cl : Nat) : Option (Nat × Pend × Word64 × Nat) :=
  ((List.range 64).flatMap fun i =>
    (getW s (cl * 64 + i)).pend.filterMap fun p => match p.kind with
      | .fstart v age => if heldByWait s (4 * (cl * 64 + i) + p.fib) p.seq || goBefore (getW s (cl * 64 + i)) p then none
        else some (cl * 64 + i, p, v, age)
      | _ => none).foldl (fun best x => match best with
    | none => some x
    | some b => if x.2.2.2 < b.2.2.2 then some x else best) none
/-- A start store performed (R194): refused where its workgroup's stream is queued or running. -/
def enterStart (s : State) (cl g : Nat) (v : Word64) : State :=
  let c := getCl s cl
  if c.frondWg = some g || c.frondQ.any (fun x => x.1 == g) then setCl s cl { c with refused := true }
  else post (setCl s cl { c with frondQ := c.frondQ ++ [(g, v)] }) [.frondStart cl]
/-- A store to FSTART: it waits while the queue is full, and behind those that wait (R194). -/
def fstartStore (s : State) (v : Word64) : R State :=
  let cl := curCl s
  let goes := s.w.pend.any fun p => p.fib == fidOf s && (match p.kind with
    | .go _ => true
    | _ => false)
  if 16 ≤ (getCl s cl).frondQ.length || (waitingStart s cl).isSome || goes || s.w.pend.any (fun p => isStart p.kind) then do
    roomFor s (.fstart v 0)
    return inFlightAdd s (Pend.mk0 s (.fstart v s.tick))
  else .ok (enterStart s cl (curWg s) v)
/-- FSTART. -/
def execFstart (a : Agent) (v : Word64) (s : State) : Host.Outcome State Fault Refusal :=
  .next (onAgent s a fun s => eventOf s (fstartStore s v))

/-! Reading and writing the registers (12 Tables 12.5, 12.6). -/

/-- CLINFO. -/
def clinfo (s : State) (cl : Nat) : Word64 :=
  BitVec.ofNat 64 (cl + (getCl s cl).part * 2 ^ 8 + dieOf cl * 2 ^ 12 + (2 + cl / 32) * 2 ^ 16 + cl / 4 % 8 * 2 ^ 20 +
    cl % 4 * 2 ^ 23)
/-- FSTAT. -/
def fstatReg (s : State) (cl : Nat) : Word64 :=
  let c := getCl s cl
  BitVec.ofNat 64 ((if c.frondWg.isSome then 1 else 0) + c.frondQ.length * 2 + (if c.refused then 64 else 0) +
    c.lastcause * 128)
/-- A register of path 0x7 read. -/
def readReg (s : State) (off : Nat) : Word64 :=
  match off with
  | 0x00 => (stgBank s).1.getD 0 0
  | 0x08 => (stgBank s).1.getD 1 0
  | 0x10 => (stgBank s).1.getD 2 0
  | 0x18 => (stgBank s).1.getD 3 0
  | 0x108 => fstatReg s (curCl s)
  | 0x110 => clinfo s (curCl s)
  | 0x200 => BitVec.ofNat 64 s.devid.toNat
  | 0x208 => s.accw.extractLsb' 0 64
  | 0x210 => s.accw.extractLsb' 64 64
  | 0x218 => s.timens
  | _ => 0
/-- A register of path 0x7 written by lanes of a word at an address. -/
def writeReg (s : State) (off : Nat) (v : Word64) (lanes : LaneSet) (va : Word64) : R State :=
  match off with
  | 0x00 => .ok (stageStore s 0 v)
  | 0x08 => .ok (stageStore s 1 v)
  | 0x10 => .ok (stageStore s 2 v)
  | 0x18 => .ok (stageStore s 3 v)
  | 0x20 => goIssue s lanes va
  | 0x100 => fstartStore s v
  | 0x108 => .ok (if v.getLsbD 6 then modCl s (curCl s) fun c => { c with refused := false } else s)
  | _ => .ok s

end Sys2Proof.Machine
end

