-- ==== Sys2Proof/Machine/MemOps.lean ====
section
/-! DEFINITION. Loads and stores (13 R229 to R237), their completion (13 Table 13.1), slice passes and their grants (14
R256 to R261, R263), acknowledgements (20 R347). -/

namespace Sys2Proof.Machine

/-! Addresses and checks of a word (12 R220, 13 R230). -/

/-- Bytes of a size. -/
def ldBytes : LdSize → Nat
  | .b8 | .s8 => 1
  | .b16 | .s16 => 2
  | .b32 => 4
  | .b64 => 8
  | .b128 => 16
/-- Bytes of a size. -/
def stBytes : StSize → Nat
  | .b8 => 1
  | .b16 => 2
  | .b32 => 4
  | .b64 => 8
  | .b128 => 16
/-- Bytes of a size. -/
def kBytes : KSize → Nat
  | .b8 => 1
  | .b16 => 2
  | .b32 => 4
  | .b64 => 8
/-- Bytes of a size. -/
def sBytes : SSize → Nat
  | .b16 => 2
  | .b32 => 4
  | .b64 => 8
  | .b128 => 16
/-- Word 0 of a loaded value (04 Table 4.4). -/
def ldExtend (z : LdSize) (v : Nat) : Word :=
  match z with
  | .s8 => (BitVec.ofNat 8 v).signExtend 32
  | .s16 => (BitVec.ofNat 16 v).signExtend 32
  | .b8 | .b16 | .b32 | .b64 | .b128 => BitVec.ofNat 32 v

/-- The address of each active lane: its pair plus an offset. -/
def pairAddrs (s : State) (lo hi : Row) (off : Nat) : List (Nat × Word64) :=
  (lanesOf (act s)).map fun l => (l, pair64 (lane lo l) (lane hi l) + BitVec.ofNat 64 off)
/-- The n pair a, read. -/
def readAddrs (s : State) (a : NReg) (off : Nat) : R (List (Nat × Word64)) := do
  let lo ← readN s a.val
  let hi ← readN s (a.val + 1)
  return pairAddrs s lo hi off
/-- Places of a word's lanes, each located by `f`; the lowest failing lane's cause, the lanes that fail with it (12 R220). -/
def locAll (l : List (Nat × Word64)) (f : Word64 → Except Nat Loc) : R (List (Nat × Loc)) :=
  let res := l.map fun x => (x.1, x.2, f x.2)
  let causeOf := fun (r : Except Nat Loc) => match r with
    | .error c => some c
    | .ok _ => none
  match res.find? fun x => (causeOf x.2.2).isSome with
  | some (_, va, .error c) => .error (.fault c (setOf fun i => res.any fun x => x.1 == i && causeOf x.2.2 == some c) va)
  | _ => .ok (res.filterMap fun x => match x.2.2 with
    | .ok loc => some (x.1, loc)
    | .error _ => none)
/-- Places by the checks of 12 R220. -/
def locWord (s : State) (k : Acc2) (l : List (Nat × Word64)) (size : Nat) : R (List (Nat × Loc)) :=
  locAll l fun va => locate s (whoCur s) k va size
/-- Places of the short form: an offset beyond the allocation is cause 0x04B whatever its size (13 R237). -/
def locShort (s : State) (k : Acc2) (l : List (Nat × Word64)) (size : Nat) : R (List (Nat × Loc)) :=
  locAll l fun va =>
    if hScr (curL s).hdr ≤ va.toNat % 2 ^ 50 then .error 0x04B else locate s (whoCur s) k va size
/-- A value at a place: registers of path 0x7 among them. -/
def valueAt (s : State) (l : Loc) (size : Nat) : Nat × Bool :=
  match l with
  | .reg off => ((readReg s off).toNat, false)
  | _ => readLoc s l size
/-- Accesses of a fibre to path 0x7 keep their order (12 R226): one that reads or writes FSTAT or the time waits for a GO or a start
store of it that waits; the staging bank of a waiting GO has been read. -/
def regsInOrder (s : State) (locs : List (Nat × Loc)) : R Unit :=
  let late := fun (l : Loc) => match l with
    | .reg off => decide (0x108 ≤ off)
    | _ => false
  ready (!(locs.any fun x => late x.2) || !(rW s).pend.any fun p => p.fib == fidOf s && (match p.kind with
    | .go _ | .fstart .. => true
    | _ => false))
/-- A request leaves the unit for a place (20 R347). -/
def leaves (l : Loc) : Bool :=
  match l with
  | .dev _ | .slice .. | .host _ | .peer .. | .own _ => true
  | .reg _ | .fill _ | .oob _ => false
/-- Lanes of reads that the device's own export window refuses (25 R413, R414). -/
def readRefused (s : State) (locs : List (Nat × Loc)) : List (Nat × Loc) :=
  locs.filter fun x => match x.2 with
    | .own off => (ownWindow s off false false).isNone
    | _ => false

/-! Loads. -/

/-- Word i of a value of more than one register. -/
def wordPart (v i : Nat) : Word := BitVec.ofNat 32 (v / 2 ^ (32 * i))
/-- A load whose places are known (13 R233): rows, entry, latch b2 when the data return. -/
def loadLanes (s : State) (addrs : List (Nat × Word64)) (locs : List (Nat × Loc)) (size d n : Nat) (ext : Nat → Word)
    (o : MOrd) (c : Scope) (sx : Bool) : R State := do
  roomFor s .load
  regsInOrder s locs
  let vals := (keptLanes s locs).map fun x => (x.1, valueAt s x.2 size)
  let valOf := fun l => ((vals.find? fun x => x.1 == l).map (·.2.1)).getD 0
  let bad := setOf fun l => vals.any fun x => x.1 == l && x.2.2
  let rows := (List.range n).map fun i => rowOf s (d + i)
  let p : Pend :=
    { Pend.mk0 s .load with
      rows := rows.map fun r => (r, act s), lanes := act s, pois := bad
      data := (List.range n).map fun i => rowGen fun l =>
        if inSet (act s) l then (if i = 0 ∧ n = 1 then ext (valOf l) else wordPart (valOf l) i) else 0 }
  let t := noteLoads (pushLater (claimRows s (act s) rows) p 2 true) addrs (keptLanes s locs) size o c sx
  let u := holdLost (holdRefused (sendAccess t p locs size false) (readRefused s locs) addrs) (lostLanes s locs) addrs
  return watch (perfCur u 0x2F 1) addrs size true false
/-- Every data register lies below the row count (10 R185). -/
def haveRows (s : State) (d n : Nat) : R Unit := (List.range n).forM fun i => haveRow s (d + i)
/-- `ld` (R233). -/
def execLd (p : Pfx) (d a : NReg) (z : LdSize) (o : Fin 32) (r : MOrd) (c : Scope) (s : State) :
    Host.Outcome State Fault Refusal :=
  .next (runWord (.ld p d a z o r c) (fun s => do
    haveRows s d.val (ldRegs z)
    let addrs ← readAddrs s a (o.val * (ldBytes z))
    let locs ← locWord s .ld addrs (ldBytes z)
    loadLanes s addrs locs (ldBytes z) d.val (ldRegs z) (ldExtend z) r c (z == .s8 || z == .s16)) s)
/-- `ldc` (R235, R236). -/
def execLdc (p : Pfx) (d a : NReg) (z : KSize) (r : MOrd) (c : Scope) (s : State) : Host.Outcome State Fault Refusal :=
  .next (runWord (.ldc p d a z r c) (fun s => do
    haveRows s d.val (kRegs z)
    let addrs ← readAddrs s a 0
    let locs ← locWord s .ldc addrs (kBytes z)
    loadLanes s addrs locs (kBytes z) d.val (kRegs z) (BitVec.ofNat 32) r c false) s)
/-- Addresses of the short form (R237). -/
def shortAddrs (s : State) (a : NReg) (off : Nat) : R (List (Nat × Word64)) := do
  let v ← readN s a.val
  return (lanesOf (act s)).map fun l => (l, BitVec.ofNat 64 (3 * 2 ^ 50 + ((lane v l).toNat + off) % 2 ^ 32))
/-- `lds` (R237). -/
def execLds (p : Pfx) (d a : NReg) (z : SSize) (o : Fin 32) (r : MOrd) (c : Scope) (s : State) :
    Host.Outcome State Fault Refusal :=
  .next (runWord (.lds p d a z o r c) (fun s => do
    haveRows s d.val (sRegs z)
    let addrs ← shortAddrs s a (o.val * (sBytes z))
    let locs ← locShort s .ld addrs (sBytes z)
    loadLanes s addrs locs (sBytes z) d.val (sRegs z) (BitVec.ofNat 32) r c false) s)
/-- Earlier loads of k i drop their value (07 R126). -/
def supersedeK (s : State) (i : Nat) : State :=
  let old := fun (p : Pend) =>
    if p.fib == fidOf s && p.hb == kBanked s.f i then
      { p with ks := p.ks.map fun x => if x.1 == i then (i + 16, x.2) else x }
    else p
  { s with w := { s.w with pend := s.w.pend.map old } }
/-- `ldk` (R234, 07 R126). -/
def execLdk (p : Pfx) (d a : KReg) (z : KSize) (o : Fin 32) (r : MOrd) (c : Scope) (s : State) :
    Host.Outcome State Fault Refusal :=
  .next (runWord (.ldk p d a z o r c) (fun s => do
    let base ← readKK s a
    let va := base + BitVec.ofNat 64 (o.val * (kBytes z))
    roomFor s .load
    match locate s (whoCur s) .ldk va (kBytes z) with
    | .error cause => .error (.fault cause (act s) va)
    | .ok loc =>
      regsInOrder s [(0, loc)]
      let addrs := [(lowestLane (act s), va)]
      let v := if routeDown s loc then (0, false) else valueAt s loc (kBytes z)
      let ks := if kRegs z = 1 then [(d.val, BitVec.ofNat 32 v.1)]
        else [(d.val, wordPart v.1 0), (d.val + 1, wordPart v.1 1)]
      let t := ks.foldl (fun t x => supersedeK t x.1) s
      let q : Pend := { Pend.mk0 t .load with ks := ks, hb := kBanked s.f d.val, pois := if v.2 then 1 else 0 }
      let n := noteLoads t addrs (keptLanes s [(lowestLane (act s), loc)]) (kBytes z) r c false
      let u := holdLost (sendAccess n q [(0, loc)] (kBytes z) false) (lostLanes s [(lowestLane (act s), loc)]) addrs
      return watch (perfCur u 0x2F 1) addrs (kBytes z) true false) s)

/-! Stores. -/

/-- The registers a word's lanes write, each with its highest lane (16 R283), in the order of their offsets. -/
def regWrites (locs : List (Nat × Loc)) : List (Nat × Nat) :=
  [0x00, 0x08, 0x10, 0x18, 0x20, 0x100, 0x108].filterMap fun off =>
    ((locs.filter fun x => x.2 == .reg off).getLast?).map fun x => (off, x.1)
/-- A word that made several accesses that count in vs raises it once (R229): the last of them lowers it. -/
def joinAccesses (pre s : State) : State :=
  if cntOf s.f 1 ≤ cntOf pre.f 1 + 1 then s
  else
    let old := pre.w.pend.length
    let new := (s.w.pend.drop old).map fun p => { p with joint := some pre.f.seq }
    { s with f := { s.f with cnt := s.f.cnt.set 1 (cntOf pre.f 1 + 1) }, w := { s.w with pend := s.w.pend.take old ++ new } }
/-- A store whose places are known (R232, R233): `val` gives each lane's value. -/
def storeLanes (s : State) (addrs : List (Nat × Word64)) (locs : List (Nat × Loc)) (size : Nat) (val : Nat → Nat)
    (o : MOrd) (c : Scope) : R State := do
  roomFor s .store
  regsInOrder s locs
  outReady s (locs.any fun x => leaves x.2)
  let w := storeAll s (keptLanes s locs) size val
  let n := noteStores s w.1 ((keptLanes s locs).filter fun x => !w.2.contains x) size val o c
  let t := holdLost (holdRefused n w.2 addrs) (lostLanes s locs) addrs
  let t1 ← (regWrites locs).foldlM (fun (t : State) x =>
    let lanes := setOf fun l => locs.any fun y => y.1 == l && y.2 == .reg x.1
    let va := ((addrs.find? fun a => inSet lanes a.1).map (·.2)).getD 0
    writeReg t x.1 (BitVec.ofNat 64 (val x.2)) lanes va) t
  roomFor t1 .store
  let out := locs.any fun x => leaves x.2
  let u := if t1.f.seq = t.f.seq || out then sendAccess t1 (Pend.mk0 t1 .store) locs size out else t1
  return watch (perfCur (joinAccesses s u) 0x30 1) addrs size false true
/-- The value of n registers of a lane. -/
def laneValue (rows : List Row) (l : Nat) : Nat :=
  (List.range rows.length).foldl (fun v i => v + (lane (rows.getD i zeroRow) l).toNat * 2 ^ (32 * i)) 0
/-- Data registers d, d + 1, … as the group reads them. -/
def readRun (s : State) (d n : Nat) : R (List Row) := (List.range n).mapM fun i => readN s (d + i)
/-- `st` (R233). -/
def execSt (p : Pfx) (d a : NReg) (z : StSize) (o : Fin 32) (r : MOrd) (c : Scope) (s : State) :
    Host.Outcome State Fault Refusal :=
  .next (runWord (.st p d a z o r c) (fun s => do
    releaseReady s (r == .rel)
    let rows ← readRun s d.val (stRegs z)
    let addrs ← readAddrs s a (o.val * (stBytes z))
    let locs ← locWord s .st addrs (stBytes z)
    storeLanes s addrs locs (stBytes z) (fun l => laneValue rows l % 2 ^ (8 * (stBytes z))) r c) s)
/-- `stc` (R235, R236). -/
def execStc (p : Pfx) (d a : NReg) (z : KSize) (r : MOrd) (c : Scope) (s : State) : Host.Outcome State Fault Refusal :=
  .next (runWord (.stc p d a z r c) (fun s => do
    releaseReady s (r == .rel)
    let rows ← readRun s d.val (kRegs z)
    let addrs ← readAddrs s a 0
    let locs ← locWord s .stc addrs (kBytes z)
    storeLanes s addrs locs (kBytes z) (fun l => laneValue rows l % 2 ^ (8 * (kBytes z))) r c) s)
/-- `sts` (R237). -/
def execSts (p : Pfx) (d a : NReg) (z : SSize) (o : Fin 32) (r : MOrd) (c : Scope) (s : State) :
    Host.Outcome State Fault Refusal :=
  .next (runWord (.sts p d a z o r c) (fun s => do
    releaseReady s (r == .rel)
    let rows ← readRun s d.val (sRegs z)
    let addrs ← shortAddrs s a (o.val * (sBytes z))
    let locs ← locShort s .st addrs (sBytes z)
    storeLanes s addrs locs (sBytes z) (fun l => laneValue rows l % 2 ^ (8 * (sBytes z))) r c) s)
/-- `stk` (R234). -/
def execStk (p : Pfx) (d a : KReg) (z : KSize) (o : Fin 32) (r : MOrd) (c : Scope) (s : State) :
    Host.Outcome State Fault Refusal :=
  .next (runWord (.stk p d a z o r c) (fun s => do
    releaseReady s (r == .rel)
    let lo ← readK s d
    let hi ← if kRegs z = 2 then readK s (Fin.ofNat 16 (d.val + 1)) else pure 0
    let base ← readKK s a
    let va := base + BitVec.ofNat 64 (o.val * (kBytes z))
    let l := lowestLane (act s)
    match locate s (whoCur s) .stk va (kBytes z) with
    | .error cause => .error (.fault cause (act s) va)
    | .ok loc => storeLanes s [(l, va)] [(l, loc)] (kBytes z) (fun _ => (pair64 lo hi).toNat % 2 ^ (8 * (kBytes z))) r c) s)

/-! Completion. -/

/-- Publications that wait for an access (17 R309 step 6). -/
def publishers (s : State) (key seq : Nat) : List Ev :=
  (checkIn s).warps.flatMap fun x => x.2.pend.filterMap fun p => match p.kind with
    | .publish _ _ _ old => if old.contains (key, seq) then some (.published (agentOf (4 * x.1 + p.fib))) else none
    | _ => none
/-- An access of the current agent is performed: its counter falls, its acknowledgement is on its way. -/
def endAccess (s : State) (p : Pend) : State :=
  let f := match counterOf s.cur p.kind with
    | some c => if jointLeft s.w p then s.f else cntDown s.f c
    | none => s.f
  let t := { s with f := f, w := { s.w with pend := s.w.pend.filter fun x => !(x.fib == p.fib && x.seq == p.seq) } }
  let u := if p.wr then post t [.ack (unitOf s.cur) s.w.launch] else t
  let v := post (afterAccess (freeArrivals u)) (publishers u (curKey s) p.seq)
  match s.cur with
  | .vec k => if isLater p.kind then fbarRelease v (k / 4) else v
  | _ => v
/-- The first access of the current agent of some kind that nothing holds in a queue. -/
def firstDone (s : State) (k : PKind → Bool) : Option Pend :=
  s.w.pend.find? fun p => p.fib == fidOf s && k p.kind && !waitsFor s (curKey s) p.seq
/-- LOAD_DATA_RETURN (R229). -/
def returnLoad (s : State) : State :=
  match firstDone s fun k => k == .load with
  | none => s
  | some p => endAccess (land s p) p
/-- LOAD_DATA_RETURN. -/
def execLoadDataReturn (a : Agent) (s : State) : Host.Outcome State Fault Refusal := .next (onAgent s a returnLoad)
/-- STORE_PERFORMED (R229): a store, or the writes of a stream word (18 R321). -/
def performStore (s : State) : State :=
  match firstDone s fun k => match k with
    | .store | .strm .. => true
    | _ => false with
  | none => s
  | some p =>
    let t := endAccess s p
    match p.kind with
    | .strm st n =>
      let x := getS t st
      setS t st { x with writes := x.writes - n }
    | _ => t
/-- STORE_PERFORMED. -/
def execStorePerformed (a : Agent) (s : State) : Host.Outcome State Fault Refusal := .next (onAgent s a performStore)

/-- What an access waited for is done: its completion follows. -/
def queueDone (s : State) (key seq : Nat) : State :=
  if waitsFor s key seq then s
  else
    let w := getW s (key / 4)
    match w.pend.find? fun p => (if key < 49152 then p.fib == key % 4 else true) && p.seq == seq with
    | some p => post s [doneEv (agentOf key) p.kind]
    | none =>
      if 2 ^ 40 ≤ seq then postNew s [.copyLine (clusterOf key)]
      else
        let l := (getF s key).streams
        let inds := ([0, 1, 2, 3] : List Nat).filter fun i =>
          let x := l.getD i Stream.unbound
          x.bound && rcInd x.desc && !x.fdone
        if key < 49152 then postNew s (inds.map fun i => .fetch (agentOf key) (Fin.ofNat 4 i)) else s
/-- The order in which requesters are asked (14 R258). -/
def grantOrder (last : Nat) : List Nat := (List.range 8).map fun i => (last + 1 + i) % 8
/-- SLICE_PASS_GRANT (14 R258, R260): one pass, round-robin. -/
def grantPass (s : State) (cl : Nat) : State :=
  let c := getCl s cl
  match (grantOrder c.lastReq).findSome? fun r => c.passes.find? fun p => p.req == r with
  | none => s
  | some p =>
    let t := setCl s cl { c with
      passes := c.passes.erase p, lastReq := p.req, sprep := if p.replay then c.sprep + 1 else c.sprep }
    queueDone t p.fib p.seq
/-- SLICE_PASS_GRANT. -/
def execSlicePassGrant (cluster : Nat) (s : State) : Host.Outcome State Fault Refusal := .next (grantPass s cluster)
/-- SCRATCHPAD_WRITE_REFUSED (14 R263): the refused write of lanes at an address is delivered at the group boundary. -/
def execScratchpadWriteRefused (a : Agent) (va : Word64) (lanes : LaneSet) (s : State) :
    Host.Outcome State Fault Refusal :=
  .next (onAgent s a fun s => deliverCause s fun h => h.cause == 0x1F2 && h.lanes == lanes && h.addr == va)
/-- A launch complete but for its record is looked at again (20 R348). -/
def completeEvs (s : State) (launch : Nat) : List Ev := [.complete (getL s launch).comp]
/-- ACKNOWLEDGEMENT_RETURN (20 R347). -/
def execAcknowledgementReturn (unit launch : Nat) (s : State) : Host.Outcome State Fault Refusal :=
  .next (
    let n := tget 0 s.outst (outKey unit launch)
    if n ≤ 1 then s else postNew (outLower s unit launch) (completeEvs s launch ++
      (if 960 ≤ unit ∧ unit < 1152 then [.copyLine (unit - 960)] else [])))
/-- A unit of an access of the current fibre that reaches a peer in lanes of a set. -/
def peerUnit (s : State) (seq : Nat) (lanes : LaneSet) (u : MUnit) : Bool :=
  u.ag == curKey s && u.seq == seq && inSet lanes u.lane && (match u.cls with
    | .e _ => true
    | _ => false)
/-- The access in flight that failed lanes belong to: the oldest that reaches a peer in each of them (log 38). -/
def failedAccess (s : State) (lanes : LaneSet) : Option Nat :=
  s.w.pend.findIdx? fun p => lanes != 0 && p.fib == fidOf s && (p.kind == .load || p.kind == .store) &&
    (lanesOf lanes).all fun l => s.hist.any fun u => peerUnit s p.seq lanes u && u.lane == l
/-- A read that is over has returned what writes of a kind left: they have taken place, and do not fail (25 R414). -/
def readsSettled (s : State) (bad : MUnit → Bool) : Bool :=
  let l := s.hist.reverse
  (List.range l.length).any fun j => (nth l j).rd && !(nth l j).wr && !unitInFlight s (nth l j) &&
    (List.range j).any fun i => (nth l i).wr && bad (nth l i) && readsFrom l i j
/-- Loads in flight that read locations of writes that did not take place receive what stands there. -/
def rereadLoads (s0 : State) (gone : List MUnit) : State :=
  let s := checkIn s0
  backTo ((List.range s.hist.length).foldl (fun t k =>
    if (t.hist[k]?.map fun u => u.rd && !u.wr && unitInFlight t u && gone.any u.overlaps).getD false then patchLoad t k else t) s) s0.cur
/-- NETWORK_FAILURE_DELIVERY (25 R414): failed lanes of an access of path 0x6: a load or atomic in flight gets 0 in them, a
store or atomic writes nothing. -/
def failLanes (s : State) (cause : Nat) (lanes : LaneSet) (va : Word64) : State :=
  let zero := fun (p : Pend) =>
    { p with data := p.data.map fun r => rowGen fun l => if inSet lanes l then 0 else lane r l, ks := p.ks.map fun x => (x.1, 0)
             pois := if p.ks.isEmpty then p.pois &&& ~~~lanes else 0 }
  let p := (failedAccess s lanes).bind fun i => s.w.pend[i]?
  let t := match failedAccess s lanes, p with
    | some i, some p => rereadLoads (withdrawWrites { s with w := { s.w with pend := s.w.pend.modify i zero } } (peerUnit s p.seq lanes))
        (s.hist.filter fun u => u.wr && peerUnit s p.seq lanes u)
    | _, _ => s
  let h : HeldFail := match p with
    | some p => ⟨cause, p.word, va, lanes, true, p.hs, none, p.slot⟩
    | none => ⟨cause, wordAt s s.f.gpos, va, lanes, true, s.f.trapped && inHandler s.f, none, s.f.gpos.slot⟩
  let seen := match p with
    | some p => readsSettled s (peerUnit s p.seq lanes)
    | none => false
  if netCause cause && !seen then deliverNext (holdFail t h) else s
/-- NETWORK_FAILURE_DELIVERY. -/
def execNetworkFailureDelivery (a : Agent) (cause : Nat) (lanes : LaneSet) (va : Word64) (s : State) :
    Host.Outcome State Fault Refusal :=
  .next (onAgent s a fun s => failLanes s cause lanes va)

end Sys2Proof.Machine
end

