-- ==== Sys2Proof/Machine/Atom.lean ====
section
/-! DEFINITION. Atomics (13 R238 to R241): lanes in increasing order, each one step on its address. -/

namespace Sys2Proof.Machine

/-- A lane's step: what it read, whether it was poisoned, whether an exact cell overflowed. -/
structure Step1 where
  lane : Nat
  old : Nat
  bad : Bool
  xo : Bool
  deriving DecidableEq, Repr

/-- An atomic reaches memory at a place. -/
def atomRefused (s : State) (l : Loc) : Bool :=
  match l with
  | .own off => (ownWindow s off true true).isNone
  | _ => false
/-- One lane's step (R239): `f` gives the new value from the old one; an uncorrectable word is left (14 R263). -/
def atomStep (s : State) (ln : Nat) (l : Loc) (size : Nat) (f : Nat → Nat × Bool) : State × Step1 × Bool :=
  match l with
  | .fill _ | .oob _ => (s, ⟨ln, (readLoc s l size).1, false, false⟩, true)
  | _ =>
    if atomRefused s l then (s, ⟨ln, 0, false, false⟩, false)
    else
      let r := readLoc s l size
      if r.2 then (s, ⟨ln, r.1, true, false⟩, match l with
        | .slice .. => false
        | _ => true)
      else
        let n := f r.1
        ((writeLoc s l n.1 size).1, ⟨ln, r.1, false, n.2⟩, true)
/-- The steps of a word in lane order: the state after, the steps, the places refused. -/
def atomSteps (s : State) (locs : List (Nat × Loc)) (size : Nat) (f : Nat → Nat → Nat × Bool) :
    State × List Step1 × List (Nat × Loc) :=
  locs.foldl (fun r x =>
    let t := atomStep r.1 x.1 x.2 size (f x.1)
    (t.1, r.2.1 ++ [t.2.1], if t.2.2 then r.2.2 else r.2.2 ++ [x])) (s, [], [])

/-- An atomic word whose places are known: registers n of d take the old value; with n = 0 the entry holds `keep`. -/
def atomLanes (s : State) (addrs : List (Nat × Word64)) (locs : List (Nat × Loc)) (size d n : Nat) (keep : Row)
    (f : Nat → Nat → Nat × Bool) (o : MOrd) (c : Scope) : R State := do
  roomFor s .load
  ready (!fenceHolds s true)
  releaseReady s (o == .rel)
  outReady s (locs.any fun x => leaves x.2)
  let r := atomSteps s (keptLanes s locs) size f
  let old := fun l => ((r.2.1.find? fun x => x.lane == l).map (·.old)).getD 0
  let bad := setOf fun l => r.2.1.any fun x => x.lane == l && x.bad
  let rows := (List.range n).map fun i => rowOf s (d + i)
  let p : Pend :=
    { Pend.mk0 s .load with
      rows := rows.map fun r => (r, act s), lanes := act s, pois := if n = 0 then 0 else bad
      data := if n = 0 then [keep] else (List.range n).map fun i => rowGen fun l =>
        if inSet (act s) l then wordPart (old l) i else 0 }
  let done := (keptLanes s locs).filterMap fun x =>
    if r.2.2.contains x then none
    else (r.2.1.find? fun y => y.lane == x.1 && !y.bad).map fun y => (x.1, x.2, y.old, (f x.1 y.old).1)
  let n1 := noteAtoms r.1 done size o c
  let t := pushLater (claimRows (holdLost (holdRefused n1 r.2.2 addrs) (lostLanes s locs) addrs) (act s) rows) p 2 true
  let u := sendAtomic t p locs size (locs.any fun x => leaves x.2)
  let sent := (keptLanes s locs).filter fun x => leaves x.2
  let vas := (addrs.filter fun x => sent.any fun y => y.1 == x.1).map (·.2.toNat)
  let v := perfCur (perfCur (perfCur u 0x2F 1) 0x31 (distinct vas).length) 0x32 vas.length
  let w := if r.2.1.any (·.xo) then raise v 2 flagXO else v
  return watch w addrs size true true

/-- Bytes of a size. -/
def aBytes : ASize → Nat
  | .b32 => 4
  | .b64 => 8
/-- Signed reading of a value of a size. -/
def signedOf (bytes v : Nat) : Int := if v < 2 ^ (8 * bytes - 1) then v else v - 2 ^ (8 * bytes)
/-- An atomic with one operand (Table 13.5): `f old v`. -/
def atomOne (d a : NReg) (z : ASize) (r : MOrd) (c : Scope) (f : Nat → Nat → Nat) (s : State) : R State := do
  let rows ← readRun s d.val (aRegs z)
  let addrs ← readAddrs s a 0
  let locs ← locWord s .atom addrs (aBytes z)
  atomLanes s addrs locs (aBytes z) d.val (aRegs z) zeroRow (fun l old =>
    (f old (laneValue rows l) % 2 ^ (8 * aBytes z), false)) r c
/-- `atom.add`. -/
def execAtomAdd (p : Pfx) (d a : NReg) (z : ASize) (r : MOrd) (c : Scope) (s : State) :
    Host.Outcome State Fault Refusal :=
  .next (runWord (.atomAdd p d a z r c) (atomOne d a z r c (· + ·)) s)
/-- `atom.and`. -/
def execAtomAnd (p : Pfx) (d a : NReg) (z : ASize) (r : MOrd) (c : Scope) (s : State) :
    Host.Outcome State Fault Refusal :=
  .next (runWord (.atomAnd p d a z r c) (atomOne d a z r c (· &&& ·)) s)
/-- `atom.or`. -/
def execAtomOr (p : Pfx) (d a : NReg) (z : ASize) (r : MOrd) (c : Scope) (s : State) :
    Host.Outcome State Fault Refusal :=
  .next (runWord (.atomOr p d a z r c) (atomOne d a z r c (· ||| ·)) s)
/-- `atom.xor`. -/
def execAtomXor (p : Pfx) (d a : NReg) (z : ASize) (r : MOrd) (c : Scope) (s : State) :
    Host.Outcome State Fault Refusal :=
  .next (runWord (.atomXor p d a z r c) (atomOne d a z r c (· ^^^ ·)) s)
/-- `atom.min.s`. -/
def execAtomMinS (p : Pfx) (d a : NReg) (z : ASize) (r : MOrd) (c : Scope) (s : State) :
    Host.Outcome State Fault Refusal :=
  .next (runWord (.atomMinS p d a z r c)
    (atomOne d a z r c fun x y => if signedOf (aBytes z) y < signedOf (aBytes z) x then y else x) s)
/-- `atom.max.s`. -/
def execAtomMaxS (p : Pfx) (d a : NReg) (z : ASize) (r : MOrd) (c : Scope) (s : State) :
    Host.Outcome State Fault Refusal :=
  .next (runWord (.atomMaxS p d a z r c)
    (atomOne d a z r c fun x y => if signedOf (aBytes z) x < signedOf (aBytes z) y then y else x) s)
/-- `atom.min.z`. -/
def execAtomMinZ (p : Pfx) (d a : NReg) (z : ASize) (r : MOrd) (c : Scope) (s : State) :
    Host.Outcome State Fault Refusal :=
  .next (runWord (.atomMinZ p d a z r c) (atomOne d a z r c Nat.min) s)
/-- `atom.max.z`. -/
def execAtomMaxZ (p : Pfx) (d a : NReg) (z : ASize) (r : MOrd) (c : Scope) (s : State) :
    Host.Outcome State Fault Refusal :=
  .next (runWord (.atomMaxZ p d a z r c) (atomOne d a z r c Nat.max) s)
/-- `atom.exch`. -/
def execAtomExch (p : Pfx) (d a : NReg) (z : ASize) (r : MOrd) (c : Scope) (s : State) :
    Host.Outcome State Fault Refusal :=
  .next (runWord (.atomExch p d a z r c) (atomOne d a z r c fun _ y => y) s)
/-- `atom.cas`. -/
def execAtomCas (p : Pfx) (d a : NReg) (z : ASize) (r : MOrd) (c : Scope) (s : State) :
    Host.Outcome State Fault Refusal :=
  .next (runWord (.atomCas p d a z r c) (fun s => do
    let cmp ← readRun s d.val (aRegs z)
    let new ← readRun s (d.val + aRegs z) (aRegs z)
    let addrs ← readAddrs s a 0
    let locs ← locWord s .atom addrs (aBytes z)
    atomLanes s addrs locs (aBytes z) d.val (aRegs z) zeroRow (fun l old =>
      (if old = laneValue cmp l then laneValue new l else old, false)) r c) s)
/-- `atom.fadd.f32` (R240). -/
def execAtomFadd (p : Pfx) (d a : NReg) (r : MOrd) (c : Scope) (s : State) : Host.Outcome State Fault Refusal :=
  .next (runWord (.atomFadd p d a r c)
    (atomOne d a .b32 r c fun x y => (fAdd fmt32 .rn false false x y).1) s)
/-- `atom.xadd` (R241): a cell of 16 bytes at a multiple of 16. -/
def execAtomXadd (p : Pfx) (d a : NReg) (z : ASize) (r : MOrd) (c : Scope) (s : State) :
    Host.Outcome State Fault Refusal :=
  .next (runWord (.atomXadd p d a z r c) (fun s => do
    let rows ← readRun s d.val (aRegs z)
    let addrs ← readAddrs s a 0
    let locs ← locWord s .atom addrs 16
    let fmt := match z with
      | .b32 => fmt32
      | .b64 => fmt64
    atomLanes s addrs locs 16 d.val 0 (rowMask (act s) (rows.getD 0 zeroRow)) (fun l old =>
      let x := exactCellAdd (BitVec.ofNat 128 old) (fmt.decode (laneValue rows l))
      (x.1.toNat, x.2)) r c) s)

end Sys2Proof.Machine
end

