-- ==== Sys2Proof/Machine/TileBuf.lean ====
section
/-! DEFINITION. Tile buffers: slots, the words of major 0x3A, held commits and releases (23 R381 to R390). -/

namespace Sys2Proof.Machine

/-! Buffers of a workgroup and of a pipeline (R381, R382). -/

/-- No buffer. -/
def TBuf.none : TBuf := ⟨0, 0, 0, [], 0, 0⟩
/-- No pipeline buffer. -/
def PBuf.none : PBuf := ⟨0, 0, 0, 0, 0, 0, [], false⟩
/-- In-kernel buffer t of a workgroup. -/
def getTb (s : State) (wg t : Nat) : TBuf := (getWg s wg).tbufs.getD t TBuf.none
/-- It set. -/
def setTb (s : State) (wg t : Nat) (b : TBuf) : State := modWg s wg fun w => { w with tbufs := w.tbufs.set t b }
/-- Slots of a state. -/
def countSt (l : List SlotSt) (x : SlotSt) : Nat := l.countP fun y => y == x
/-- The slot word of an in-kernel slot (R381). -/
def slotWord (cl : Nat) (b : TBuf) (i : Nat) : Word := BitVec.ofNat 32 (cl * 2 ^ 20 + b.start + i * b.size)
/-- The pipeline of a launch. -/
def pipeOfL (s : State) (launch : Nat) : Option Nat := (getL s launch).pipe
/-- Pipeline buffer i of a launch. -/
def getPb (s : State) (launch i : Nat) : PBuf :=
  match pipeOfL s launch with
  | some p => (getP s p).bufs.getD i PBuf.none
  | none => PBuf.none
/-- It set. -/
def setPb (s : State) (launch i : Nat) (b : PBuf) : State :=
  match pipeOfL s launch with
  | some p => modP s p fun x => { x with bufs := x.bufs.set i b }
  | none => s
/-- The slot of a task of a pipeline buffer. -/
def taskSlot (b : PBuf) (g : Nat) : Nat := g % Nat.max b.depth 1
/-- A slot of a pipeline buffer. -/
def getPs (b : PBuf) (i : Nat) : PSlot := b.slots.getD i ⟨.empty, 0, []⟩
/-- The slot word of a pipeline slot. -/
def pipeWord (b : PBuf) (i : Nat) : Word := BitVec.ofNat 32 (b.home * 2 ^ 20 + b.start + i * b.size)
/-- A stage reads a buffer. -/
def readsPb (b : PBuf) (stage : Nat) : Bool := bf b.cons stage 1 == 1
/-- The buffer that a word names (R384): cause 0x14D. -/
def needTb (s : State) (t : Nat) : R Unit :=
  need s (if t < 16 then decide (t < hNtb (curL s).hdr)
    else match (curL s).pipe with
      | some p => decide (t - 16 < pNtb (getP s p).desc)
      | none => false) 0x14D

/-! Held changes (R385, R388). -/

/-- A commit or release takes effect. -/
def applyOp (s : State) (o : TbOp) : State :=
  if o.t < 16 then
    let b := getTb s o.wg o.t
    setTb s o.wg o.t { b with slots := b.slots.set o.slot (if o.commit then .full else .empty) }
  else
    let launch := o.wg / 2 ^ 64
    let g := o.wg % 2 ^ 64
    let b := getPb s launch (o.t - 16)
    let x := getPs b o.slot
    let y : PSlot :=
      if o.commit then { x with st := .full, fill := g % 2 ^ 32 }
      else
        let rel := (getL s launch).stage :: x.rel
        if (List.range 8).all fun i => !readsPb b i || rel.contains i then { x with st := .empty, rel := [] }
        else { x with rel := rel }
    setPb s launch (o.t - 16) { b with slots := b.slots.set o.slot y }
/-- Every access that the holder issued before the word has been performed; the group of the word stands. -/
def opReady (s : State) (o : TbOp) : Bool :=
  !heldByWait s o.fib o.seq && !(getW s (o.fib / 4)).pend.any fun p => (decide (49152 ≤ o.fib) || p.fib == o.fib % 4) && decide (p.seq < o.seq)
/-- A fibre's wait on a `tbacq`. -/
def acqWait (f : Fibre) : Option (Nat × Nat) :=
  (waitsOf f).findSome? fun c => match c with
    | .tbacq x t => some (x, t)
    | _ => none
/-- The condition is a `tbacq`. -/
def isAcq (c : Cond2) : Bool :=
  match c with
  | .tbacq .. => true
  | _ => false
/-- The slot at rp acquired by the current fibre (R385), if it is Full. -/
def acquire (s : State) (x t : Nat) : Option State :=
  let b := getTb s (curWg s) t
  if b.slots.getD b.rp .empty = .full then
    let s1 := setTb s (curWg s) t { b with slots := b.slots.set b.rp .acquired, rp := (b.rp + 1) % Nat.max b.depth 1 }
    let s2 := { s1 with f := { s1.f with tbA := tset 0 s1.f.tbA t (b.rp + 1) } }
    some (writeK (noteAcq s2 (tbKey s t b.rp) (tbScope t)) x (slotWord (curCl s) b b.rp))
  else none
/-- The current fibre's waiting `tbacq` served. -/
def serveCur (s : State) : State :=
  match acqWait s.f with
  | none => s
  | some (x, t) =>
    if s.f.saved then s
    else match acquire s x t with
      | some u => { u with f := endWait u.f isAcq }
      | none => s
/-- Waiting `tbacq` words of a workgroup served, vector cores first (R388). -/
def serveAcq (s : State) (wg : Nat) : State :=
  ((risingOf (getWg s wg).warps).flatMap fun k => [4 * k, 4 * k + 1, 4 * k + 2, 4 * k + 3]).foldl
    (fun t k => if (acqWait (getF t k)).isSome then onAgent t (.vec k) serveCur else t) s
/-- TILE_BUFFER_APPLY (R385, R388): the held changes that are due, then the acquisitions they allow. -/
def applyTb (s : State) (cl : Nat) : State :=
  let due := (getCl s cl).tbq.filter (opReady s)
  if due.isEmpty then s
  else
    let t := due.foldl applyOp (modCl s cl fun c => { c with tbq := c.tbq.filter fun o => !opReady s o })
    let u := (distinct (due.map (·.wg))).foldl serveAcq t
    let empty := (distinct (due.map (·.wg))).filter fun k => (getWg u k).warps.all fun x => (getW u x).retired
    let v := postNew u (empty.map Ev.retireWg)
    if due.any fun o => decide (16 ≤ o.t) then postNew v (roomEvs v []) else v
/-- TILE_BUFFER_APPLY. -/
def execTileBufferApply (cluster : Nat) (s : State) : Host.Outcome State Fault Refusal := .next (applyTb s cluster)
/-- A change asked for by the current holder: applied at once where nothing it must wait for is in flight. -/
def askTb (s : State) (t slot : Nat) (commit : Bool) : State :=
  let o : TbOp := ⟨curWg s, curKey s, s.f.seq, t, slot, commit⟩
  let u := modCl (noteRel s (tbKey s t slot) (tbScope t)) (curCl s) fun c => { c with tbq := c.tbq ++ [o] }
  if opReady s o then post u [.tbApply (curCl s)] else u

/-! The words (R385, R390). -/

/-- `tbres` (R385, R390). -/
def execTbres (p : Pfx) (x : KReg) (t : Fin 32) (s : State) : Host.Outcome State Fault Refusal :=
  .next (runWord (.tbres p x t) (fun s => do
    needTb s t.val
    if t.val < 16 then
      need s (heldR s.f t.val).isNone 0x14E
      let b := getTb s (curWg s) t.val
      ready (b.slots.getD b.wp .full == .empty)
      let s1 := setTb s (curWg s) t.val
        { b with slots := b.slots.set b.wp .reserved, wp := (b.wp + 1) % Nat.max b.depth 1 }
      let s2 := { s1 with f := { s1.f with tbR := tset 0 s1.f.tbR t.val (b.wp + 1) } }
      return writeK (noteAcq s2 (tbKey s t.val b.wp) .cl) x.val (slotWord (curCl s) b b.wp)
    else
      let b := getPb s s.w.launch (t.val - 16)
      need s (b.prod == (curL s).stage && !(getWg s (curWg s)).comTb.contains t.val) 0x14E
      return writeK (noteAcq s (tbKey s t.val (taskSlot b s.w.g)) .dv) x.val (pipeWord b (taskSlot b s.w.g))) s)
/-- `tbcom` (R385, R390). -/
def execTbcom (p : Pfx) (t : Fin 32) (s : State) : Host.Outcome State Fault Refusal :=
  .next (runWord (.tbcom p t) (fun s => do
    needTb s t.val
    if t.val < 16 then
      match heldR s.f t.val with
      | none => faultAll s 0x14E
      | some i => return askTb { s with f := { s.f with tbR := tset 0 s.f.tbR t.val 0 } } t.val i true
    else
      let b := getPb s s.w.launch (t.val - 16)
      need s (b.prod == (curL s).stage && !(getWg s (curWg s)).comTb.contains t.val) 0x14E
      return askTb (modWg s (curWg s) fun w => { w with comTb := t.val :: w.comTb }) t.val (taskSlot b s.w.g) true) s)
/-- `tbacq` (R385, R390). -/
def execTbacq (p : Pfx) (x : KReg) (t : Fin 32) (s : State) : Host.Outcome State Fault Refusal :=
  .next (runWord (.tbacq p x t) (fun s => do
    needTb s t.val
    if t.val < 16 then
      need s (heldA s.f t.val).isNone 0x14E
      match acquire s x.val t.val with
      | some u => return u
      | none => return setWait s (.tbacq x.val t.val)
    else
      let b := getPb s s.w.launch (t.val - 16)
      need s (readsPb b (curL s).stage && !(getWg s (curWg s)).relTb.contains t.val) 0x14E
      return writeK (noteAcq s (tbKey s t.val (taskSlot b s.w.g)) .dv) x.val (pipeWord b (taskSlot b s.w.g))) s)
/-- `tbrel` (R385, R390). -/
def execTbrel (p : Pfx) (t : Fin 32) (s : State) : Host.Outcome State Fault Refusal :=
  .next (runWord (.tbrel p t) (fun s => do
    needTb s t.val
    if t.val < 16 then
      match heldA s.f t.val with
      | none => faultAll s 0x14E
      | some i => return askTb { s with f := { s.f with tbA := tset 0 s.f.tbA t.val 0 } } t.val i false
    else
      let b := getPb s s.w.launch (t.val - 16)
      need s (readsPb b (curL s).stage && !(getWg s (curWg s)).relTb.contains t.val) 0x14E
      return askTb (modWg s (curWg s) fun w => { w with relTb := t.val :: w.relTb }) t.val (taskSlot b s.w.g) false) s)
/-- The status word of an in-kernel buffer (Table 23.4). -/
def tbStatus (f : Fibre) (b : TBuf) (t : Nat) : Word :=
  BitVec.ofNat 32 (countSt b.slots .empty + countSt b.slots .full * 2 ^ 5 + b.depth * 2 ^ 10 + b.wp * 2 ^ 15 +
    b.rp * 2 ^ 19 + (if (heldR f t).isSome then 2 ^ 23 else 0) + (if (heldA f t).isSome then 2 ^ 24 else 0))
/-- The status word of a pipeline buffer (Table 23.4). -/
def pbStatus (b : PBuf) (stage g : Nat) (released : Bool) : Word :=
  let sts := b.slots.map (·.st)
  let i := taskSlot b g
  BitVec.ofNat 32 (countSt sts .empty + countSt sts .full * 2 ^ 5 + b.depth * 2 ^ 10 + i * 2 ^ 15 +
    (if (getPs b i).st = .reserved then 2 ^ 23 else 0) + (if readsPb b stage && !released then 2 ^ 24 else 0) + 2 ^ 25)
/-- `tbst` (R386). -/
def execTbst (p : Pfx) (x : KReg) (t : Fin 32) (s : State) : Host.Outcome State Fault Refusal :=
  .next (runWord (.tbst p x t) (fun s => do
    needTb s t.val
    if t.val < 16 then return writeK s x.val (tbStatus s.f (getTb s (curWg s) t.val) t.val)
    else
      return writeK s x.val (pbStatus (getPb s s.w.launch (t.val - 16)) (curL s).stage s.w.g
        ((getWg s (curWg s)).relTb.contains t.val))) s)

end Sys2Proof.Machine
end

