-- ==== Sys2Proof/Machine/CopyEngine.lean ====
section
/-! DEFINITION. The copy and gather engine (16): commands start, move line by line, complete, fail and are held. -/

namespace Sys2Proof.Machine

/-! Addresses of a command (R286). -/

/-- Bytes of an element of a side: of its handle on path 0x4, else one. -/
def sideSize (s : State) (base : Word64) : Nat :=
  if bf base.toNat 50 4 = 4 then esizeBytes (getDesc s (curCtx s) (bf base.toNat 38 12)) else 1
/-- The address that names byte `b` of the row at byte offset `off`, and the byte's place in the element named. -/
def rowVa (s : State) (base : Word64) (off b : Nat) : Word64 × Nat :=
  let v := base.toNat
  let on := fun low => BitVec.ofNat 64 (v / 2 ^ 50 * 2 ^ 50 + low % 2 ^ 50)
  match bf v 50 4 with
  | 4 => (on (bf v 0 50 + (off + b) / sideSize s base), (off + b) % sideSize s base)
  | 8 =>
    let a := (bf v 0 50 + off) % 2 ^ 50
    if 12 ≤ a % 16 then (on a, 0)
    else
      let n := a / 16 * 12 + a % 16 + b
      (on (n / 12 * 16 + n % 12), 0)
  | _ => (on (bf v 0 50 + off + b), 0)
/-- The place has memory behind it. -/
def isPlace (l : Loc) : Bool :=
  match l with
  | .dev _ | .slice .. | .host _ | .peer .. | .own _ | .reg _ => true
  | .fill _ | .oob _ => false
/-- A failure of a command: cause, tword[8:0], address (Table 16.4). -/
abbrev CeFail : Type := Nat × Nat × Word64
/-- Where a byte of a row stands (R220, R286). -/
def rowByte (s : State) (k : Acc2) (cause : Nat) (base : Word64) (off b : Nat) : Except CeFail Loc :=
  let a := rowVa s base off b
  match locate s (whoCur s) k a.1 (sideSize s base) with
  | .error c => .error (cause, c, a.1)
  | .ok l => .ok (shiftLoc l a.2)
/-- The line of a byte (R289): 128 bytes of its side's addresses; on path 0x4 of the physical address it translates to. -/
def lineOf (base va : Word64) (r : Except CeFail Loc) : Nat × Nat :=
  if bf base.toNat 50 4 ≠ 4 then (0, va.toNat / 128)
  else match r with
    | .ok (.dev pa) => (1, pa / 128)
    | .ok (.oob _) => (2, 0)
    | .ok _ => (3, 0)
    | .error _ => (4, 0)
/-- One side of a row: where its bytes stand, and their lines. -/
structure RowSide where
  at1 : Nat → Except CeFail Loc
  line : Nat → Nat × Nat
/-- A side of a command's row at a byte offset. -/
def rowSide (s : State) (k : Acc2) (cause : Nat) (base : Word64) (off : Nat) : RowSide :=
  { at1 := rowByte s k cause base off
    line := fun b => lineOf base (rowVa s base off b).1 (rowByte s k cause base off b) }
/-- The bytes from `b` on, at most `n`, that lie in a line, all of which are checked (R286). -/
def restOfLine (f : RowSide) (line : Nat × Nat) : Nat → Nat → Except CeFail (List Loc)
  | 0, _ => .ok []
  | n + 1, b =>
    if f.line b ≠ line then .ok []
    else match f.at1 b with
      | .error e => .error e
      | .ok l => (restOfLine f line n (b + 1)).map (l :: ·)
/-- The bytes from `b` that lie in one line (R289), at most `n`. -/
def lineRun (f : RowSide) (n b : Nat) : Except CeFail (List Loc) :=
  match f.at1 b with
  | .error e => .error e
  | .ok l => (restOfLine f (f.line b) (n - 1) (b + 1)).map (l :: ·)

/-! Where a row comes from (R285). -/

/-- An offset of the allocation as an address. -/
def allocVa (off : Nat) : Word64 := BitVec.ofNat 64 (3 * 2 ^ 50 + off)
/-- The soft-error cause of poisoned bytes at a place: a slice, a line of the slice cache, LPDDR6. -/
def softCause (s : State) (l : Loc) (n : Nat) : Nat :=
  let dev := fun pa => if badUnits s.cacheBad pa n then 0x1F4 else 0x1F5
  match l with
  | .slice .. => 0x1F2
  | .dev pa => dev pa
  | .own off => dev (((ownWindow s off false false).getD 0))
  | _ => 0x1F5
/-- An index named: a zero row where it is all ones in its size, a source row, or one beyond `tlim`. -/
def namedRow (c : Cmd) (ones : Bool) (x : Nat) (va : Word64) : Except CeFail (Option Nat) :=
  if ones then .ok none else if flTlim c.flags < x then .error (0x185, 0, va) else .ok (some x)
/-- Entry r of the index array, as it stood `age` units ago. -/
def arrayRow (s : State) (c : Cmd) (age : Nat) : Except CeFail (Option Nat) :=
  let n := flIsize c.flags
  let va := allocVa (flIoff c.flags + c.row * n)
  match locate s (whoCur s) .ceSrc va 1 with
  | .error e => .error (0x185, e, va)
  | .ok l =>
    let v := readLoc s l n
    let x := agedVal s l n (if age = 0 then [] else [age])
    if v.2 then .error (0x183, 0x1F2, va) else namedRow c (x == 2 ^ (8 * n) - 1) x va
/-- An element of the index stream at an address. DEDUCED (log 34): its size is that of the stream's elements. -/
def elemRow (s : State) (c : Cmd) (r : BitVec 512) (va : Word64) (age : Nat) : Except CeFail (Option Nat) :=
  match locate s (whoCur s) .strm va (rcSize r) with
  | .error e => .error (0x185, e, va)
  | .ok l =>
    let v := readLoc s l (rcSize r)
    if v.2 then .error (0x183, softCause s l (rcSize r), va)
    else
      let x := agedVal s l (rcSize r) (if age = 0 then [] else [age])
      namedRow c (x == 2 ^ (8 * rcSize r) - 1) (rcExtend r x).toNat va
/-- The stream record at FLAGS.ioff (18 R332): a malformed one, an output one, one with an index source. -/
def readCeRecord (s : State) (c : Cmd) : Except CeFail (BitVec 512) :=
  let va := allocVa (flIoff c.flags)
  match locate s (whoCur s) .img va 64 with
  | .error e => .error (0x185, e, va)
  | .ok l =>
    let v := readLoc s l 64
    let r := BitVec.ofNat 512 v.1
    if v.2 then .error (0x183, 0x1F2, va)
    else if rcBad r 4 then .error (0x185, strCause 0 3, va)
    else if rcOut r then .error (0x185, strCause 0 2, va)
    else if rcInd r then .error (0x185, strCause 0 4, va)
    else .ok r
/-- The failure of a row length of the index stream. -/
def lenFail (s : State) (e : LenErr) : CeFail :=
  match e.1 with
  | none => (0x185, strCause 0 5, e.2)
  | some l => (0x183, softCause s l 4, e.2)
/-- Where element k of a ragged index stream stands: none past its last element. -/
def ragElem (s : State) (r : BitVec 512) (k : Nat) : Option (Nat × Nat × Except LenErr Nat) :=
  match (skipRag s r (rcCount r 1 + 1) (0, 0, 0) k).1 with
  | none => none
  | some (row, len, col) =>
    (if len = 0 then rowsFrom s r row else some (row, .ok len)).map fun x => (x.1, col, x.2)
/-- The address of element r of the index stream: none past its last element. -/
def streamVa (s : State) (c : Cmd) (r : BitVec 512) : Except CeFail (Option Word64) :=
  if rcRag r then
    match ragElem s r c.row with
    | none => .ok none
    | some (_, _, .error e) => .error (lenFail s e)
    | some (row, col, .ok _) => .ok (some (addrPlus (rcBase r) (row * rcStep r 1 + col * rcStep r 0)))
  else .ok (if rcTotal r ≤ c.row then none else some (rcPosAddr r c.row))
/-- Element r of the index stream; past its last element a zero row. -/
def streamRow (s : State) (c : Cmd) (r : BitVec 512) (age : Nat) : Except CeFail (Option Nat) :=
  match streamVa s c r with
  | .error e => .error e
  | .ok none => .ok none
  | .ok (some va) => elemRow s c r va age
/-- The stream record a command walks. -/
def recordOf (s : State) (c : Cmd) : Except CeFail (BitVec 512) :=
  match c.strec with
  | some r => .ok r
  | none => readCeRecord s c
/-- The places of the index of the cursor's row. -/
def indexPlaces (s : State) (c : Cmd) : List Loc :=
  let at1 := fun (k : Acc2) (va : Word64) (n : Nat) => match locate s (whoCur s) k va (if k == .strm then n else 1) with
    | .ok l => locBytes l n
    | .error _ => []
  match flMode c.flags with
  | 1 => at1 .ceSrc (allocVa (flIoff c.flags + c.row * flIsize c.flags)) (flIsize c.flags)
  | 2 => match recordOf s c with
    | .ok r => match streamVa s c r with
      | .ok (some va) => at1 .strm va (rcSize r)
      | _ => []
    | .error _ => []
  | _ => []
/-- The command with the source of its cursor's row, its index read as it stood `age` units ago. -/
def withRow (s : State) (c : Cmd) (age : Nat) : Except CeFail Cmd :=
  match c.idx with
  | some _ => .ok c
  | none =>
    match flMode c.flags with
    | 0 => .ok { c with idx := some (some c.row) }
    | 1 => (arrayRow s c age).map fun x => { c with idx := some x }
    | 2 =>
      match recordOf s c with
      | .error e => .error e
      | .ok r => (streamRow s c r age).map fun x => { c with strec := some r, idx := some x }
    | _ => .ok { c with idx := some none }

/-! One line (R289). -/

/-- The bytes of the next request: source places, destination places. Both lines are checked whole (R286). -/
def nextLine (s : State) (c : Cmd) : Except CeFail (List Loc × List Loc) :=
  let n := Nat.min 128 (shLen c.shape - c.byte)
  let dst := lineRun (rowSide s .ceDst 0x184 c.dst (c.row * shDpitch c.shape)) n c.byte
  match c.idx with
  | some (some x) =>
    match lineRun (rowSide s .ceSrc 0x183 c.src (x * shSpitch c.shape)) n c.byte with
    | .error e => .error e
    | .ok l => dst.map fun d => (l.take d.length, d.take l.length)
  | _ => dst.map fun d => ([], d)
/-- The own export window refuses a place (25 R413). -/
def ownRefuses (s : State) (l : Loc) (write : Bool) : Bool :=
  match l with
  | .own off => (ownWindow s off write false).isNone
  | _ => false
/-- A source or destination place that fails when the line moves. -/
def moveFail (s : State) (c : Cmd) (src dst : List Loc) : Option CeFail :=
  let x := match c.idx with
    | some (some x) => x
    | _ => 0
  let from1 := fun (i : Nat) => (rowVa s c.src (x * shSpitch c.shape) (c.byte + i)).1
  match src.findIdx? fun l => (readLoc s l 1).2 with
  | some i => some (0x183, softCause s (src.getD i (.fill 0)) 1, from1 i)
  | none =>
    let to1 := fun (i : Nat) => (rowVa s c.dst (c.row * shDpitch c.shape) (c.byte + i)).1
    match src.findIdx? (routeDown s), dst.findIdx? (routeDown s) with
    | some i, _ => some (0x183, 0x1F6, from1 i)
    | none, some i => some (0x184, 0x1F6, to1 i)
    | none, none =>
      match src.findIdx? (ownRefuses s · false) with
      | some i => some (0x183, 0x1C2, from1 i)
      | none => (dst.findIdx? (ownRefuses s · true)).map fun i => (0x184, 0x1C2, to1 i)
/-- The number under which a command's requests wait at ports and slices, with the key of its fibre. -/
def copySeq (c : Cmd) : Nat := 2 ^ 40 + c.num
/-- Requests of a line: the port, the slice that holds it (14 R258, R261; 21 R354). -/
def chargeLine (s : State) (cl : Nat) (c : Cmd) (l : List Loc) : State :=
  let t := queueUnits s cl c.fib (copySeq c) (lineUnits (l.filterMap fun x => match x with
      | .dev pa => some pa
      | _ => none) 1)
  match l.findSome? fun x => match x with
      | .slice x _ => some x
      | _ => none with
  | some x => queuePasses t x (if x = cl then 4 else 7) c.fib (copySeq c) 1 false
  | none => t
/-- Requests for the index of the cursor's row: a pass for each line of the index array (R285); the element and the row
lengths of an index stream on path 0x0, one unit each (21 R354). -/
def chargeIndex (s : State) (cl : Nat) (c : Cmd) (r : Option (BitVec 512)) : State :=
  let a := flIoff c.flags + c.row * flIsize c.flags
  let units : Nat → Nat → List Nat := fun va n => if bf va 50 4 = 0 then List.replicate n 1 else []
  let rowOf := fun (r : BitVec 512) (k : Nat) => match ragElem s r k with
    | some (row, _) => row
    | none => rcCount r 1
  match flMode c.flags, r with
  | 1, _ => if c.row == 0 || a % 128 == 0 then queuePasses s cl 4 c.fib (copySeq c) 1 false else s
  | 2, some r =>
    let lens := if rcRag r then rowOf r c.row + 1 - (if c.row = 0 then 0 else rowOf r (c.row - 1) + 1) else 0
    let there := match streamVa s c r with
      | .ok (some _) => 1
      | _ => 0
    queueUnits s cl c.fib (copySeq c) (units (rcRlt r) lens ++ units (rcBase r) there)
  | _, _ => s
/-- The command after a line of n bytes. -/
def moveCursor (c : Cmd) (n : Nat) : Cmd :=
  if c.byte + n < shLen c.shape then { c with byte := c.byte + n, paid := false, again := false } else { c with row := c.row + 1, byte := 0, idx := none, paid := false, again := false }
/-- The command has moved its last row. -/
def Cmd.over (c : Cmd) : Bool := decide (shRows c.shape < c.row)
/-- The line moved, each unit of its source read as memory stood some units of the history ago (15 R267, R268, R279): bytes written, refused ones of a slice held for the fibre (14 R263), counters (20 R347, R352). -/
def moveLine (s : State) (cl : Nat) (c : Cmd) (src dst : List Loc) (ages : List Nat) : State :=
  let val := fun i => match src[i]? with
    | some l => agedByte s src ages l
    | none => 0
  let w := storeAll s ((List.range dst.length).zip dst) 1 val
  let done := (List.range dst.length).filterMap fun i => if w.2.any (fun x => x.1 == i) then none else dst[i]?
  let n := noteCopy s w.1 (unitOfCmd s cl c.fib c.wg c.num) src done ages
  let t := match w.2 with
    | [] => n
    | x :: _ => holdFail n ⟨0x1F2, 0, (rowVa s c.dst (c.row * shDpitch c.shape) (c.byte + x.1)).1 &&& ~~~3#64, 0, true, false, none, 0⟩
  let t1 := if src.any isPlace then perfCl t cl 0x35 1 else t
  if dst.any isPlace then post (outRaise (perfCl t1 cl 0x36 1) (960 + cl) s.w.launch) [.ack (960 + cl) s.w.launch] else t1
/-- A command abandoned (R293): ce falls, nothing is released or committed. -/
def abandon (s : State) (cl : Nat) (c : Cmd) : State :=
  let t := modCl s cl fun x => { x with cmds := x.cmds.erase c }
  post { t with f := cntDown t.f 2 } [.copyStart cl, .goAccept cl, .retire (curKey s / 4)]
/-- A failure of a command (R292, R293): the command is held for its fibre; of a fibre that has Ended it is abandoned.
The current agent is the fibre. -/
def failCmd (s : State) (cl : Nat) (c : Cmd) (e : CeFail) : State :=
  if s.f.st = .ended then abandon (postCause s s.w.launch e.1 (siteOf (curKey s)) 0) cl c
  else
    let d := { c with running := false, held := some e, delivered := false, strec := none, idx := none, paid := false }
    let t := modCl s cl fun x => { x with cmds := x.cmds.map fun y => if y = c then d else y }
    post (holdFail t ⟨e.1, BitVec.ofNat 32 (e.2.1 % 512 + c.num * 65536), e.2.2, 0, false, false, none, 0⟩) [.copyStart cl]
/-- A command of a fibre that has Ended, still held: abandoned, its cause posted unless it was delivered. -/
def endHeldCmd (s : State) (cl : Nat) (c : Cmd) : State :=
  match c.held with
  | some e =>
    abandon (if c.delivered then s else postCause s s.w.launch e.1 (siteOf (curKey s)) 0) cl c
  | none => s
/-- Held commands of fibres that have Ended. -/
def sweepHeld (s : State) (cl : Nat) : State :=
  ((getCl s cl).cmds.filter fun c => c.held.isSome && (getF s c.fib).st == .ended && !cmdStopped s c).foldl
    (fun t c => onAgent t (agentOf c.fib) fun t => endHeldCmd t cl c) s
/-- The next line of a command: its failure, or its places. -/
def lineOrFail (s : State) (c : Cmd) (age : Nat) : Except (Cmd × CeFail) (Cmd × List Loc × List Loc) :=
  match withRow s c age with
  | .error e => .error (c, e)
  | .ok d =>
    match nextLine s d with
    | .error e => .error (d, e)
    | .ok (src, dst) =>
      match moveFail s d src dst with
      | some e => .error (d, e)
      | none => .ok (d, src, dst)
/-- A change of one command in its queue. -/
def setCmd (s : State) (cl : Nat) (c d : Cmd) : State :=
  modCl s cl fun x => { x with cmds := x.cmds.map fun y => if y = c then d else y }
/-- The requests of a command wait at a port or a slice. -/
def cmdWaits (s : State) (c : Cmd) : Bool := waitsFor s c.fib (copySeq c)
/-- The line at the cursor moved; the current agent is the command's fibre. -/
def finishLine (s : State) (cl : Nat) (c d : Cmd) (src dst : List Loc) (ages : List Nat) : State :=
  let n := moveCursor d dst.length
  let t := moveLine s cl d src dst ages
  let u := setCmd (if d.again then perfCl t cl 0x37 1 else t) cl c n
  if n.over then post u [.copyDone cl] else u
/-- The next line of a command: its requests go to the port and the slices, and once they have passed it moves, or its
failure holds it; the current agent is its fibre. -/
def stepCmd (s : State) (cl : Nat) (c : Cmd) (ages : List Nat) (idx : Nat) : State :=
  match lineOrFail s c idx with
  | .error (_, e) => failCmd s cl c e
  | .ok (d, src, dst) =>
    if c.paid then finishLine s cl c d src dst ages
    else
      let r := if c.idx.isNone then
        noteReads s (unitOfCmd s cl c.fib c.wg c.num) (indexPlaces s { c with strec := d.strec }) (if idx = 0 then [] else [idx]) else s
      let t := if c.idx.isNone then chargeIndex r cl c d.strec else r
      let u := chargeLine (chargeLine t cl c src) cl c dst
      let p := { d with paid := true }
      let v := setCmd u cl c p
      if cmdWaits v c then v else finishLine v cl p p src dst ages
/-- The engine's outstanding counter of the command's launch has room (20 R345). -/
def ceHasRoom (s : State) (c : Cmd) : Bool := decide (tget 0 s.outst (outKey (960 + clusterOf c.fib) (c.wg / 2 ^ 64)) ≤ 65535)
/-- A command that may move a line. -/
def mayMove (s : State) (c : Cmd) : Bool :=
  c.running && c.held.isNone && !c.over && !cmdStopped s c && !cmdWaits s c && ceHasRoom s c
/-- The next command to move a line, round-robin (R289): its place in the queue. -/
def turnCmd (s : State) (cl : Nat) : Option (Nat × Cmd) :=
  let x := getCl s cl
  let l := ((List.range x.cmds.length).zip x.cmds).filter fun p => mayMove s p.2
  match l.find? fun p => decide (x.ceTurn ≤ p.1) with
  | some p => some p
  | none => l.head?
/-- COPY_LINE_TRANSFER (R289): one line read, each unit as memory stood some units of the history ago, and one line written. -/
def copyLine (s0 : State) (cl : Nat) (ages : List Nat) (idx : Nat) : State :=
  let s := sweepHeld s0 cl
  match turnCmd s cl with
  | none => s
  | some (i, c) =>
    let t := onAgent (modCl s cl fun x => { x with ceTurn := i + 1 }) (agentOf c.fib) fun s => stepCmd s cl c ages idx
    if (turnCmd t cl).isSome then postNew t [.copyLine cl] else t
/-- COPY_LINE_TRANSFER. -/
def execCopyLineTransfer (cluster : Nat) (s : State) : Host.Outcome State Fault Refusal := .next (copyLine s cluster [] 0)
/-- COPY_COMMAND_START (R287): the first queued command, while fewer than four run. -/
def startCmd (s : State) (cl : Nat) : State :=
  let l := (getCl s cl).cmds
  let waits := fun (c : Cmd) => !c.running && c.held.isNone && !cmdStopped s c
  if 4 ≤ (l.filter fun c => c.running && !cmdStopped s c).length then s
  else match l.find? waits with
    | none => s
    | some c =>
      let a := if flAcq c.flags then noteUnit s (acqBy (unitOfCmd s cl c.fib c.wg c.num) (goKey c.fib c.num) (scopeOfCode (flAscope c.flags)))
        else s
      let t := modCl a cl fun x => { x with cmds := x.cmds.map fun y => if y = c then { c with running := true } else y }
      postNew t [.copyLine cl, .copyDone cl, .copyStart cl]
/-- COPY_COMMAND_START. -/
def execCopyCommandStart (cluster : Nat) (s : State) : Host.Outcome State Fault Refusal := .next (startCmd s cluster)
/-- What a command's completion releases (15 R279): for `wait ce`, and for the `tbacq` of the slot it commits. -/
def noteDone (s : State) (cl : Nat) (c : Cmd) : State :=
  if flRel c.flags then
    let sc := scopeOfCode (flRscope c.flags)
    let t := noteUnit s (relBy (unitOfCmd s cl c.fib c.wg c.num) (ceKey c.fib (flRscope c.flags)) sc)
    match c.tbs with
    | some (b, slot) => noteUnit t (relBy (unitOfCmd t cl c.fib c.wg c.num) (tbKey t b slot) sc)
    | none => t
  else s
/-- A command completes (R288): its slot is committed, ce of its fibre falls; the current agent is its fibre. -/
def endCmd (s0 : State) (cl : Nat) (c : Cmd) : State :=
  let s := noteDone s0 cl c
  let t := modCl s cl fun x => { x with cmds := x.cmds.erase c }
  let u := match c.tbs with
    | some (b, slot) => serveAcq (applyOp t ⟨c.wg, c.fib, 0, b, slot, true⟩) c.wg
    | none => t
  postNew { u with f := cntDown u.f 2 } ([.copyStart cl, .goAccept cl] ++
    (if u.f.st = .ended then [.retire (curKey s / 4)] else []))
/-- A correctable soft error in a command's path (R294; log 84): the line at the cursor of the next command is performed, and will be
again. -/
def repeatLine (s : State) (cl : Nat) : State :=
  match turnCmd s cl with
  | none => s
  | some (_, c) => onAgent s (agentOf c.fib) fun s =>
    match lineOrFail s c 0 with
    | .error _ => s
    | .ok (d, src, dst) =>
      setCmd (if d.again then perfCl (moveLine s cl d src dst []) cl 0x37 1 else moveLine s cl d src dst []) cl c { d with again := true }
/-- COPY_COMMAND_COMPLETE (R288): the first command that has moved its last line. -/
def finishCmd (s : State) (cl : Nat) : State :=
  match (getCl s cl).cmds.find? fun c => c.running && c.held.isNone && c.over && !cmdStopped s c with
  | none => s
  | some c => onAgent s (agentOf c.fib) fun s => endCmd s cl c
/-- COPY_COMMAND_COMPLETE. -/
def execCopyCommandComplete (cluster : Nat) (s : State) : Host.Outcome State Fault Refusal := .next (finishCmd s cluster)
/-- A command's record is lost (R294): the failure takes the place of one that held it and was not delivered. The current
agent is its fibre. -/
def loseCmd (s : State) (cl : Nat) (c : Cmd) : State :=
  let mine := fun (h : HeldFail) => decide (0x183 ≤ h.cause) && decide (h.cause ≤ 0x186) && h.tword.toNat / 65536 == c.num
  failCmd (if c.held.isSome then { s with f := { s.f with fails := s.f.fails.filter fun h => !mine h } } else s) cl c
    (0x187, 0, 0)
/-- COPY_COMMAND_FAULT (R292, R294): the record of the command at place `sub` of the queue lost, and counted (20 R351); a soft error under the
next line; else the failure that the next line meets. -/
def faultCmd (s : State) (cl cause sub : Nat) : State :=
  if cause = 0x187 then
    match (getCl s cl).cmds[sub]? with
    | some c => if cmdStopped s c then s else softInc (onAgent s (agentOf c.fib) fun s => loseCmd s cl c) 1 cl 6
    | none => s
  else match turnCmd s cl with
    | none => s
    | some (_, c) =>
      onAgent s (agentOf c.fib) fun s =>
        match lineOrFail s c 0 with
        | .error (_, e) => if e.1 = cause ∧ e.2.1 = sub then failCmd s cl c e else s
        | .ok (d, _ :: _, _) =>
          let x := match d.idx with
            | some (some x) => x
            | _ => 0
          if cause = 0x183 ∧ (sub = 0x1F2 ∨ sub = 0x1F4 ∨ sub = 0x1F5) then
            failCmd s cl c (cause, sub, (rowVa s d.src (x * shSpitch d.shape) d.byte).1)
          else s
        | .ok (_, [], _) => s
/-- COPY_COMMAND_FAULT. -/
def execCopyCommandFault (cluster cause sub : Nat) (s : State) : Host.Outcome State Fault Refusal :=
  .next (faultCmd s cluster cause sub)
/-- COPY_FAULT_DELIVERY (R293): the first copy failure of the fibre that may be delivered. -/
def execCopyFaultDelivery (a : Agent) (s : State) : Host.Outcome State Fault Refusal :=
  .next (onAgent s a fun s => deliverCause s fun h => decide (0x183 ≤ h.cause ∧ h.cause ≤ 0x187))

end Sys2Proof.Machine
end

