-- ==== Sys2Proof/Machine/Fetch.lean ====
section
/-! DEFINITION. Fetching a packet (04 R60 to R63). -/

namespace Sys2Proof.Machine

/-- The fetch buffer's key of a packet for the current agent. -/
def fetchKey (s : State) (pkt : Word) : Nat := curKey s * 2 ^ 32 + pkt.toNat
/-- Where a fetch reads a packet, or its cause: through the tables as they stand, or, where the agent fetched it through others
since published over, through those, as the free value says (17 R311: one generation for the whole fetch). -/
def fetchPlace (s : State) (pkt : Word) : Except Nat (Option Nat) :=
  let w := whoCur s
  let new := codePlace s w pkt
  match tget 0 (getCl s (curCl s)).fbuf (fetchKey s pkt) with
  | 0 => new
  | old + 1 =>
    let same := match new with
      | .ok x => x == some old
      | .error _ => false
    if same then new
    else if Config.fetchOld s.tick 3 = 0 then new
    else match checkPa s w.part old 12 false with
      | .ok _ => .ok (some old)
      | .error _ => new
/-- The words at a place, each old or new as the free value says where the agent's fetches may not have seen a store (R63). -/
def fetchedWords (s : State) (pa : Nat) : List Word :=
  [0, 1, 2].map fun i => fetchedWord s (curKey s) (pa + 4 * i) (Config.fetchOld s.tick i)
/-- The executing split's packet (R61): fetched at slot 0, or where it is not held; a cause of the fetch. -/
def fetchPacket (s : State) : Except Nat (State × List Word) :=
  let p := s.f.sp.pos
  let held := match s.f.sp.buf with
    | some (k, ws) => if k = p.pkt ∧ p.slot ≠ 0 then some ws else none
    | none => none
  match held with
  | some ws => .ok (s, ws)
  | none =>
    match fetchPlace s p.pkt with
    | .error c => .error c
    | .ok x =>
      if (x.map fun pa => routeDown s (.dev pa)).getD false then .error 0x1F6 else -- 25 R411
      let ws := match x with
        | none => [0, 0, 0]
        | some pa => fetchedWords s pa
      let t := match x with
        | none => s
        | some pa => modCl s (curCl s) fun c => { c with fbuf := tset 0 c.fbuf (fetchKey s p.pkt) (pa + 1) }
      .ok ({ t with f := { t.f with sp := { t.f.sp with buf := some (p.pkt, ws) } } }, ws)

/-- A trap before any word of a group has issued. -/
def trapHead (s : State) (cause wslot : Nat) (tword : Word) (after : Option Pos) : State :=
  enterTrap s
    { cause := cause, wslot := wslot, tword := tword, lanes := act s, addr := 0, base := s.f.sp.pos, resume := false
      after := after }

/-- PACKET_FETCH (R61): the agent's executing split fetches its packet; a fault names slot 0. -/
def fetchOf (s : State) : State :=
  match fetchPacket s with
  | .ok (t, _) => t
  | .error c => trapHead s c 0 0 none

/-- PACKET_FETCH. -/
def execPacketFetch (a : Agent) (s : State) : Host.Outcome State Fault Refusal := .next (onAgent s a fetchOf)

end Sys2Proof.Machine
end

