-- ==== Sys2Proof/Machine/Frond.lean ====
section
/-! DEFINITION. Frond streams (11 R194, R195) and the log array: operand latch, accumulators, sequencer, majors 0x3B to 0x3D
(11 R198 to R217). -/

namespace Sys2Proof.Machine

/-! Tile descriptors and layouts (R201 to R204). -/

/-- off. -/
def dOff (v : Word64) : Nat := bf v.toNat 0 20
/-- tbi. -/
def dTbi (v : Word64) : Nat := bf v.toNat 20 4
/-- tb. -/
def dTb (v : Word64) : Bool := v.getLsbD 24
/-- rel. -/
def dRel (v : Word64) : Bool := v.getLsbD 25
/-- fmt. -/
def dFmt (v : Word64) : Nat := bf v.toNat 32 3
/-- shape. -/
def dShape (v : Word64) : Nat := bf v.toNat 35 2
/-- blk. -/
def dBlk (v : Word64) : Nat := bf v.toNat 37 2
/-- sp. -/
def dSp (v : Word64) : Bool := v.getLsbD 39
/-- soff. -/
def dSoff (v : Word64) : Nat := bf v.toNat 44 20
/-- Rows of a shape code. -/
def shapeRows (c : Nat) : Nat := 32 * 2 ^ c
/-- Bits of a code. -/
def fmtBits (f : Nat) : Nat :=
  match f with
  | 1 => 16
  | 3 => 4
  | _ => 8
/-- Group length of a block code. -/
def groupLen (blk : Nat) : Nat := 32 * 2 ^ blk
/-- Positions a sparse line covers. -/
def lineCodes (f : Nat) : Nat := if f = 1 then 64 else 128
/-- Bytes from one row to the next. -/
def rowPitch (f : Nat) (sp : Bool) (k : Nat) : Nat :=
  if sp then k / lineCodes f * 128 else (k * fmtBits f + 1023) / 1024 * 128
/-- Scales or group records of a row. -/
def rowScales (f blk k : Nat) : Nat :=
  match f with
  | 0 => (k + 31) / 32
  | 1 => k / 16
  | _ => k / groupLen blk
/-- Bytes of a scale or record. -/
def scaleBytes (f : Nat) : Nat := if f ≤ 1 then 1 else 4
/-- Reserved fields and undeclared buffers (R204, check 1). -/
def descReserved (v : Word64) (ntb : Nat) (drain : Bool) : Bool :=
  bf v.toNat 26 6 != 0 || (if drain then bf v.toNat 32 32 != 0 else bf v.toNat 40 4 != 0) ||
  (if dTb v then decide (ntb ≤ dTbi v) else dTbi v != 0)
/-- The first broken kind of 11 Table 11.7. -/
def descKind (v : Word64) (k idx : Nat) : Option Nat :=
  let f := dFmt v
  let q := decide (2 ≤ f)
  if dShape v = 3 || (q && (decide (128 < k) || (dBlk v != 3 && k % groupLen (dBlk v) != 0))) then some 0
  else if !q && dBlk v ≠ 0 then some 1
  else if q && dBlk v = 3 then some 2
  else if dSp v && (q || k % lineCodes f ≠ 0) then some 3
  else if dOff v % 128 ≠ 0 || dSoff v % 16 ≠ 0 || idx % 4 ≠ 0 then some 5
  else if 65536 < shapeRows (dShape v) * rowPitch f (dSp v) k then some 6
  else none
/-- The feature a descriptor names is not accepted (R204, check 3). -/
def descFeature (s : State) (v : Word64) : Bool :=
  let b := match dFmt v with
    | 0 => 0
    | 1 => 1
    | _ => 2
  !feature s b || (dSp v && !feature s 3)

/-! Tile buffers of the frond core (R206, 23 R387). -/

/-- The frond core's role for a buffer. -/
def roleOf (s : State) (t : Nat) : Option FRole := ((getCl s (curCl s)).roles.find? fun x => x.1 == t).map (·.2)
/-- It set. -/
def setRole (s : State) (t : Nat) (r : FRole) : State :=
  modCl s (curCl s) fun c => { c with roles := (t, r) :: c.roles.filter fun x => x.1 != t }
/-- The slot a word would use, and whether it holds it already: the one held, else the next of the ring. -/
def frondSlot (s : State) (t : Nat) (producer : Bool) : Nat × Bool :=
  let b := getTb s (curWg s) t
  match roleOf s t with
  | some r => match r.held with
    | some i => (i, true)
    | none => (if producer then b.wp else b.rp, false)
  | none => (if producer then b.wp else b.rp, false)
/-- Start and size of the space that a descriptor names: slice offset, bytes. -/
def descSpace (s : State) (v : Word64) (producer : Bool) : Nat × Nat :=
  if dTb v then
    let b := getTb s (curWg s) (dTbi v)
    (b.start + (frondSlot s (dTbi v) producer).1 * b.size, b.size)
  else ((getWg s (curWg s)).off, hScr (curL s).hdr)
/-- The buffer is used in one role (R206). -/
def needRole (s : State) (v : Word64) (producer : Bool) : R Unit :=
  need s (!dTb v || match roleOf s (dTbi v) with
    | some r => r.producer == producer
    | none => true) 0x1A2
/-- The slot is there for the word (R205, R211). -/
def slotReady (s : State) (v : Word64) (producer : Bool) : R Unit :=
  if !dTb v then .ok ()
  else
    let x := frondSlot s (dTbi v) producer
    ready (x.2 || (getTb s (curWg s) (dTbi v)).slots.getD x.1 .acquired == (if producer then .empty else .full))
/-- The slot taken where it is not held (23 R387): an acquire of what filled or emptied it (R206). -/
def takeFrondSlot (s : State) (v : Word64) (producer : Bool) : State :=
  if !dTb v then s
  else
    let t := dTbi v
    let x := frondSlot s t producer
    let b := getTb s (curWg s) t
    let u := noteAcq (setRole s t ⟨producer, some x.1⟩) (tbKey s t x.1) (tbScope t)
    if x.2 then u
    else if producer then
      setTb u (curWg s) t { b with slots := b.slots.set x.1 .reserved, wp := (b.wp + 1) % Nat.max b.depth 1 }
    else setTb u (curWg s) t { b with slots := b.slots.set x.1 .acquired, rp := (b.rp + 1) % Nat.max b.depth 1 }
/-- The slot to let go when the word completes. -/
def relSlot (s : State) (v : Word64) (producer : Bool) : Option (Nat × Nat) :=
  if dTb v && dRel v then some (dTbi v, (frondSlot s (dTbi v) producer).1) else none
/-- A slot let go at completion, with the effect of `tbcom` or `tbrel`; the position advances. -/
def letSlot (s : State) (rel : Option (Nat × Nat)) (producer : Bool) : State :=
  match rel with
  | none => s
  | some (t, i) => askTb (setRole s t ⟨producer, none⟩) t i producer

/-! Loads (R205). -/

/-- Bytes of the current cluster's slice. -/
def sliceNat (s : State) (a n : Nat) : Nat := rdBytes s.slices (curCl s * 2 ^ 20 + a) n
/-- Code k of a dense row at an offset. -/
def denseCode (s : State) (f a k : Nat) : Nat :=
  match f with
  | 1 => sliceNat s (a + 2 * k) 2
  | 3 => bf (sliceNat s (a + k / 2) 1) (4 * (k % 2)) 4
  | _ => sliceNat s (a + k) 1
/-- The zero code (R203, R205). -/
def zeroCode (f : Nat) : Nat :=
  match f with
  | 0 => 0x40
  | 1 => 0x4000
  | _ => 0
/-- A sparse line's codes, or none where its header has too many bits (R203). -/
def sparseLine (s : State) (f a : Nat) : Option (List Nat) :=
  let n := lineCodes f
  let h := sliceNat s a (n / 8)
  let bit := fun j => bf h j 1
  if 112 / (fmtBits f / 8) < (List.range n).countP (fun j => bit j == 1) then none
  else some ((List.range n).map fun j =>
    if bit j = 1 then
      let i := (List.range j).countP fun x => bit x == 1
      sliceNat s (a + 16 + i * (fmtBits f / 8)) (fmtBits f / 8)
    else zeroCode f)
/-- A row's codes. -/
def rowCodes (s : State) (f : Nat) (sp : Bool) (k a : Nat) : Option (List Nat) :=
  if sp then
    ((List.range (k / lineCodes f)).mapM fun i => sparseLine s f (a + 128 * i)).map List.flatten
  else some ((List.range k).map (denseCode s f a))
/-- A row's scales or group records (R202). -/
def rowScaleVals (s : State) (f blk k a r : Nat) : List Nat :=
  let n := rowScales f blk k
  (List.range n).map fun j => sliceNat s (a + scaleBytes f * (r * n + j)) (scaleBytes f)
/-- A side of the latch. -/
def sideOf (c : Cluster) (s : Side) : LSide :=
  match s with
  | .a => c.sideA
  | .b => c.sideB
/-- A side set. -/
def setSide (c : Cluster) (s : Side) (x : LSide) : Cluster :=
  match s with
  | .a => { c with sideA := x }
  | .b => { c with sideB := x }
/-- The bank that the next `mxmul` reads. -/
def curBank (x : LSide) : Bank := if x.last = 0 then x.bank0 else x.bank1
/-- An incomplete `mxmul` reads the bank that a load of the side would write (R205). -/
def bankBusy (c : Cluster) (sd : Side) : Bool :=
  let w := 1 - (sideOf c sd).last
  c.ops.any fun o => match o with
    | .mul _ _ _ ia ib _ => (match sd with
      | .a => ia
      | .b => ib) == w
    | .zero _ | .drain .. => false
/-- A frond counter has room (10 R173). -/
def frondRoom (s : State) (c : Nat) : R Unit := ready (decide (cntOf s.f c < 255))
/-- Passes of a unit at the slice, which no completion waits for (log 3). -/
def unitPasses (s : State) (cl req bytes : Nat) : State := queuePasses s cl req 60000 0 ((bytes + 127) / 128) false
/-- Where row i's index stands in the slice. -/
def idxPlace (s : State) (ioff i : Nat) : Nat := (getWg s (curWg s)).off + ioff + 2 * i
/-- One row of a load: an index beyond the table (0x1A1), a sparse header with too many bits (kind 3), or its codes and scales. DEDUCED
(log 101): an index word that is uncorrectable is poisoned data that the gather unit uses, cause 0x1F1 (10 R182). -/
def loadRow (s : State) (v : Word64) (k base : Nat) (idx : Option (Nat × Nat)) (i : Nat) : Except Nat (Option Nat × List Nat × List Nat) :=
  let f := dFmt v
  let src := match idx with
    | none => some i
    | some (ioff, _) =>
      let x := sliceNat s (idxPlace s ioff i) 2
      if x = 0xFFFF then none else some x
  let bad := match idx with
    | none => false
    | some (ioff, _) => badUnits (getCl s (curCl s)).bad (idxPlace s ioff i) 2
  if bad then .error 0x1F1 else
  match src, idx with
  | none, _ => .ok (none, List.replicate k (zeroCode f), List.replicate (rowScales f (dBlk v) k) 0)
  | some r, some (_, n) => if n ≤ r then .error 0x1A1 else row f r
  | some r, none => row f r
where
  row (f r : Nat) : Except Nat (Option Nat × List Nat × List Nat) :=
    match rowCodes s f (dSp v) k (base + dOff v + r * rowPitch f (dSp v) k) with
    | some c => .ok (some r, c, rowScaleVals s f (dBlk v) k (base + dSoff v) r)
    | none => .error (0x010 + 8 * f + 3)
/-- The bank that a load fills, row by row, or the first row's fault (R205). -/
def loadBank (s : State) (v : Word64) (k base : Nat) (idx : Option (Nat × Nat)) : Except Nat Bank :=
  let f := dFmt v
  let sc := rowScales f (dBlk v) k * scaleBytes f
  match (List.range (shapeRows (dShape v))).mapM (loadRow s v k base idx) with
  | .error c => .error c
  | .ok rows =>
    let bad := fun a size => badUnits (getCl s (curCl s)).bad a size
    let pois := rows.any fun x => match x.1 with
      | some i => bad (base + dOff v + i * rowPitch f (dSp v) k) (rowPitch f (dSp v) k) || bad (base + dSoff v + i * sc) sc
      | none => false
    .ok { loaded := true, fmt := f, shape := dShape v, kk := k, blk := dBlk v, sp := dSp v, codes := rows.map (·.2.1)
          scales := rows.map (·.2.2), bad := false, pois := pois }
/-- The units that a load reads, those of its index array first; the rows are those that the array names. -/
def loadParts (s : State) (v : Word64) (k base : Nat) (idx : Option (Nat × Nat)) : List (MemCls × Nat × Nat) :=
  let f := dFmt v
  let at1 := fun (a n : Nat) => rangeParts .s (curCl s * 2 ^ 20 + a) n
  let sc := rowScales f (dBlk v) k * scaleBytes f
  let row := fun (i : Nat) => at1 (base + dOff v + i * rowPitch f (dSp v) k) (rowPitch f (dSp v) k) ++ at1 (base + dSoff v + i * sc) sc
  let n := shapeRows (dShape v)
  match idx with
  | none => (List.range n).flatMap row
  | some (ioff, _) => at1 (idxPlace s ioff 0) (2 * n) ++ (List.range n).flatMap fun i =>
    let x := sliceNat s (idxPlace s ioff i) 2
    if x = 0xFFFF then [] else row x
/-- A load's reads: weak, after the stream's accesses before it (R215). -/
def noteLoad (s : State) (po : Nat) (parts : List (MemCls × Nat × Nat)) (ages : List Nat) : State :=
  noteReadParts s { unitOfEngine s with po := po } parts ages
/-- The load in progress of a cluster reads again, each unit as memory stood some units ago: the environment's choice (R215, 15 R267). -/
def loadAged (s0 : State) (cl : Nat) (ages : List Nat) : State :=
  onAgent s0 (.frond cl) fun s =>
    match (getCl s cl).load with
    | none => s
    | some l =>
      let t := { s with hist := s.hist.filter fun u => !(u.ag == curKey s && u.wg == curWg s && u.po == l.po && u.rd) }
      let idx := match l.idx with
        | some (ioff, _) => rangeParts .s (cl * 2 ^ 20 + idxPlace s ioff 0) (2 * shapeRows (dShape l.desc))
        | none => []
      let parts := loadParts (agedSlices t idx ages) l.desc l.k l.space l.idx
      match loadBank (agedSlices t parts ages) l.desc l.k l.space l.idx with
      | .ok b => modCl (noteLoad t l.po parts ages) cl fun c => { c with load := some { l with bank := b } }
      | .error _ => s
/-- A load: `idx` is the index array's offset and the table's rows for `mxgat` (R204, R205). -/
def startLoad (s : State) (v : Word64) (sd : Side) (k : Nat) (idx : Option (Nat × Nat)) : R State := do
  let f := dFmt v
  let r := shapeRows (dShape v)
  let ioff := (idx.map (·.1)).getD 0
  need s (!descReserved v (hNtb (curL s).hdr) false) 0x1A0
  need s (decide (f < 4)) 0x03F
  need s (!descFeature s v) 0x00A
  match descKind v k ioff with
  | some n => faultAll s (0x010 + 8 * f + n)
  | none =>
    needRole s v false
    let p := rowPitch f (dSp v) k
    let n := (idx.map (·.2)).getD r
    let space := descSpace s v false
    need s (decide (dOff v + n * p ≤ space.2) &&
      decide (dSoff v + n * rowScales f (dBlk v) k * scaleBytes f ≤ space.2) &&
      (idx.isNone || decide (ioff + 2 * r ≤ hScr (curL s).hdr))) 0x1A4
    ready (!bankBusy (getCl s (curCl s)) sd)
    slotReady s v false
    frondRoom s 1
    match loadBank s v k space.1 idx with
    | .error c => faultAll s c
    | .ok bank =>
      let t := takeFrondSlot s v false
      let u := modCl { t with f := cntUp t.f 1 } (curCl s) fun c =>
        { c with load := some ⟨sd, bank, relSlot s v false, v, k, space.1, idx, nextPo t.hist⟩ }
      let n := noteLoad u (nextPo t.hist) (loadParts s v k space.1 idx) []
      return post (unitPasses n (curCl s) 5 (r * p)) [.mxLoad (curCl s)]
/-- `mxlda` (R205). -/
def execMxlda (p : Pfx) (a : KReg) (sd : Side) (k : Fin 32) (s : State) : Host.Outcome State Fault Refusal :=
  .next (runWord (.mxlda p a sd k) (fun s => do
    let v ← readKK s a
    startLoad s v sd (16 * (k.val + 1)) none) s)
/-- `mxgat` (R205). -/
def execMxgat (p : Pfx) (a b : KReg) (sd : Side) (k : Fin 32) (s : State) : Host.Outcome State Fault Refusal :=
  .next (runWord (.mxgat p a b sd k) (fun s => do
    let v ← readKK s a
    let i ← readK s b
    startLoad s v sd (16 * (k.val + 1)) (some (bf i.toNat 0 20, bf i.toNat 20 12 + 1))) s)
/-- What may follow an operation of a stream. -/
def frondAfter (s : State) (cl : Nat) : State :=
  let c := getCl s cl
  let l := (if c.ops.isEmpty then [] else [Ev.mxOp cl, Ev.mxDrain cl]) ++ (if s.f.st = .ended then [Ev.frondEnd cl] else [])
  postNew s l
/-- MX_LOAD_COMPLETE (R205): the bank is written, ml falls, the slot is released; not while the stream is Saved (R217). -/
def endLoad (s : State) : State :=
  let cl := curCl s
  match (getCl s cl).load with
  | none => s
  | some l =>
    if s.f.saved then s else
    let t := modCl { s with f := cntDown s.f 1 } cl fun c =>
      let x := sideOf c l.side
      let n := 1 - x.last
      { setSide c l.side { x with
          bank0 := if n = 0 then l.bank else x.bank0, bank1 := if n = 0 then x.bank1 else l.bank, last := n } with
        load := none }
    frondAfter (letSlot t l.rel false) cl
/-- MX_LOAD_COMPLETE. -/
def execMxLoadComplete (cluster : Nat) (s : State) : Host.Outcome State Fault Refusal :=
  .next (onAgent s (.frond cluster) endLoad)

/-! Accumulators (R198, R204, R207, R208). -/

/-- An accumulator. -/
def getAcc (l : List Acc) (n : Nat) : Acc := l.getD n Acc.empty
/-- Accumulator n, and those that hold its planes, Empty (R210). -/
def freeAcc (l : List Acc) (n : Nat) : List Acc :=
  (List.range 4).map fun i => if i = n || (getAcc l i).st == .plane n then Acc.empty else getAcc l i
/-- Planes of a Q operation. DESIGN CHOICE (log 41): where the sides' group lengths differ, which R208 does not exclude, side
A's gives their number. -/
def planesOf (a : Bank) : Nat := a.kk / groupLen a.blk
/-- Accumulators an operation names. -/
def opAccs (l : List Acc) (o : MxOp) : List Nat :=
  match o with
  | .mul n a _ _ _ _ => if a.fmt ≤ 1 then [n] else (List.range (planesOf a)).map fun p => (n + p) % 4
  | .zero n | .drain n _ _ _ => (List.range 4).filter fun i => i == n || (getAcc l i).st == .plane n
/-- The states after an operation, without values. -/
def shapeAfter (l : List Acc) (o : MxOp) : List Acc :=
  match o with
  | .mul n a b _ _ _ =>
    if a.fmt ≤ 1 then l.set n { getAcc l n with st := .liveL, mcode := a.shape, ncode := b.shape }
    else
      let ng := planesOf a
      (List.range ng).foldl (fun l p =>
        l.set ((n + p) % 4) { Acc.empty with
          poison := (getAcc l ((n + p) % 4)).poison, st := if p = 0 then .liveQ ng else .plane n, mcode := a.shape, ncode := b.shape }) l
  | .zero n => freeAcc l n
  | .drain n _ clr _ => if clr then freeAcc l n else l
/-- The states the accumulators will have once every issued operation is complete. -/
def accsIssued (c : Cluster) : List Acc := c.ops.foldl shapeAfter c.accs
/-- An accumulator held as a plane. -/
def isPlane (a : Acc) : Bool :=
  match a.st with
  | .plane _ => true
  | .empty | .liveL | .liveQ _ => false
/-- The accumulator matches the operands (R204). -/
def accMatches (l : List Acc) (n : Nat) (a b : Bank) : Bool :=
  if a.fmt ≤ 1 then
    let x := getAcc l n
    x.st == .empty || (x.st == .liveL && x.mcode == a.shape && x.ncode == b.shape)
  else (List.range (planesOf a)).all fun p => (getAcc l ((n + p) % 4)).st == .empty
/-- An s8 scale. -/
def scaleInt (v : Nat) : Int := (BitVec.ofNat 8 v).toInt
/-- One element of an L operation (R207): its value and flags. -/
def cellL (f : Nat) (acc : Nat) (ac bc as bs : List Nat) : Nat × Flags :=
  let l := if f = 0 then logL8 else logL16
  let n := if f = 0 then 32 else 16
  (List.range as.length).foldl (fun (r : Nat × Flags) j =>
    let terms := List.zipWith l.term ((ac.drop (n * j)).take n) ((bc.drop (n * j)).take n)
    let x := l.blockAdd r.1 terms (scaleInt (as.getD j 0)) (scaleInt (bs.getD j 0))
    (x.1, r.2 ||| x.2)) (acc, 0)
/-- An accumulator after an L operation. -/
def accL (x : Acc) (a b : Bank) : Acc :=
  let rows := (List.range a.codes.length).map fun m => (List.range b.codes.length).map fun n =>
    let old := if x.st = .empty then 0 else (x.vals.getD m []).getD n 0
    cellL a.fmt old (a.codes.getD m []) (b.codes.getD n []) (a.scales.getD m []) (b.scales.getD n [])
  { x with
    st := .liveL, mcode := a.shape, ncode := b.shape, vals := rows.map fun r => r.map (·.1)
    flags := (rows.foldl (fun (f : Flags) r => r.foldl (fun f c => f ||| c.2) f) (BitVec.ofNat 8 x.flags)).toNat }
/-- Zero point of a group record (05 Table 5.9). -/
def zeroPoint (f v : Nat) : Int := (if f = 3 then bf v 16 4 else bf v 16 8 : Nat)
/-- One partial sum of a Q operation (R208), on 32 bits; free, but a function of its operands (R209), where the sides' groups
differ in length (log 41). -/
def cellQ (a b : Bank) (p m n : Nat) : Nat :=
  let ac := a.codes.getD m []
  let bc := b.codes.getD n []
  let as := a.scales.getD m []
  let bs := b.scales.getD n []
  if a.blk ≠ b.blk then (Config.mxFree [a.fmt, a.blk, b.blk, p] ac as bc bs).toNat
  else
    let g := groupLen a.blk
    let za := zeroPoint a.fmt (as.getD p 0)
    let zb := zeroPoint b.fmt (bs.getD p 0)
    let l := List.zipWith (fun (x y : Nat) => ((x : Int) - za) * ((y : Int) - zb)) ((ac.drop (g * p)).take g)
      ((bc.drop (g * p)).take g)
    (BitVec.ofInt 32 (l.foldl (· + ·) 0)).toNat
/-- The accumulators after an operation of the cell array. -/
def runArray (l : List Acc) (o : MxOp) : List Acc :=
  match o with
  | .mul n a b _ _ _ =>
    if a.fmt ≤ 1 then l.set n (accL (getAcc l n) a b)
    else
      (List.range (planesOf a)).foldl (fun l p =>
        let rows := (List.range a.codes.length).map fun m => (List.range b.codes.length).map fun k => cellQ a b p m k
        l.modify ((n + p) % 4) fun x => { x with vals := rows })
        (shapeAfter l o)
  | .zero n => freeAcc l n
  | .drain .. => l

/-! The words of majors 0x3C and 0x3D (R207 to R213). -/

/-- An operation into the sequencer (R214). -/
def pushOp (s : State) (o : MxOp) (c : Nat) (e : Ev) : R State := do
  ready (decide ((getCl s (curCl s)).ops.length < 8))
  frondRoom s c
  return post (modCl { s with f := cntUp s.f c } (curCl s) fun x => { x with ops := x.ops ++ [o] }) [e]
/-- `mxmul` (R204, R207, R208). -/
def execMxmul (p : Pfx) (n : Fin 4) (s : State) : Host.Outcome State Fault Refusal :=
  .next (runWord (.mxmul p n) (fun s => do
    let c := getCl s (curCl s)
    let a := curBank c.sideA
    let b := curBank c.sideB
    need s (a.loaded && b.loaded) 0x1A0
    need s (a.fmt == b.fmt) 0x037
    need s (a.kk == b.kk) (0x010 + 8 * a.fmt)
    let l := accsIssued c
    need s (!isPlane (getAcc l n.val)) 0x1A6
    need s (accMatches l n.val a b) (0x010 + 8 * a.fmt + 4)
    need s (!a.bad && !b.bad) 0x1F2
    need s (!a.pois && !b.pois) 0x1F1
    pushOp s (.mul n.val a b c.sideA.last c.sideB.last (curBase s)) 0 (.mxOp (curCl s))) s)
/-- `mxzero` (R210). -/
def execMxzero (p : Pfx) (n : Fin 4) (s : State) : Host.Outcome State Fault Refusal :=
  .next (runWord (.mxzero p n) (fun s => do
    need s (!isPlane (getAcc (accsIssued (getCl s (curCl s))) n.val)) 0x1A6
    pushOp s (.zero n.val) 0 (.mxOp (curCl s))) s)
/-- An issued operation on an accumulator is not complete. -/
def accBusy (c : Cluster) (n : Nat) : Bool := c.ops.any fun o => (opAccs c.accs o).contains n
/-- Planes an accumulator's result has. -/
def planeCount (a : Acc) : Nat :=
  match a.st with
  | .liveQ ng => ng
  | .empty | .liveL | .plane _ => 1
/-- Bytes of a drain. -/
def drainBytes (a : Acc) : Nat := 4 * shapeRows a.mcode * shapeRows a.ncode * planeCount a
/-- `mxdrn` (R211). -/
def execMxdrn (p : Pfx) (a : KReg) (n : Fin 4) (f : Bool) (s : State) : Host.Outcome State Fault Refusal :=
  .next (runWord (.mxdrn p a n f) (fun s => do
    let v ← readKK s a
    let c := getCl s (curCl s)
    need s (!descReserved v (hNtb (curL s).hdr) true) 0x1A0
    need s (dOff v % 128 == 0) 0x03D
    needRole s v true
    ready (!accBusy c n.val)
    let x := getAcc c.accs n.val
    need s (!isPlane x) 0x1A6
    need s (x.st != .empty) 0x1A3
    need s ((opAccs c.accs (.zero n.val)).all fun i => !(getAcc c.accs i).poison) 0x1F7
    let space := descSpace s v true
    need s (decide (dOff v + drainBytes x ≤ space.2)) 0x1A4
    ready (!dTb v || !c.ops.any fun o => match o with
      | .drain _ _ _ (some r) => r.1 == dTbi v
      | _ => false)
    slotReady s v true
    outReady s true
    let rel := relSlot s v true
    let t ← pushOp (takeFrondSlot s v true) (.drain n.val (space.1 + dOff v) f rel) 2 (.mxDrain (curCl s))
    let u := outRaise (unitPasses t (curCl s) 6 (drainBytes x)) (unitOf s.cur) s.w.launch
    return raise u 3 (BitVec.ofNat 8 x.flags)) s)
/-- `mxwait` (R212). -/
def execMxwait (p : Pfx) (n : Fin 4) (f : Bool) (s : State) : Host.Outcome State Fault Refusal :=
  .next (runWord (.mxwait p n f) (fun s => do
    if f then ready (cntOf s.f 0 == 0 && cntOf s.f 1 == 0 && cntOf s.f 2 == 0)
    else ready (!accBusy (getCl s (curCl s)) n.val)
    return s) s)
/-- The status word of an accumulator (Table 11.10). -/
def accStatus (c : Cluster) (n : Nat) : Word :=
  let a := getAcc c.accs n
  let st := match a.st with
    | .empty => (0, 0)
    | .liveL => (1, 0)
    | .liveQ ng => (2, ng - 1)
    | .plane o => (3, o)
  BitVec.ofNat 32 (st.1 + (if accBusy c n then 4 else 0) + (if a.poison then 8 else 0) + a.mcode * 16 + a.ncode * 64 +
    st.2 * 256 + a.flags % 32 * 1024)
/-- The status word of a latch side (Table 11.10). -/
def latStatus (x : LSide) : Word :=
  let b := curBank x
  if !b.loaded then 0
  else BitVec.ofNat 32 (1 + b.fmt * 2 + b.shape * 16 + b.blk * 64 + (if b.sp then 256 else 0) + (b.kk / 16 - 1) * 512)
/-- `mxmeta` (R213). -/
def execMxmeta (p : Pfx) (a : KReg) (n : Fin 4) (sd : Side) (f : Bool) (s : State) : Host.Outcome State Fault Refusal :=
  .next (runWord (.mxmeta p a n sd f) (fun s =>
    let c := getCl s (curCl s)
    .ok (writeK s a.val (if f then latStatus (sideOf c sd) else accStatus c n.val))) s)

/-! Completion (R214). -/

/-- An operation of the cell array. -/
def isArray (o : MxOp) : Bool :=
  match o with
  | .mul .. | .zero _ => true
  | .drain .. => false
/-- The operation is one of the unit's, first in issue order, and no earlier operation names its accumulators. -/
def nextOp (c : Cluster) (array : Bool) : Option (Nat × MxOp) :=
  match c.ops.findIdx? fun o => isArray o == array with
  | none => none
  | some i =>
    match c.ops[i]? with
    | none => none
    | some o =>
      let mine := opAccs c.accs o
      if (c.ops.take i).any fun x => (opAccs c.accs x).any mine.contains then none else some (i, o)
/-- How many ac an `mxmul` occupies the cell array, by its A bank (Table 11.11); counted when it has ended (log 6). -/
def arrayTime (b : Bank) : Nat :=
  match b.fmt with
  | 1 => 4 * b.kk
  | 3 => b.kk / 2
  | _ => b.kk
/-- MX_OPERATION_COMPLETE (R207, R208, R210): the next operation of the cell array; a Saved stream's array has stopped at its
checkpoint (R217). -/
def endArray (s : State) : State :=
  let cl := curCl s
  if s.f.saved then s else
  match nextOp (getCl s cl) true with
  | none => s
  | some (i, o) =>
    let t := modCl { s with f := cntDown s.f 0 } cl fun c => { c with
      accs := runArray c.accs o, ops := c.ops.eraseIdx i }
    let u := match o with
      | .mul _ a .. => perfCl (perfCl t cl 0x39 1) cl 0x38 (arrayTime a)
      | .zero _ => perfCl t cl 0x38 1
      | .drain .. => t
    frondAfter u cl
/-- MX_OPERATION_COMPLETE. -/
def execMxOperationComplete (cluster : Nat) (s : State) : Host.Outcome State Fault Refusal :=
  .next (onAgent s (.frond cluster) endArray)
/-- The words a drain writes, in order (R211). -/
def drainWords (l : List Acc) (n : Nat) : List Nat :=
  (List.range (planeCount (getAcc l n))).flatMap fun p => (getAcc l ((n + p) % 4)).vals.flatten
/-- MX_DRAIN_COMPLETE (R211, R215): the data are written as weak units, md falls, the slot is committed. -/
def endDrain (s : State) : State :=
  let cl := curCl s
  match nextOp (getCl s cl) false with
  | some (i, .drain n off clr rel) =>
    let ws := drainWords (getCl s cl).accs n
    let d := ((List.range ws.length).zip ws).foldl (fun t x => (writeSlice t cl (off + 4 * x.1) x.2 4).1) s
    let t := noteWriteParts s d (unitOfEngine s) (rangeParts .s (cl * 2 ^ 20 + off) (4 * ws.length))
    let u := modCl { t with f := cntDown t.f 2 } cl fun c => { c with
      accs := if clr then freeAcc c.accs n else c.accs, ops := c.ops.eraseIdx i }
    let v := post (perfCl (letSlot u rel true) cl 0x3A 1) [.ack (unitOf s.cur) s.w.launch]
    frondAfter v cl
  | _ => s
/-- MX_DRAIN_COMPLETE. -/
def execMxDrainComplete (cluster : Nat) (s : State) : Host.Outcome State Fault Refusal :=
  .next (onAgent s (.frond cluster) fun s => if s.f.saved then s else endDrain s)

/-! Streams (R194, R195). -/

/-- A stream's registers at its start (Table 11.2). -/
def streamFibre (h : BitVec 2048) (g : Nat) (v : Word64) : Fibre :=
  { Fibre.none with
    st := .ready, live := 1, fmode := hMode h
    sp := { Split.none with live := true, pos := ⟨hKbase h + lo32 v, 0⟩, mask := 1 }
    k := (List.range 14).map (hPar h) ++ [BitVec.ofNat 32 g, hi32 v] }
/-- Start stores that wait take the entries that have freed, in the order of their arrival (R194). -/
def admitStarts (s : State) (cl : Nat) : Nat → State
  | 0 => s
  | n + 1 =>
    match waitingStart s cl with
    | none => s
    | some (k, p, v, _) =>
      if 16 ≤ (getCl s cl).frondQ.length then s
      else
        let t := onAgent s (.vec (4 * k + p.fib)) fun s =>
          enterStart (endAccess s p) cl (curWg s) v
        admitStarts t cl n
/-- Start stores of a cluster that wait. -/
def waitingStarts (s : State) (cl : Nat) : Nat :=
  (List.range 64).foldl (fun n i => n + (getW s (cl * 64 + i)).pend.countP fun p => isStart p.kind) 0
/-- FROND_STREAM_START (R194, R195): the request that came first, once no stream runs. -/
def startStream (s : State) (cl : Nat) : State :=
  let c := getCl s cl
  match c.frondWg, c.frondQ with
  | none, (g, v) :: r =>
    let w := getWg s g
    let h := (getL s w.launch).hdr
    if 2 ≤ (getPart s (getL s w.launch).part).pre then s else
    let t := setCl s cl { c with
      frondWg := some g, frondQ := r, roles := [], sideA := LSide.none, sideB := LSide.none
      accs := [Acc.empty, Acc.empty, Acc.empty, Acc.empty], ops := [], load := none }
    let u := setW (setF t (fibKey (.frond cl)) (streamFibre h w.g v)) (fibKey (.frond cl) / 4)
      { Warp.none with live := true, launch := w.launch, g := w.g, nfib := 1 }
    admitStarts (dropFbuf u cl [fibKey (.frond cl)]) cl (waitingStarts u cl)
  | _, _ => s
/-- FROND_STREAM_START. -/
def execFrondStreamStart (cluster : Nat) (s : State) : Host.Outcome State Fault Refusal := .next (startStream s cluster)
/-- The slots a stream holds, let go at its end (23 R383). -/
def frondHeld (s : State) (c : Cluster) : List TbOp :=
  (List.range 16).filterMap fun t =>
    match c.roles.find? fun x => x.1 == t with
    | some (_, r) => r.held.map fun i => (⟨curWg s, curKey s, s.f.seq, t, i, r.producer⟩ : TbOp)
    | none => none
/-- The stream's records go. -/
def clearStream (s : State) (cl : Nat) : State :=
  let t := checkIn s
  setF (setW t (fibKey (.frond cl) / 4) Warp.none) (fibKey (.frond cl)) Fibre.none
/-- FROND_STREAM_END (R194): the stream has halted, its counters read zero, it is not Saved (R196); what it holds is let go, a
release at cluster scope (23 R383). -/
def endStream (s : State) (cl : Nat) : State :=
  let f := getF s (fibKey (.frond cl))
  let c := getCl s cl
  match c.frondWg with
  | none => s
  | some g =>
    if f.saved || f.st ≠ .ended || f.cnt.any (· != 0) || (getW s (fibKey (.frond cl) / 4)).pend ≠ [] then s
    else
      let held := frondHeld (checkOut s (.frond cl)) c
      let n := held.foldl (fun t o => noteRelBy t (fibKey (.frond cl)) g cl (tbKeyOf t g o.t o.slot) (tbScope o.t)) s
      let t := modCl (clearStream n cl) cl fun c => { c with frondWg := none, roles := [], tbq := c.tbq ++ held }
      post t [.tbApply cl, .frondStart cl, .retireWg g]
/-- FROND_STREAM_END. -/
def execFrondStreamEnd (cluster : Nat) (s : State) : Host.Outcome State Fault Refusal := .next (endStream s cluster)

end Sys2Proof.Machine
end

