-- ==== Sys2Proof/Machine/Place.lean ====
section
/-! DEFINITION. The stage scheduler: placement of workgroups (02 R21 to R25, 14 R255), tasks and their slots (23 R390),
batches (24 R398 to R402), retirement (02 R37), completion (20 R348, 22 R374). -/

namespace Sys2Proof.Machine

/-! The workgroups of a launch (02 R19 to R22). -/

/-- Fields p to 5 of a workgroup index, as (value, extent, width). -/
def gFields (h : BitVec 2048) (g : Nat) : List (Nat × Nat × Nat) :=
  (List.range 6).filterMap fun i =>
    if hLevel h ≤ i then some (bf g (hFieldLo h i - hW h) (hWidth h i), hExtent h i, hWidth h i) else none
/-- The index of fields. -/
def gPack : List (Nat × Nat × Nat) → Nat
  | [] => 0
  | (v, _, w) :: r => v + 2 ^ w * gPack r
/-- The lowest vector of fields, each below its extent, at or above one (`up`: above it); the flag: none is left. -/
def gNext : List (Nat × Nat × Nat) → Bool → List (Nat × Nat × Nat) × Bool
  | [], up => ([], up)
  | (v, n, w) :: r, up =>
    let t := gNext r false
    let v1 := if up then v + 1 else v
    if t.2 || t.1 != r then ((0, n, w) :: t.1, t.2)
    else if v1 < n then ((v1, n, w) :: r, false)
    else
      let q := gNext r true
      ((0, n, w) :: q.1, q.2)
/-- The lowest existing workgroup at or above g. -/
def nextWg (h : BitVec 2048) (g : Nat) : Option Nat :=
  let top := hFieldLo h 6 - hW h
  if 2 ^ top ≤ g then none
  else
    let t := gNext (gFields h g) false
    if t.2 then none else some (gPack t.1)
/-- How many workgroups exist at or above an existing one. -/
def wgsLeft (h : BitVec 2048) (g : Nat) : Nat :=
  let r := (gFields h g).foldl (fun (a : Nat × Nat) x => (a.1 + x.1 * a.2, a.2 * x.2.1)) (0, 1)
  r.2 - r.1
/-- Lanes of a warp whose work item exists (R22). -/
def warpLanes (h : BitVec 2048) (g k : Nat) : LaneSet := setOf fun l => hExists h (g * 2 ^ hW h + k * 32 + l)
/-- Warps of a workgroup that are created (R22). -/
def warpsOf (h : BitVec 2048) (g : Nat) : List Nat :=
  (List.range (2 ^ (hW h - 5))).filter fun k => warpLanes h g k != 0

/-! Reservations (R23, 14 R255, 20 R347). -/

/-- Bytes of the barrier area. -/
def barBytes (h : BitVec 2048) : Nat := (8 * hNbar h + 127) / 128 * 128
/-- Bytes of an in-kernel buffer. -/
def tbBytes (h : BitVec 2048) (i : Nat) : Nat := hTbDepth h i * hTbSize h i
/-- Bytes of buffers below i. -/
def tbOffset (h : BitVec 2048) : Nat → Nat
  | 0 => 0
  | i + 1 => tbOffset h i + tbBytes h i
/-- Length of a workgroup's run. -/
def runBytes (h : BitVec 2048) : Nat := hScr h + barBytes h + tbOffset h (hNtb h)
/-- Runs reserved in a slice. -/
def sliceRuns (s : State) (cl : Nat) : List (Nat × Nat) :=
  (s.wgs.filterMap fun p => if p.2.live && p.2.cluster == cl then some (p.2.off, p.2.len) else none) ++
  s.pipes.flatMap fun p => p.2.bufs.filterMap fun b =>
    if p.2.live && b.here && b.home == cl then some (b.start, b.depth * b.size) else none
/-- The lowest slice offset at which a run fits. -/
def fitSlice (rs : List (Nat × Nat)) (n : Nat) : Option Nat :=
  let ok := fun a => decide (a + n ≤ 2 ^ 20) && rs.all fun r => decide (a + n ≤ r.1) || decide (r.1 + r.2 ≤ a)
  (0 :: rs.map fun r => r.1 + r.2).foldl (fun best a =>
    if ok a then match best with
      | none => some a
      | some b => some (Nat.min a b)
    else best) none
/-- A launch has a warp or workgroup resident at a unit. -/
def residentAt (s : State) (unit launch : Nat) : Bool :=
  if unit < 768 then (coreSlots unit).any fun k => (getW s k).live && !(getW s k).retired && (getW s k).launch == launch
  else s.wgs.any fun p => p.2.live && p.2.launch == launch && p.2.cluster == (if unit < 960 then unit - 768 else unit - 960)
/-- A launch holds an outstanding counter of a unit (20 R347). -/
def holdsOut (s : State) (unit launch : Nat) : Bool :=
  decide (2 ≤ tget 0 s.outst (outKey unit launch)) ||
  (tget 0 s.outst (outKey unit launch) == 1 && residentAt s unit launch)
/-- A counter is there for a launch. -/
def outFits (s : State) (unit launch : Nat) : Bool :=
  holdsOut s unit launch ||
  decide ((s.outst.countP fun p => p.1 % 2048 == unit && holdsOut s unit (p.1 / 2048)) < 16)
/-- It is taken. -/
def takeOut (s : State) (unit launch : Nat) : State :=
  if 1 ≤ tget 0 s.outst (outKey unit launch) then s
  else { s with outst := tset 0 s.outst (outKey unit launch) 1 }

/-- Fibre f of a new warp (02 R25, 06 R105, Table 6.1). -/
def newFibre (h : BitVec 2048) (g f : Nat) (m : LaneSet) : Fibre :=
  if hNfib h ≤ f then Fibre.none
  else
    { Fibre.none with
      st := .ready, live := m, fmode := hMode h
      sp := { Split.none with live := true, pos := ⟨hKbase h + hEntry h f, 0⟩, mask := m }
      k := (List.range 14).map (hPar h) ++ [BitVec.ofNat 32 g, 0] }
/-- The `wid` of the lanes of warp k of workgroup g (02 R18, R21). -/
def widsOf (h : BitVec 2048) (g k : Nat) : List Word64 :=
  (List.range 32).map fun l => BitVec.ofNat 64 (g * 2 ^ hW h + k * 32 + l)
/-- The named file at warp start (06 R98): rows 0 and 1 hold `wid`, the others zero. -/
def startRows (n : Nat) (wid : List Word64) : List Row :=
  ([wid.map lo32, wid.map hi32] ++ List.replicate (n - 2) zeroRow).take n
/-- New warps wait on a core while a request for rows is not granted there or an evicted slot is not restored (10 R187,
R188). -/
def coreHeld (s : State) (core : Nat) : Bool := !(growRequests s core).isEmpty || !(getCore s core).evicted.isEmpty
/-- One warp placed on a cluster, in the lowest free slot with a run of rows. -/
def placeWarp (s : State) (launch g cl k : Nat) : Option State :=
  let h := (getL s launch).hdr
  let core := cl * 4 + k % 4
  match (coreSlots core).find? (fun i => !(getW s i).live), fitRun (coreRuns s core 100000) (roundUp8 (hRegs h)) with
  | some i, some b =>
    if coreHeld s core || !outFits s core launch then none
    else
      let m := warpLanes h g k
      let w : Warp :=
        { Warp.none with
          live := true, fresh := true, launch := launch, g := g, idx := k, nfib := hNfib h
          rows := startRows (hRegs h) (widsOf h g k), base := b, resv := roundUp8 (hRegs h), order := (getCore s core).nextOrder
          wid := widsOf h g k }
      let t := modCore (setW (takeOut s core launch) i w) core fun c => { c with nextOrder := c.nextOrder + 1 }
      let u := [0, 1, 2, 3].foldl (fun t f => setF t (4 * i + f) (newFibre h g f m)) (dropFbuf t cl [4 * i, 4 * i + 1, 4 * i + 2, 4 * i + 3])
      some (modWg u (wgKey launch g) fun x => { x with warps := x.warps ++ [i] })
  | _, _ => none
/-- A workgroup with every reservation made on a cluster, or none. -/
def placeOn (s : State) (launch g cl : Nat) : Option State :=
  let h := (getL s launch).hdr
  match fitSlice (sliceRuns s cl) (runBytes h) with
  | none => none
  | some off =>
    if !outFits s (768 + cl) launch || !outFits s (960 + cl) launch then none
    else
      let bar := hScr h + barBytes h
      let wg : Wg :=
        { Wg.none with
          live := true, launch := launch, g := g, cluster := cl, off := off, len := runBytes h
          tbufs := (List.range (hNtb h)).map fun i =>
            ⟨off + bar + tbOffset h i, hTbDepth h i, hTbSize h i, List.replicate (hTbDepth h i) .empty, 0, 0⟩ }
      let s1 := modWg (takeOut (takeOut s (768 + cl) launch) (960 + cl) launch) (wgKey launch g) fun _ => wg
      let s2 := modCl (forget { s1 with slices := zeroBytes s1.slices (cl * 2 ^ 20 + off) bar } .s (cl * 2 ^ 20 + off) bar) cl fun c =>
        { c with bad := clearBad c.bad off bar }
      (warpsOf h g).foldl (fun r k => match r with
        | some t => placeWarp t launch g cl k
        | none => none) (some s2)

/-! Tasks (R40, 23 R390). -/

/-- A pipeline buffer's slot admits task g of a stage: it writes the slot Empty, or reads it with fill g. -/
def slotAdmits (b : PBuf) (stage g : Nat) : Bool :=
  let x := getPs b (taskSlot b g)
  (b.prod != stage || x.st == .empty) &&
  (!readsPb b stage || ((x.st == .full || x.st == .acquired) && x.fill == g % 2 ^ 32 && !x.rel.contains stage))
/-- Buffers of a launch's pipeline. -/
def pbufsOf (s : State) (launch : Nat) : List PBuf :=
  match pipeOfL s launch with
  | some p => (getP s p).bufs
  | none => []
/-- Task g is eligible. -/
def eligible (s : State) (launch g : Nat) : Bool := (pbufsOf s launch).all fun b => slotAdmits b (getL s launch).stage g
/-- The slots of a placed task: written ones Reserved, read ones Acquired. -/
def claimSlots (s : State) (launch g : Nat) : State :=
  let stage := (getL s launch).stage
  let one := fun (b : PBuf) =>
    let i := taskSlot b g
    let x := getPs b i
    if b.prod = stage then { b with slots := b.slots.set i { x with st := .reserved } }
    else if readsPb b stage then { b with slots := b.slots.set i { x with st := .acquired } }
    else b
  match pipeOfL s launch with
  | some p => modP s p fun x => { x with bufs := x.bufs.map one }
  | none => s
/-- The slots of a task that leaves: those not committed are, those not released are. -/
def leaveSlots (s : State) (launch g : Nat) (com rel : List Nat) : State :=
  let stage := (getL s launch).stage
  (List.range (pbufsOf s launch).length).foldl (fun t i =>
    let b := getPb t launch i
    let op := fun c : Bool => applyOp t ⟨wgKey launch g, 0, 0, 16 + i, taskSlot b g, c⟩
    if b.prod = stage then (if com.contains (16 + i) then t else op true)
    else if readsPb b stage then (if rel.contains (16 + i) then t else op false)
    else t) s

/-- The slots of a task's pipeline buffers, with whether it commits or releases them when it leaves. -/
def taskSlots (s : State) (launch g : Nat) : List (Nat × Nat × Bool) :=
  let stage := (getL s launch).stage
  (List.range (pbufsOf s launch).length).filterMap fun i =>
    let b := getPb s launch i
    if b.prod = stage then some (16 + i, taskSlot b g, true)
    else if readsPb b stage then some (16 + i, taskSlot b g, false)
    else none
/-- The fibres of a placed workgroup acquire its slots at device scope (R390, 15 Table 15.4). -/
def acquireSlots (s : State) (launch g : Nat) : State :=
  let key := wgKey launch g
  let w := getWg s key
  (taskSlots s launch g).foldl (fun t x =>
    (w.warps.flatMap fun k => [4 * k, 4 * k + 1, 4 * k + 2, 4 * k + 3]).foldl (fun t a =>
      noteAcqBy t a key w.cluster (tbKeyOf t key x.1 x.2.1) .dv) t) s
/-- Agents release the slots that a task has not let go, at device scope (R390). -/
def releaseSlots (s : State) (launch g cl : Nat) (com rel agents : List Nat) : State :=
  let key := wgKey launch g
  ((taskSlots s launch g).filter fun x => !(if x.2.2 then com else rel).contains x.1).foldl (fun t x =>
    agents.foldl (fun t a => noteRelBy t a key cl (tbKeyOf t key x.1 x.2.1) .dv) t) s

/-! Apportioned stages (24). -/

/-- The stage of a launch is apportioned (R337, Table 19.5). -/
def apportioned (s : State) (launch : Nat) : Bool :=
  match pipeOfL s launch with
  | some p => feature s 19 && pAp (getP s p).desc && pApst (getP s p).desc == (getL s launch).stage
  | none => false
/-- Expert of task g (R398). -/
def expertOf (h : BitVec 2048) (g : Nat) : Nat :=
  let p := hLevel h
  bf g (hFieldLo h (p + 1) - hW h) (hWidth h (p + 1))
/-- Batch of task g (R398). -/
def batchOf (h : BitVec 2048) (g : Nat) : Nat := g / 2 ^ (hFieldLo h (hLevel h + 2) - hW h)
/-- The expert of `xs` not yet chosen with the largest remainder, the lower on a tie (R400). -/
def largestLeft (r n : Nat) (counts : List Nat) (xs taken : List Nat) : Option Nat :=
  xs.foldl (fun best e =>
    if taken.contains e then best
    else match best with
      | none => some e
      | some b => if r * counts.getD b 0 % n < r * counts.getD e 0 % n then some e else best) none
/-- The experts that receive one more cluster (R400). -/
def remainders (r n : Nat) (counts xs : List Nat) : Nat → List Nat → List Nat
  | 0, taken => taken
  | k + 1, taken =>
    match largestLeft r n counts xs taken with
    | some e => remainders r n counts xs k (e :: taken)
    | none => taken
/-- Clusters dealt in order (R400). -/
def dealClusters : List Nat → List (Nat × Nat) → List (Nat × List Nat)
  | _, [] => []
  | cl, (e, a) :: r => (e, cl.take a) :: dealClusters (cl.drop a) r
/-- The clusters of each expert where there are more experts than clusters. -/
def shareClusters (cl xs : List Nat) : List (Nat × List Nat) :=
  (List.range xs.length).map fun i => (xs.getD i 0, (cl[i % Nat.max cl.length 1]?).toList)
/-- The apportioning of clusters to counts (R400). -/
def apportion (cl counts : List Nat) : List (Nat × List Nat) :=
  let xs := (List.range counts.length).filter fun e => decide (0 < counts.getD e 0)
  let n := counts.foldl (· + ·) 0
  let c := cl.length
  if n = 0 then []
  else if c < xs.length then shareClusters cl xs
  else
    let r := c - xs.length
    let base := fun e => 1 + r * counts.getD e 0 / n
    let left := c - (xs.map base).foldl (· + ·) 0
    let more := remainders r n counts xs left []
    dealClusters cl (xs.map fun e => (e, base e + if more.contains e then 1 else 0))
/-- Who reads and writes for a context from the Hawkmoth core, on path 0x0. -/
def whoCtx (ctx part : Nat) : Who := { ctx := ctx, part := part, cl := 0, off := 0, scr := 0, prol := true, frond := false }
/-- Count element e of the stage's tensor, on path 0x4 (R399, R402): none where its read fails; uncorrectable data count as a
failure (DESIGN CHOICE, log 97). -/
def countAt (s : State) (l : Launch) (aph e : Nat) : Option Nat :=
  match locate s { whoCtx l.ctx l.part with prol := false } .ldc (BitVec.ofNat 64 (2 ^ 52 + aph * 2 ^ 38 + e)) 4 with
  | .error _ => none
  | .ok loc =>
    let r := readLoc s loc 4
    if r.2 then none else some r.1
/-- BATCH_START (R399 to R402): the next task's batch, once that task is eligible and the stage holds a cluster. -/
def startBatch (s : State) (launch : Nat) : State :=
  let l := getL s launch
  match pipeOfL s launch, nextWg l.hdr l.nextG with
  | some p, some g =>
    let b := batchOf l.hdr g
    let d := (getP s p).desc
    if !apportioned s launch || l.clusters.isEmpty || l.empty || !eligible s launch g ||
        (match l.batch with
         | some x => x.b == b
         | none => false) then s
    else
      let res := (List.range (pNexp d)).map (countAt s l (pAph d))
      let counts := res.map (·.getD 0)
      let s1 := (res.filter (·.isNone)).foldl (fun t _ => postCause t launch 0x140 0 0) s
      let drop := if pNexp d < (axisAt (getDesc s l.ctx (pAph d)) 0).extm1 + 1 then (countAt s l (pAph d) (pNexp d)).getD 0 else 0
      let s2 := modP s1 p fun x => { x with drops := Nat.min (x.drops + drop) (2 ^ 32 - 1) }
      postNew (modL s2 launch fun x => { x with batch := some ⟨b, counts, apportion l.clusters counts⟩ }) [.place launch]
  | _, _ => s
/-- BATCH_START. -/
def execBatchStart (launch : Nat) (s : State) : Host.Outcome State Fault Refusal := .next (startBatch s launch)
/-- The clusters of a batch's start that the stage still holds (R403): one gained since serves no expert. -/
def remaining (l : Launch) (b : Batch) : List Nat :=
  l.clusters.filter fun c => b.serve.any fun x => x.2.contains c
/-- Clusters that serve an expert now (R403): those recorded; where one of them has left the stage, the experts it served are dealt to
the clusters that remain (DEDUCED, log 97). -/
def servers (l : Launch) (e : Nat) : List Nat :=
  match l.batch with
  | none => []
  | some b =>
    let lost := (b.serve.filter fun x => !x.2.all l.clusters.contains).map (·.1)
    let deal := if lost.contains e then shareClusters (remaining l b) lost else b.serve
    ((deal.find? fun x => x.1 == e).map (·.2)).getD []

/-! Placement (R23, R24). -/

/-- Placement is stopped in a partition (22 R377). -/
def placing (s : State) (part : Nat) : Bool := (getPart s part).pre == 0
/-- The clusters a launch's next workgroup may go to. -/
def candidates (s : State) (launch g : Nat) : List Nat :=
  let l := getL s launch
  let base := if apportioned s launch then servers l (expertOf l.hdr g)
    else match l.pipe with
      | some _ => l.clusters
      | none => partClusters s l.part
  base.filter fun c => (getCl s c).part == l.part && (getCl s c).newPart.isNone
/-- The lowest existing workgroup at or above g that has not retired without placement. -/
def nextLeft (h : BitVec 2048) (skipped : List Nat) : Nat → Nat → Option Nat
  | 0, g => nextWg h g
  | n + 1, g =>
    match nextWg h g with
    | none => none
    | some k => if skipped.contains k then nextLeft h skipped n (k + 1) else some k
/-- The next workgroup of a launch recorded as passed. -/
def passWg (s : State) (launch g : Nat) : State :=
  let l := getL s launch
  let n := nextLeft l.hdr l.skipped l.skipped.length (g + 1)
  let m := n.getD (g + 1)
  modL s launch fun x => { x with nextG := m, empty := n.isNone, skipped := x.skipped.filter fun k => decide (m < k) }
/-- What may follow once a stage has nothing left to place. -/
def stageEvs (s : State) (launch : Nat) : List Ev := [.place launch, .complete (getL s launch).comp]
/-- A pipeline buffer's run in the lowest-numbered cluster where it fits (23 R389). -/
def placeBuf (s : State) (part : Nat) (b : PBuf) : Option PBuf :=
  ((partClusters s part).filter fun c => (getCl s c).newPart.isNone).findSome? fun c =>
    (fitSlice (sliceRuns s c) (b.depth * b.size)).map fun off =>
      { b with home := c, start := off, here := true }
/-- Buffer i of a pipeline reserved, if it is not and fits. -/
def placeBufAt (part p : Nat) (s : State) (i : Nat) : State :=
  let b := (getP s p).bufs.getD i PBuf.none
  match if b.here then none else placeBuf s part b with
  | none => s
  | some c => modP s p fun x => { x with bufs := x.bufs.set i c }
/-- A pipeline's buffers reserved, each where it fits; it may place once all are (R389). -/
def placePipe (s : State) (launch : Nat) : State :=
  match pipeOfL s launch with
  | none => s
  | some p =>
    if (getP s p).placed || !placing s (getL s launch).part then s
    else modP ((List.range (getP s p).bufs.length).foldl (placeBufAt (getL s launch).part p) s) p fun x =>
      { x with placed := x.bufs.all (·.here) }
/-- The next workgroup of a launch, where the launch may place one. -/
def nextToPlace (s : State) (launch : Nat) : Option Nat :=
  let l := getL s launch
  let ready := l.live && !l.empty && !l.cancelled && placing s l.part &&
    (match l.pipe with
     | some p => (getP s p).placed
     | none => true)
  match (if ready then nextWg l.hdr l.nextG else none) with
  | none => none
  | some g => if eligible s launch g then some g else none
/-- Task g of a launch is created (24 R401); none: its batch is not known yet. -/
def taskCreated (s : State) (launch g : Nat) : Option Bool :=
  let l := getL s launch
  match apportioned s launch, l.batch with
  | true, some b => if b.b = batchOf l.hdr g then some (decide (0 < b.counts.getD (expertOf l.hdr g) 0)) else none
  | true, none => none
  | false, _ => some true
/-- The state with the next workgroup of a launch placed on the first cluster on which it fits, and its index. -/
def placement (s : State) (launch : Nat) : Option (Nat × State) :=
  match nextToPlace s launch with
  | none => none
  | some g =>
    if taskCreated s launch g = some true then ((candidates s launch g).findSome? (placeOn s launch g)).map (g, ·) else none
/-- A number of tasks of a launch from g on. -/
def tasksFrom (h : BitVec 2048) : Nat → Nat → List Nat
  | 0, _ => []
  | n + 1, g =>
    match nextWg h g with
    | none => []
    | some k => k :: tasksFrom h n (k + 1)
/-- The tasks that can be eligible: no more than the slots of the stage's buffers. -/
def taskReach (s : State) (launch : Nat) : Nat :=
  let stage := (getL s launch).stage
  ((pbufsOf s launch).filter fun b => b.prod == stage || readsPb b stage).foldl (fun n b => Nat.min n b.depth) 16
/-- The first task of a launch that is eligible, is not created and has not retired (24 R401). -/
def skippable (s : State) (launch : Nat) : Option Nat :=
  let l := getL s launch
  if l.live && !l.empty && apportioned s launch && placing s l.part then
    (tasksFrom l.hdr (taskReach s launch) l.nextG).find? fun g =>
      !l.skipped.contains g && taskCreated s launch g == some false && eligible s launch g
  else none
/-- A task that is not created retires when it becomes eligible, whether or not one before it waits for room (24 R401). -/
def postSkip (s : State) (launch : Nat) : State := if (skippable s launch).isSome then postNew s [.notCreated launch] else s
/-- WORKGROUP_PLACEMENT (R23, R24): the next workgroup of a launch, unless a launch accepted earlier is to be tried
first; buffers of pipelines are reserved in the order of acceptance. -/
def placeNext (s0 : State) (launch : Nat) : State :=
  let s := postSkip (((s0.launches.map (·.1)).filter fun l => decide (l ≤ launch)).foldl placePipe s0) launch
  match nextToPlace s launch with
  | none => s
  | some g =>
    match taskCreated s launch g with
    | none => if (getL s launch).clusters.isEmpty then s else postNew s [.batch launch]
    | some false => s
    | some true =>
      match (s.launches.map (·.1)).find? fun l => decide (l < launch) && (placement s l).isSome with
      | some l => post s [.place l, .place launch]
      | none =>
        match placement s launch with
        | none => s
        | some (_, t) =>
          let u := passWg (acquireSlots (claimSlots t launch g) launch g) launch g
          postNew u (stageEvs s launch ++ exchangeEvs u)
/-- WORKGROUP_PLACEMENT. -/
def execWorkgroupPlacement (launch : Nat) (s : State) : Host.Outcome State Fault Refusal := .next (placeNext s launch)
/-- TASK_NOT_CREATED (24 R401): its slots are committed and released as at retirement. -/
def skipTask (s : State) (launch : Nat) : State :=
  match skippable s launch with
  | none => s
  | some g =>
    let u := leaveSlots (claimSlots s launch g) launch g [] []
    let t := if nextWg (getL s launch).hdr (getL s launch).nextG = some g then passWg u launch g
      else modL u launch fun x => { x with skipped := x.skipped ++ [g] }
    postNew t (roomEvs t [] ++ stageEvs t launch)
/-- TASK_NOT_CREATED. -/
def execTaskNotCreated (launch : Nat) (s : State) : Host.Outcome State Fault Refusal := .next (skipTask s launch)

/-! Retirement (R37). -/

/-- A partition that drains enters state 3 once nothing of it is resident (22 R377). -/
def settleDrain (s : State) (part : Nat) : State :=
  if (getPart s part).pre = 1 ∧ !(s.wgs.any fun w => w.2.live && (getL s w.2.launch).part == part) then
    modPart s part fun x => { x with pre := 3 }
  else s
/-- Slots of a cluster whose warps of a workgroup have retired. -/
def retiredSlots (s : State) (cl launch g : Nat) : List Nat :=
  ((List.range 64).map (cl * 64 + ·)).filter fun k =>
    (getW s k).retired && (getW s k).launch == launch && (getW s k).g == g
/-- A workgroup whose warps have retired, with no frond stream queued or running and no change held for it, retires: its
reservations are released (R37, 11 R195, 23 R390). -/
def retireWg (s : State) (key : Nat) : State :=
  let w := getWg s key
  let c := getCl s w.cluster
  if !w.live || !w.warps.isEmpty || c.frondWg == some key || c.frondQ.any (fun x => x.1 == key) then s
  else if c.tbq.any (fun o => o.wg == key) then postNew s [.tbApply w.cluster]
  else
    let slots := retiredSlots s w.cluster w.launch w.g
    let s0 := releaseSlots s w.launch w.g w.cluster w.comTb w.relTb
      (slots.flatMap fun k => [4 * k, 4 * k + 1, 4 * k + 2, 4 * k + 3])
    let s1 := slots.foldl (fun t k => setW t k Warp.none) s0
    let t := settleDrain { leaveSlots s1 w.launch w.g w.comTb w.relTb with wgs := tset Wg.none s1.wgs key Wg.none }
      (getL s w.launch).part
    let cores := [0, 1, 2, 3].map fun i => w.cluster * 4 + i
    postNew t (roomEvs t cores ++ [.complete (getL s w.launch).comp] ++
      (if c.newPart.isSome then [.cpart w.cluster] else []))
/-- WARP_RETIRE (R37): every fibre has Ended and the wait counters read zero. -/
def retireWarp (s : State) (k : Nat) : State :=
  let w := getW s k
  let done := w.live && !w.retired && w.pend.isEmpty && (slotFibres k).all fun i =>
    let f := getF s i
    (f.st == .absent || f.st == .ended) && f.cnt.all (· == 0)
  if !done then s
  else
    let key := wgKey w.launch w.g
    let s1 := if k = fibKey s.cur / 4 then checkIn s else s
    let s2 := (slotFibres k).foldl (fun t i => setF t i Fibre.none) s1
    let kept : Warp := { Warp.none with
      live := true, launch := w.launch, g := w.g, idx := w.idx, base := w.base, resv := w.resv, retired := true }
    let s3 := modWg (setW s2 k kept) key fun x => { x with warps := x.warps.filter fun j => j != k }
    let s4 := modCore s3 (k / 16) fun c => { c with evicted := c.evicted.filter fun e => e.slot != k }
    if (getWg s4 key).warps.isEmpty then post s4 [.retireWg key] else s4
/-- WARP_RETIRE. -/
def execWarpRetire (warp : Nat) (s : State) : Host.Outcome State Fault Refusal := .next (retireWarp s warp)

/-! Starvation and completion (R41, 20 R348, 22 R374). -/

/-- A launch has nothing resident and nothing left to place. -/
def stageDone (s : State) (launch : Nat) : Bool :=
  (getL s launch).empty && !s.wgs.any fun p => p.2.live && p.2.launch == launch
/-- The next task of a stage reads a slot that no producing task will fill (R41). -/
def starves (s : State) (launch : Nat) : Bool :=
  let l := getL s launch
  match pipeOfL s launch, (if l.live && !l.empty then nextWg l.hdr l.nextG else none) with
  | some p, some g =>
    (getP s p).bufs.any fun b =>
      readsPb b l.stage && stageDone s ((getP s p).stages.getD b.prod 0) &&
      (let x := getPs b (taskSlot b g)
       !((x.st == .full || x.st == .acquired) && x.fill == g % 2 ^ 32))
  | _, _ => false
/-- A starved stage's tasks are cancelled, 0x147 is posted. -/
def cancelStarved (s : State) (launch : Nat) : State :=
  if starves s launch then
    postNew (postCause (modL s launch fun x => { x with empty := true }) launch 0x147 0 0)
      ((match pipeOfL s launch with
        | some p => (getP s p).stages.map Ev.place
        | none => []) ++ [.complete (getL s launch).comp])
  else s
/-- A launch is complete but for its record: nothing resident, outstanding counters zero, overflow area empty. -/
def launchDone (s : State) (launch : Nat) : Bool :=
  stageDone s launch && (getL s launch).overflow.isEmpty &&
  s.outst.all fun p => p.1 / 2048 != launch || decide (p.2 ≤ 1)
/-- The drop counters of a completion's pipelines, in its record: added up where one packet started several (DESIGN CHOICE, log 97). -/
def compDrops (s : State) (c : Comp) : Nat :=
  Nat.min ((s.pipes.filter fun p => p.2.stages.any c.launches.contains).foldl (fun n p => n + p.2.drops) c.drops) (2 ^ 32 - 1)
/-- The bits of a completion record (22 Table 22.6). -/
def recordBits (s : State) (c : Comp) : Nat :=
  c.tag.toNat + c.cause * 2 ^ 32 + 2 ^ 41 + (if c.cancelled then 2 ^ 42 else 0) + c.ncause * 2 ^ 48 + c.site * 2 ^ 64 +
  c.orig * 2 ^ 80 + compDrops s c * 2 ^ 128 + s.timens.toNat * 2 ^ 192
/-- An address of a packet (22 R364): path 0x0. -/
def locatePkt (s : State) (ctx part : Nat) (wr : Bool) (va : Word64) (size : Nat) : Except Nat Loc :=
  if bf va.toNat 50 4 ≠ 0 then .error 0x043 else locate s (whoCtx ctx part) (if wr then .imgW else .img) va size
/-- The record written at its address (22 R374); an address that fails posts 0x140 to QERR. -/
def writeRecord (s : State) (c : Comp) : State :=
  if c.addr = 0 then s
  else match locatePkt s c.ctx (getCtx s c.ctx).part true c.addr 32 with
    | .error _ => qerr s c.queue 0x140
    | .ok l => forgetLoc (writeLoc s l (recordBits s c) 32).1 l 32
/-- An MSI-X vector raised (26 R416); while its entry is masked, its message pends (log 94). -/
def raiseVec (s : State) (v : Nat) : State :=
  let t := { s with msix := s.msix ++ [v] }
  if bf (s.msixTab.getD v 0).toNat 96 1 = 1 && !s.msixPend.contains v then { t with msixPend := s.msixPend ++ [v] } else t
/-- A queue's interrupt (22 R374). -/
def raiseIrq (s : State) (q : Nat) : State := if (getQ s q).qctl.getLsbD 15 then raiseVec s q else s
/-- The records of a completion's launches removed. -/
def dropLaunches (s : State) (ls : List Nat) : State :=
  let gone := fun (l : Nat) => ls.contains l
  { s with
    launches := s.launches.filter fun p => !gone p.1
    outst := s.outst.filter fun p => !gone (p.1 / 2048)
    redns := s.redns.filter fun r => !gone r.launch
    pipes := s.pipes.filter fun p => !p.2.stages.any gone
    clusters := s.clusters.map fun p => (p.1, { p.2 with
      seqR := p.2.seqR.filter fun x => !gone x.1, seqB := p.2.seqB.filter fun x => !gone x.1 }) }
/-- A time-triggered entry. -/
def getTt (s : State) (i : Nat) : TtEntry := tget TtEntry.reset s.tt i
/-- It changed. -/
def modTt (s : State) (i : Nat) (g : TtEntry → TtEntry) : State := { s with tt := tset TtEntry.reset s.tt i (g (getTt s i)) }
/-- Bits of word 0 of an entry (19 Table 19.6): the queue. -/
def ttQueue (e : TtEntry) : Nat := bf e.w0.toNat 2 5
/-- pend. -/
def ttPend (e : TtEntry) : Bool := e.w0.getLsbD 7
/-- skips. -/
def ttSkips (e : TtEntry) : Nat := bf e.w0.toNat 32 32
/-- pend and skips set. -/
def ttSet (e : TtEntry) (pend : Bool) (skips : Nat) : TtEntry :=
  { e with w0 := (e.w0 &&& 0x7F#64) ||| BitVec.ofNat 64 ((if pend then 128 else 0) + Nat.min skips (2 ^ 32 - 1) * 2 ^ 32) }
/-- An entry's packet placed ahead of the host's packets in its queue's lane (19 R342). -/
def ttPlace (s : State) (i : Nat) : State :=
  let e := getTt s i
  let q := ttQueue e
  let ctx := bf (getQ s q).qctl.toNat 16 6
  match locatePkt s ctx (getCtx s ctx).part false (e.pkt &&& 0x3FFFFFFFFFFFFF#64) 64 with
  | .error _ => qerr s q 0x140
  | .ok l =>
    let p := BitVec.ofNat 512 (readLoc s l 64).1
    postNew (modQ s q fun x => { x with ahead := x.ahead ++ [(i, p)] }) [.round]
/-- An entry's instance has completed: a pending one is placed (19 R342). -/
def ttNext (s : State) (tt : Option Nat) : State :=
  match tt with
  | none => s
  | some i =>
    if ttPend (getTt s i) then ttPlace (modTt s i fun e => ttSet e false (ttSkips e)) i else s
/-- Clusters with a new part that may now be empty (12 R223). -/
def cpartEvs (s : State) : List Ev := s.clusters.filterMap fun p => if p.2.newPart.isSome then some (.cpart p.1) else none
/-- What completes as one (22 R374): a launch outside any pipeline, or a pipeline, by its first stage. -/
def launchUnit (s : State) (l : Nat) : Nat :=
  match pipeOfL s l with
  | some p => (getP s p).stages.headD l
  | none => l
/-- QDONE counts each launch, or pipeline, of a packet once it is complete, and each that was rejected (22 R374): the state and how
many it counts now. -/
def countDone (s : State) (comp : Nat) : State × Nat :=
  let c := getC s comp
  let units := distinct (c.launches.map (launchUnit s))
  let new := units.filter fun u => !c.counted.contains u && (c.launches.filter fun l => launchUnit s l == u).all (launchDone s)
  let n := new.length + c.rejects
  if n = 0 then (s, 0)
  else (modQ (modC s comp fun x => { x with counted := x.counted ++ new ++ (if c.rejects = 0 then [] else [0]), rejects := 0 }) c.queue
    fun x => { x with done := x.done + BitVec.ofNat 32 n }, n)
/-- The completion posted (22 R374); a packet that started no launch counts once. -/
def postDone (s : State) (comp : Nat) : State :=
  let c := getC s comp
  let q := if c.counted.isEmpty then modQ s c.queue fun x => { x with done := x.done + 1 } else s
  let s1 := raiseIrq (writeRecord q c) c.queue
  let s2 := { dropLaunches (forgetLaunches s1 c.launches) c.launches with comps := tset Comp.none s1.comps comp Comp.none }
  postNew (ttNext s2 c.tt) (roomEvs s2 [] ++ [.round] ++ cpartEvs s2)
/-- LAUNCH_COMPLETION (20 R348, 22 R374): every launch of the completion is complete; starved stages are cancelled. -/
def tryComplete (s : State) (comp : Nat) : State :=
  let c := getC s comp
  if !c.live then s
  else
    let t := c.launches.foldl cancelStarved s
    let u := countDone t comp
    if c.more || !c.launches.all (launchDone t) then (if u.2 = 0 then t else raiseIrq u.1 c.queue) else postDone u.1 comp
/-- LAUNCH_COMPLETION. -/
def execLaunchCompletion (comp : Nat) (s : State) : Host.Outcome State Fault Refusal := .next (tryComplete s comp)

end Sys2Proof.Machine
end

