-- ==== Sys2Proof/Machine/FrontEnd.lean ====
section
/-! DEFINITION. The Hawkmoth core: queues and packets (22 R362 to R370), launch headers and pipeline records (19 R334 to
R339), `enq` and overflow areas (22 R371 to R373), time-triggered launches (19 R340 to R342), cancellation (22 R375). -/

namespace Sys2Proof.Machine

/-! Queue registers and rings (R362, R363). -/

/-- QCTL.part. -/
def qPart (x : Queue) : Nat := bf x.qctl.toNat 1 4
/-- QCTL.ctx. -/
def qCtx (x : Queue) : Nat := bf x.qctl.toNat 16 6
/-- Packets of the host ring. -/
def hostRing (x : Queue) : Nat := 2 ^ bf x.qctl.toNat 5 5
/-- dlsz. -/
def qDlsz (x : Queue) : Nat := bf x.qctl.toNat 10 5
/-- QTAIL (R363). -/
def writeQtail (s : State) (q : Nat) (t : Word) : State :=
  let x := getQ s q
  if (t - x.head).toNat ≤ hostRing x ∧ (x.tail - x.head).toNat ≤ (t - x.head).toNat then
    postNew (modQ s q fun y => { y with tail := t }) [.round]
  else qerr s q 0x150
/-- QTAIL. -/
def execQtail (q : Nat) (t : Word) (s : State) : Host.Outcome State Fault Refusal :=
  .next (hostWrite s fun s => writeQtail s q t)

/-- Where the lane's head packet stands (R366). -/
inductive Source where
  | ahead (entry : Nat)
  | device
  | host
  deriving DecidableEq, Repr

/-- The head packet of a lane (R366): time-triggered ones first, then the device ring, eight in a row. -/
def headPkt (s : State) (q : Nat) : Option (Source × BitVec 512) :=
  let x := getQ s q
  let host := x.tail != x.head
  match x.ahead with
  | (i, p) :: _ => some (.ahead i, p)
  | [] =>
    if x.dtail ≠ x.dhead ∧ (¬ host ∨ x.devRun < 8) then
      some (.device, BitVec.ofNat 512 (rdBytes s.mem (x.dqbase.toNat + 64 * (x.dhead.toNat % 2 ^ qDlsz x)) 64))
    else if host then
      some (.host, BitVec.ofNat 512 (rdBytes s.mem (x.qbase.toNat + 64 * (x.head.toNat % hostRing x)) 64))
    else none
/-- The head packet accepted: its slot is free. -/
def acceptPkt (s : State) (q : Nat) (src : Source) : State :=
  match src with
  | .ahead _ => modQ s q fun x => { x with ahead := x.ahead.drop 1 }
  | .device =>
    let t := modQ s q fun x => { x with dhead := x.dhead + 1, devRun := if x.tail = x.head then 0 else x.devRun + 1 }
    if t.launches.any fun p => p.2.overflow.any fun o => o.1 == q then postNew t [.drainOvf q] else t
  | .host => modQ s q fun x => { x with head := x.head + 1, devRun := 0 }
/-- Byte type of a packet. -/
def pktType (p : BitVec 512) : Nat := bf p.toNat 0 8
/-- Reserved fields of a packet (Tables 22.3, 22.4). -/
def pktBad (p : BitVec 512) : Bool :=
  let n := p.toNat
  bf n 9 23 != 0 ||
  match pktType p with
  | 0 => bf n 64 448 != 0
  | 1 => bf n 192 320 != 0
  | 2 => bf n 224 3 == 6 || bf n 227 13 != 0 || bf n 256 256 != 0
  | 3 => bf n 192 320 != 0
  | 4 => bf n 193 319 != 0
  | _ => true
/-- Bits [127:64] of a packet. -/
def pktA (p : BitVec 512) : Word64 := p.extractLsb' 64 64
/-- Bits [191:128] of a packet. -/
def pktV (p : BitVec 512) : Word64 := p.extractLsb' 128 64
/-- The type under which a lane's packet is served; 2 stands for LAUNCH_INDIRECT without its feature too (19 Table 19.8). -/
def servedType (s : State) (p : BitVec 512) : Nat :=
  if pktBad p || (pktType p == 2 && !feature s 17) then 5 else pktType p
/-- An earlier launch of the queue has not completed. -/
def queueBusy (s : State) (q : Nat) : Bool := s.comps.any fun p => p.2.live && p.2.queue == q
/-- The word a SIGNAL or WAIT names, or none (R365). -/
def pktWord (s : State) (q : Nat) (p : BitVec 512) (wr : Bool) : Option Loc :=
  let ctx := qCtx (getQ s q)
  match locatePkt s ctx (qPart (getQ s q)) wr (pktA p) 8 with
  | .ok l => some l
  | .error _ => none
/-- A WAIT's condition holds (R365); one whose address fails is not held. -/
def waitHolds (s : State) (q : Nat) (p : BitVec 512) : Bool :=
  match pktWord s q p false with
  | none => true
  | some l =>
    let v := (readLoc s l 8).1
    if bf p.toNat 192 1 = 1 then decide ((pktV p).toNat ≤ v) else v == (pktV p).toNat
/-- The lane takes part in a round with this packet (R366, R367). -/
def notHeld (s : State) (q : Nat) (p : BitVec 512) : Bool :=
  let x := getQ s q
  x.qctl.getLsbD 0 && x.prol.isNone && (getPart s (qPart x)).pre == 0 && !(p.getLsbD 8 && queueBusy s q) &&
  match servedType s p with
  | 3 => !queueBusy s q
  | 4 => waitHolds s q p
  | _ => true
/-- The head packet of a lane, not held, of a type. -/
def headOf (s : State) (q ty : Nat) : Option (Source × BitVec 512) :=
  match headPkt s q with
  | some (src, p) => if notHeld s q p && servedType s p == ty then some (src, p) else none
  | none => none
/-- A lane's head of a type served by `f`. -/
def takeHead (s : State) (q ty : Nat) (f : State → BitVec 512 → Source → State) : State :=
  match headOf s q ty with
  | some (src, p) => postNew (f (acceptPkt s q src) p src) [.round]
  | none => s
/-- An instance of a time-triggered entry that starts no launch is complete at once. -/
def srcEnds (s : State) (src : Source) : State :=
  match src with
  | .ahead i => ttNext s (some i)
  | .device | .host => s

/-- SIGNAL (R365). -/
def takeSignal (s : State) (q : Nat) : State :=
  takeHead s q 3 fun s p src => srcEnds (match pktWord s q p true with
    | some l => forgetLoc (writeLoc s l (pktV p).toNat 8).1 l 8
    | none => qerr s q 0x140) src
/-- SIGNAL. -/
def execSignal (q : Nat) (s : State) : Host.Outcome State Fault Refusal := .next (takeSignal s q)
/-- WAIT (R365), once its condition holds. -/
def takeWait (s : State) (q : Nat) : State :=
  takeHead s q 4 fun s p src => srcEnds (match pktWord s q p false with
    | some _ => s
    | none => qerr s q 0x140) src
/-- WAIT_PACKET. -/
def execWaitPacket (q : Nat) (s : State) : Host.Outcome State Fault Refusal := .next (takeWait s q)
/-- WAIT_PACKET_POLL (R365): the word is read; the packet is accepted once the condition holds. -/
def execWaitPacketPoll (q : Nat) (s : State) : Host.Outcome State Fault Refusal := .next (takeWait s q)
/-- NOP. -/
def takeNop (s : State) (q : Nat) : State := takeHead s q 0 fun s _ src => srcEnds s src
/-- NOP_PACKET. -/
def execNopPacket (q : Nat) (s : State) : Host.Outcome State Fault Refusal := .next (takeNop s q)
/-- A packet of a reserved type or with a reserved field set (R364): its cause is posted with its tag. -/
def takeReserved (s : State) (q : Nat) : State :=
  takeHead s q 5 fun s p src => srcEnds (modQ (qerr s q 0x140) q fun x => { x with errTag := p.extractLsb' 32 32 }) src
/-- RESERVED_PACKET. -/
def execReservedPacket (q : Nat) (s : State) : Host.Outcome State Fault Refusal := .next (takeReserved s q)

/-! Checks of headers (19 R336). -/

/-- Step 1 of R336. -/
def headerMalformed (h : BitVec 2048) : Bool :=
  let n := h.toNat
  let m := bf n 32 32
  let p := hLevel h
  bf n 109 19 != 0 || bf n 203 5 != 0 || bf n 222 2 != 0 || bf n 231 1 != 0 || bf n 237 19 != 0 || bf n 1539 61 != 0 ||
  bf n 1696 352 != 0 || p == 0 || p == 7 || decide (hWidth h 0 < 5) || decide (64 < hFieldLo h 6) ||
  bf (hExt h) (hFieldLo h 6) (64 - hFieldLo h 6) != 0 || bf m 0 3 == 0 || 6 ≤ bf m 0 3 ||
  (BitVec.ofNat 32 m &&& ~~~0x0001FF1F#32) != 0 ||
  ([0, 1, 2, 3].any fun f =>
    (decide (hNfib h ≤ f) && (bf n (256 + 32 * f) 32 != 0 || bf n (384 + 16 * f) 16 != 0)) || bf n (397 + 16 * f) 3 != 0) ||
  ((List.range 16).any fun i =>
    if hNtb h ≤ i then bf n (512 + 32 * i) 32 != 0 else bf n (517 + 32 * i) 11 != 0 || bf n (540 + 32 * i) 4 != 0) ||
  (hPipe h == 0 && hStage h != 0) || (hOvf h == 0 && hOvfn h != 0)
/-- Step 3 of R336. -/
def headerRange (h : BitVec 2048) : Bool :=
  hRegs h == 0 || decide (128 < hRegs h) || hNfib h == 0 || decide (4 < hNfib h) || decide (8192 * 128 < hScr h) ||
  decide (64 < hNbar h) || decide (16 < hNtb h) ||
  ((List.range (hNfib h)).any fun f =>
    hWinLen h f == 0 || decide (32 < hWinLen h f) || decide (hRegs h < hWinBase h f + hWinLen h f)) ||
  ((List.range (hNtb h)).any fun i =>
    hTbDepth h i == 0 || decide (16 < hTbDepth h i) || hTbSize h i == 0 || decide (2048 * 128 < hTbSize h i))
/-- Rows that a workgroup takes on its fullest core (R24). -/
def rowsNeeded (h : BitVec 2048) : Nat :=
  let l := warpsOf h 0
  ([0, 1, 2, 3].map fun c => l.countP fun k => k % 4 == c).foldl Nat.max 0 * roundUp8 (hRegs h)
/-- Steps 1 to 4 of R336, and R24: the cause that rejects the launch. -/
def headerCause (h : BitVec 2048) : Option Nat :=
  if headerMalformed h then some 0x140
  else if 11 < hW h then some 0x141
  else if headerRange h || decide (2 ^ 20 < runBytes h) || decide (1024 < rowsNeeded h) then some 0x142
  else none
/-- The trap vector table of a header (R334, R338): none where it rejects the launch. -/
def readTv (s : State) (ctx part : Nat) (h : BitVec 2048) : Option (BitVec 512) :=
  if hTvt h = 0 then some (~~~0#512)
  else match locatePkt s ctx part false (BitVec.ofNat 64 (hTvt h)) 64 with
    | .error _ => none
    | .ok l =>
      let r := readLoc s l 64
      if r.2 || bf r.1 352 160 ≠ 2 ^ 160 - 1 then none else some (BitVec.ofNat 512 r.1)
/-- A table of 256 bytes read (R334). -/
def readTable (s : State) (ctx part : Nat) (va : Word64) : Option (BitVec 2048) :=
  match locatePkt s ctx part false va 256 with
  | .error _ => none
  | .ok l =>
    let r := readLoc s l 256
    if r.2 then none else some (BitVec.ofNat 2048 r.1)

/-! Checks of pipeline records (R339). -/

/-- Buffer i of a record, not yet reserved. -/
def recordBuf (r : BitVec 2048) (i : Nat) : PBuf :=
  let v := bf r.toNat (640 + 64 * i) 64
  { home := 0, start := 0, depth := bf v 0 5, size := bf v 16 12 * 128, prod := bf v 32 3, cons := bf v 40 8
    slots := List.replicate (bf v 0 5) ⟨.empty, 0, []⟩, here := false }
/-- Buffer i of a record is legal. -/
def bufOk (r : BitVec 2048) (i : Nat) : Bool :=
  let v := bf r.toNat (640 + 64 * i) 64
  let b := recordBuf r i
  bf v 5 11 == 0 && bf v 28 4 == 0 && bf v 35 5 == 0 && bf v 48 16 == 0 && decide (b.prod < pNst r) && b.cons != 0 &&
  decide (b.cons < 2 ^ pNst r) && bf b.cons b.prod 1 == 0 && decide (1 ≤ b.depth) && decide (b.depth ≤ 16) &&
  decide (128 ≤ b.size) && decide (b.size ≤ 2048 * 128)
/-- Apportioning of a record is legal (R339, 24 R398): `hs` are the stages' headers. -/
def apOk (s : State) (ctx : Nat) (r : BitVec 2048) (hs : List (BitVec 2048)) : Bool :=
  let d := getDesc s ctx (pAph r)
  let h := hs.getD (pApst r) 0
  decide (pApst r < pNst r) && d.valid && d.rank == 1 && d.esize == 2 &&
  decide (pNexp r ≤ (axisAt d 0).extm1 + 1) &&
  decide (hLevel h ≤ 4) && hExtent h (hLevel h + 1) == pNexp r
/-- The record alone is legal. -/
def recordOk (_s : State) (r : BitVec 2048) : Bool :=
  let n := r.toNat
  decide (1 ≤ pNst r) && decide (pNst r ≤ 8) && decide (pNtb r ≤ 16) && bf n 33 95 == 0 && bf n 1664 384 == 0 &&
  ((List.range 8).all fun i =>
    if i < pNst r then pStage r i != 0 && pStage r i % 256 == 0 else pStage r i == 0) &&
  ((List.range (pNtb r)).all (bufOk r)) &&
  (pAp r || (pApst r == 0 && bf n 13 8 == 0 && pAph r == 0))
/-- The headers of stages 1 and up and their trap vector tables, read once (R333, R334); none: the read failed. -/
def readStages (s : State) (ctx part : Nat) (r : BitVec 2048) : List (Option (BitVec 2048 × Option (BitVec 512))) :=
  (List.range (pNst r - 1)).map fun i =>
    (readTable s ctx part (BitVec.ofNat 64 (pStage r (i + 1)))).map fun h => (h, readTv s ctx part h)
/-- A stage's header and table, where both were read. -/
def stageRead (x : Option (BitVec 2048 × Option (BitVec 512))) : Option (BitVec 2048 × BitVec 512) :=
  match x with
  | some (h, some tv) => some (h, tv)
  | some (_, none) | none => none
/-- What R339 asks of the headers of stages 1 and up, each stage's index before it: read, and naming the record and their
index; else the address that failed. -/
def stagesNamed (r : BitVec 2048) (pipe : Nat) (l : List (Option (BitVec 2048 × Option (BitVec 512)))) : Except Word64 Unit :=
  (List.range l.length).foldl (fun a i =>
    match a with
    | .error e => .error e
    | .ok () =>
      match l.getD i none with
      | none => .error (BitVec.ofNat 64 (pStage r (i + 1)))
      | some (h, _) => if hPipe h ≠ pipe ∨ hStage h ≠ i + 1 then .error (BitVec.ofNat 64 (pStage r (i + 1))) else .ok ()) (.ok ())
/-- The headers of stages 1 and up by steps 1 to 4 of R336, in increasing index; else the first cause and the address. -/
def stageHeaders (r : BitVec 2048) (l : List (Option (BitVec 2048 × Option (BitVec 512)))) :
    Except (Nat × Word64) (List (BitVec 2048 × BitVec 512)) :=
  (List.range l.length).foldl (fun a i =>
    match a with
    | .error c => .error c
    | .ok hs =>
      let at1 := BitVec.ofNat 64 (pStage r (i + 1))
      match l.getD i none with
      | none => .error (0x140, at1)
      | some (h, tv) =>
        match headerCause h, tv with
        | some c, _ => .error (c, at1)
        | none, none => .error (0x140, BitVec.ofNat 64 (hTvt h))
        | none, some tv => .ok (hs ++ [(h, tv)])) (.ok [])

/-! Starting launches (R364, R369, R379). -/

/-- A completion for a packet. -/
def newComp (s : State) (q : Nat) (p : BitVec 512) (more : Bool) (src : Source) : State × Nat :=
  let id := s.nextId + 1
  let c : Comp :=
    { Comp.none with
      live := true, queue := q, ctx := qCtx (getQ s q), tag := p.extractLsb' 32 32, addr := pktV p, more := more
      tt := match src with
        | .ahead i => some i
        | .device | .host => none }
  ({ s with nextId := id, comps := tset Comp.none s.comps id c }, id)
/-- A launch of a packet completes at once with no work: QDONE counts it (R374). -/
def noteReject (s : State) (comp : Nat) : State := postNew (modC s comp fun c => { c with rejects := c.rejects + 1 }) [.complete comp]
/-- A launch rejected: its cause is posted, it completes at once. -/
def reject (s : State) (comp cause orig : Nat) : State := noteReject (postComp s comp cause 0 orig) comp
/-- The same with the failing address that the queue record carries (19 R334, R336; log 74). -/
def rejectAt (s : State) (comp cause : Nat) (va : Word64) : State :=
  let t := modC s comp fun c => { c with failAddr := va }
  modQ (reject t comp cause 0) (getC s comp).queue fun q => { q with errAddr := va }
/-- One stage accepted. -/
def addStage (s : State) (q comp : Nat) (h : BitVec 2048) (tv : BitVec 512) (pipe : Option Nat) (clusters : List Nat)
    (idle : Bool) : State :=
  let id := s.nextId + 1
  let g := nextWg h 0
  let h1 := if feature s 16 then h else BitVec.ofNat 2048 (h.toNat - bf h.toNat 1600 96 * 2 ^ 1600)
  let l : Launch :=
    { Launch.none with
      live := true, queue := q, ctx := qCtx (getQ s q), part := qPart (getQ s q), hdr := h1, tv := tv, comp := comp
      pipe := pipe, stage := hStage h, nextG := g.getD 0, empty := idle || g.isNone, clusters := clusters }
  let t := { s with nextId := id, launches := tset Launch.none s.launches id l }
  postNew (modC t comp fun c => { c with launches := c.launches ++ [id] }) [.place id, .complete comp]
/-- Clusters of a partition dealt to a stage (23 R393). -/
def dealt (cl : List Nat) (n i : Nat) : List Nat :=
  (List.range cl.length).filterMap fun j => if j % n = i then cl[j]? else none
/-- The launches of a pipeline accepted, its buffers reserved where they fit; buffers that fit no slice reject it (23 R389). -/
def addPipe (s : State) (q comp : Nat) (r : BitVec 2048) (hs : List (BitVec 2048 × BitVec 512)) (idle : Bool) : State :=
  let bufs := (List.range (pNtb r)).map (recordBuf r)
  if bufs.any fun b => decide (2 ^ 20 < b.depth * b.size) then reject s comp 0x142 0
  else
    let id := s.nextId + 1
    let first := id + 1
    let p : Pipeline :=
      { Pipeline.none with
        live := true, desc := r, comp := comp, stages := (List.range (pNst r)).map (first + ·), bufs := bufs }
    let t := { s with nextId := id, pipes := tset Pipeline.none s.pipes id p }
    let cl := partClusters s (qPart (getQ s q))
    placePipe (((List.range hs.length).zip hs).foldl (fun t x =>
      addStage t q comp x.2.1 x.2.2 (some id) (dealt cl (pNst r) x.1) (idle && x.1 == 0)) t) first
/-- The context of a queue serves its launches (R379). -/
def ctxServes (s : State) (q : Nat) : Bool :=
  let c := getCtx s (qCtx (getQ s q))
  c.en && c.part == qPart (getQ s q)
/-- Steps 1 to 5 of R336 on a header copy; a launch, or a pipeline, is accepted or rejected. `hdrs`: the headers of
stages 1 and up as read. -/
def startLaunch (s : State) (q comp : Nat) (at1 : Word64) (h : BitVec 2048) (tv : Option (BitVec 512))
    (rec : Option (BitVec 2048)) (hdrs : List (Option (BitVec 2048 × Option (BitVec 512)))) (idle : Bool) : State :=
  if !ctxServes s q then reject s comp 0x140 0
  else match headerCause h, tv with
    | some c, _ => reject s comp c 0
    | none, none => rejectAt s comp 0x140 (BitVec.ofNat 64 (hTvt h))
    | none, some tv =>
      if hPipe h = 0 then addStage s q comp h tv none [] idle
      else match rec with
        | none => rejectAt s comp 0x140 (BitVec.ofNat 64 (hPipe h))
        | some r =>
          if !recordOk s r || hStage h ≠ 0 || pStage r 0 ≠ at1.toNat then reject s comp 0x140 0
          else match stagesNamed r (hPipe h) hdrs with
            | .error a => rejectAt s comp 0x140 a
            | .ok () =>
              let hs := h :: hdrs.filterMap fun x => x.map (·.1)
              if feature s 19 && pAp r && !apOk s (qCtx (getQ s q)) r hs then reject s comp 0x140 0
              else match stageHeaders r hdrs with
                | .error c => rejectAt s comp c.1 c.2
                | .ok l => addPipe s q comp r ((h, tv) :: l) idle
/-- The pipeline record a header names. -/
def readRec (s : State) (q : Nat) (h : BitVec 2048) : Option (BitVec 2048) :=
  if hPipe h = 0 then some 0 else readTable s (qCtx (getQ s q)) (qPart (getQ s q)) (BitVec.ofNat 64 (hPipe h))
/-- LAUNCH (R364). -/
def takeLaunch (s : State) (q : Nat) : State :=
  takeHead s q 1 fun s p src =>
    let c := newComp { s with accepted := true } q p false src
    match readTable c.1 (qCtx (getQ s q)) (qPart (getQ s q)) (pktA p) with
    | none => rejectAt c.1 c.2 0x140 (pktA p)
    | some h =>
      let ctx := qCtx (getQ s q)
      let part := qPart (getQ s q)
      let r := readRec c.1 q h
      startLaunch c.1 q c.2 (pktA p) h (readTv c.1 ctx part h) r (readStages c.1 ctx part (r.getD 0)) false
/-- LAUNCH. -/
def execLaunch (q : Nat) (s : State) : Host.Outcome State Fault Refusal := .next (takeLaunch s q)

/-! Indirect launches (R368 to R370). -/

/-- A run of a prologue begins (R368). -/
def startProl (s : State) (q : Nat) (p : Prol) : State :=
  let f : Fibre :=
    { Fibre.none with
      st := .ready, live := 1
      sp := { Split.none with live := true, pos := ⟨p.pkt.extractLsb' 192 32, 0⟩, mask := 1 }
      k := (List.range 14).map (hPar p.hdr) ++ [BitVec.ofNat 32 p.r, 0] }
  let t := modQ s q fun x => { x with prol := some { p with words := 0 } }
  setW (setF (dropFbuf t (clusterOf (fibKey (.prol q))) [fibKey (.prol q)]) (fibKey (.prol q)) f) (fibKey (.prol q) / 4)
    { Warp.none with live := true, nfib := 1 }
/-- A LAUNCH_INDIRECT accepted (R368): its header is read, its prologue starts. -/
def takeIndirect (s : State) (q : Nat) : State :=
  takeHead s q 2 fun s p src =>
    let c := newComp { s with accepted := true } q p true src
    let ctx := qCtx (getQ s q)
    let part := qPart (getQ s q)
    let bad := fun (t : State) (va : Word64) => rejectAt (modC t c.2 fun x => { x with more := false }) c.2 0x140 va
    match readTable c.1 ctx part (pktA p) with
    | none => bad c.1 (pktA p)
    | some h =>
      if !ctxServes s q then bad c.1 0
      else match readTv c.1 ctx part h, readRec c.1 q h with
        | some tv, some r =>
          startProl c.1 q
            { pkt := p, hdr := h, tv := tv, prec := r, hdrs := readStages c.1 ctx part r, r := 0, words := 0, comp := c.2 }
        | none, _ => bad c.1 (BitVec.ofNat 64 (hTvt h))
        | some _, none => bad c.1 (BitVec.ofNat 64 (hPipe h))
/-- The prologue of a queue is over: its records go. -/
def endProl (s : State) (q : Nat) : State :=
  let t := checkIn s
  { setF (setW t (fibKey (.prol q) / 4) Warp.none) (fibKey (.prol q)) Fibre.none with
    queues := tset Queue.reset t.queues q { getQ t q with prol := none } }
/-- A lane's prologue is running. -/
def prolRuns (s : State) : Bool := s.queues.any fun x => x.2.prol.isSome
/-- Lanes whose prologue is running, in increasing number. -/
def prolLanes (s : State) : List Nat := s.queues.filterMap fun x => if x.2.prol.isSome then some x.1 else none
/-- The completion of a packet has its last launch; the next lane's launches follow (R367). -/
def lastRun (s : State) (q comp : Nat) : State :=
  let t := endProl s q
  postNew (modC t comp fun c => { c with more := false }) ([.complete comp, .round] ++ (prolLanes t).map Ev.indirect)
/-- The header copy after a run (R369): parameter words, the extent of field efield; none where the extent breaks R19. -/
def prolHeader (p : Prol) (k : List Word) : Option (BitVec 2048) × Bool :=
  let h := (List.range 14).foldl (fun h i => hSetPar h i (k.getD i 0)) p.hdr
  let e := bf p.pkt.toNat 224 3
  let n := (k.getD 14 0).toNat
  if e = 7 then (some h, false)
  else if n = 0 then (some h, true)
  else if 2 ^ hWidth h e < n then (none, false)
  else (some (hSetExt h e (n - 1)), false)
/-- A launch of a prologue's run started (R369). -/
def prolLaunch (s : State) (q : Nat) (p : Prol) (k : List Word) : State × Prol :=
  match prolHeader p k with
  | (none, _) => (reject s p.comp 0x140 0, { p with hdr := (List.range 14).foldl (fun h i => hSetPar h i (k.getD i 0)) p.hdr })
  | (some h, idle) => (startLaunch s q p.comp (pktA p.pkt) h (some p.tv) (some p.prec) p.hdrs idle, { p with hdr := h })
/-- The prologue run of a queue has ended (R369, R370): its launch reaches the scheduler after those of lower lanes (R367). -/
def finishProl (s : State) (q : Nat) : State :=
  let f := getF s (fibKey (.prol q))
  match (getQ s q).prol with
  | none => s
  | some p =>
    if f.st ≠ .ended || (getW s (fibKey (.prol q) / 4)).pend ≠ [] || (prolLanes s).any (· < q) then s
    else if 65536 < p.words then lastRun (postComp s p.comp 0x153 0 0) q p.comp
    else if f.trap.cause ≠ 0 then lastRun (postComp s p.comp 0x152 0 f.trap.cause) q p.comp
    else match bf (f.k.getD 15 0).toNat 0 2 with
      | 1 => lastRun (modC s p.comp fun c => { c with cancelled := true, rejects := c.rejects + 1 }) q p.comp
      | 3 => lastRun (postComp s p.comp 0x152 0 0) q p.comp
      | a =>
        let t := prolLaunch s q p f.k
        if a = 2 ∧ p.r < bf p.pkt.toNat 240 16 then startProl (checkIn t.1) q { t.2 with r := p.r + 1 }
        else lastRun t.1 q p.comp
/-- LAUNCH_INDIRECT (R368, R369): the packet is accepted, or its prologue's run has ended. -/
def execLaunchIndirect (q : Nat) (s : State) : Host.Outcome State Fault Refusal :=
  .next (match (getQ s q).prol with
    | some _ => finishProl s q
    | none => takeIndirect s q)
/-- PROLOGUE_STEP_LIMIT (R370). -/
def execPrologueStepLimit (q : Nat) (s : State) : Host.Outcome State Fault Refusal :=
  .next (match (getQ s q).prol with
    | some p => if 65536 < p.words then finishProl s q else s
    | none => s)

/-! Rounds (R367). -/

/-- One round: the types present, in priority order, their lanes in increasing number. It ends with the last of its prologues; the
next begins only then (DEDUCED, log 104: R370 runs prologues in a round). -/
def runRound (s : State) : State :=
  if prolRuns s then s else
  let lanes := (s.queues.map (·.1)).filter fun q => match headPkt s q with
    | some (_, p) => notHeld s q p
    | none => false
  let ty := fun (q : Nat) => match headPkt s q with
    | some (_, p) => servedType s p
    | none => 6
  let kind := fun (t : Nat) => lanes.filter fun q => ty q == t
  let s1 := (kind 3).foldl takeSignal s
  let s2 := (kind 4).foldl takeWait s1
  let s3 := (kind 1).foldl takeLaunch s2
  let s4 := (kind 2).foldl takeIndirect s3
  let s5 := (kind 0).foldl takeNop s4
  (kind 5).foldl takeReserved s5

/-! `enq` (R371 to R373). -/

/-- Room in a device ring. -/
def ringRoom (x : Queue) : Bool := decide ((x.dtail - x.dhead).toNat < 2 ^ qDlsz x)
/-- Uncorrectable 4-byte units among the 64 bytes at a place. -/
def badParts (s : State) (l : Loc) : List Nat :=
  (List.range 16).filter fun j => match l with
    | .dev pa => badUnits s.memBad (pa + 4 * j) 4
    | .slice cl off => badUnits (getCl s cl).bad (off + 4 * j) 4
    | _ => false
/-- A packet written to device memory. DESIGN CHOICE (log 78): what was uncorrectable where it was read is so where it is
written. -/
def writePkt (s : State) (pa : Nat) (p : BitVec 512) (bad : List Nat) : State :=
  let t := forget (writeDev s pa p.toNat 64) .m pa 64
  { t with memBad := t.memBad ++ bad.map (pa / 4 + ·) }
/-- A packet placed in a device ring. DESIGN CHOICE (log 95): the writer table of 12 R227 names no fate for this write into a sealed
granule; it is made. -/
def placePkt (s : State) (q : Nat) (p : BitVec 512) (bad : List Nat) : State :=
  let x := getQ s q
  let t := writePkt s (x.dqbase.toNat + 64 * (x.dtail.toNat % 2 ^ qDlsz x)) p bad
  postNew (modQ t q fun y => { y with dtail := y.dtail + 1 }) [.round]
/-- Place j of a launch's overflow area. -/
def ovfAt (s : State) (l : Launch) (j : Nat) (wr : Bool) : Except Nat Loc :=
  locatePkt s l.ctx l.part wr (BitVec.ofNat 64 (hOvf l.hdr + 64 * j)) 64
/-- The lowest free place of a launch's overflow area (log 75); none where it has none, is full, or the place cannot be
written (12 R227: a sealed area refuses). -/
def ovfFree (s : State) (l : Launch) : Option (Nat × Loc) :=
  if hOvf l.hdr = 0 ∨ hOvfn l.hdr ≤ l.overflow.length then none
  else match (List.range (l.overflow.length + 1)).find? fun j => !l.overflow.any fun o => o.2 == j with
    | none => none
    | some j => match ovfAt s l j true with
      | .ok loc => some (j, loc)
      | .error _ => none
/-- Where an `enq` puts its packet: the state after and k15 (R372). -/
def enqPlace (s : State) (q : Nat) (p : BitVec 512) (bad : List Nat) : State × Nat :=
  let x := getQ s q
  if !x.qctl.getLsbD 0 || qPart x != curPart s || qDlsz x == 0 then (s, 3)
  else if ringRoom x then (placePkt s q p bad, 0)
  else match ovfFree s (curL s) with
  | some (j, loc) =>
    let s1 := match loc with
      | .dev pa => writePkt s pa p bad
      | _ => s
    let t := modL s1 s.w.launch fun l => { l with overflow := l.overflow ++ [(q, j)] }
    (post (outRaise t 1152 s.w.launch) [.ack 1152 s.w.launch], 1)
  | none => (postCause s s.w.launch 0x151 (siteOf (curKey s)) 0, 2)
/-- `enq` (R372): the packet is read and placed once every earlier access of the fibre has been performed. -/
def execEnq (p : Pfx) (x : KReg) (q : Fin 32) (s : State) : Host.Outcome State Fault Refusal :=
  .next (runWord (.enq p x q) (fun s => do
    let va ← readKK s x
    match locate s (whoCur s) .img va 64 with
    | .error c => .error (.fault c (act s) va)
    | .ok l =>
      roomFor s (.enq q.val l)
      let t := supersedeK s 15
      let e : Pend := { Pend.mk0 t (.enq q.val l) with ks := [(15, 0)], hb := kBanked s.f 15 }
      return freeArrivals (inFlightAdd t e)) s)
/-- The `enq` of the current agent before which no access is in flight takes effect. -/
def finishEnq (s : State) : State :=
  let isEnq := fun (k : PKind) => match k with
    | .enq .. => true
    | _ => false
  match s.w.pend.find? fun p => p.fib == fidOf s && isEnq p.kind with
  | none => s
  | some p =>
    if s.w.pend.any fun x => x.fib == p.fib && decide (x.seq < p.seq) then s
    else match p.kind with
      | .enq q l =>
        let n := noteReads s (unitOfEngine s) (locBytes l 64) []
        if routeDown s l || linkLost s (agentPort s.cur) hostPort then -- 25 R411
          endAccess (land (holdFail s ⟨0x1F6, p.word, 0, p.lanes, true, p.hs, none, p.slot⟩) p) p
        else
        let r := enqPlace n q (BitVec.ofNat 512 (readLoc s l 64).1) (badParts s l)
        if r.2 = 1 ∧ 65535 < tget 0 s.outst (outKey 1152 s.w.launch) then post s [.enqDone s.cur] else -- 20 R345
        let v := { p with ks := p.ks.map fun k => (k.1, BitVec.ofNat 32 r.2) }
        endAccess (land r.1 v) v
      | _ => s
/-- OVERFLOW_DRAIN (R373): the oldest packet for a queue, of the launch accepted first. -/
def drainOvf (s : State) (q : Nat) : State :=
  if !ringRoom (getQ s q) || qDlsz (getQ s q) == 0 then s
  else match s.launches.find? fun p => p.2.live && p.2.overflow.any fun o => o.1 == q with
    | none => s
    | some (id, l) =>
      match l.overflow.find? fun o => o.1 == q with
      | none => s
      | some o =>
        let p := match ovfAt s l o.2 false with
          | .ok loc => ((readLoc s loc 64).1, badParts s loc)
          | .error _ => (0, [])
        let t := modL (placePkt s q (BitVec.ofNat 512 p.1) p.2) id fun x => { x with overflow := x.overflow.erase o }
        postNew t [.drainOvf q, .complete l.comp]
/-- OVERFLOW_DRAIN. -/
def execOverflowDrain (q : Nat) (s : State) : Host.Outcome State Fault Refusal := .next (drainOvf s q)

/-! Time-triggered launches (19 R340 to R342). -/

/-- valid. -/
def ttValid (e : TtEntry) : Bool := e.w0.getLsbD 0
/-- The last slot at or before the time. -/
def ttSlotNow (s : State) (e : TtEntry) : Option Nat :=
  if s.timens.toNat < e.phase.toNat || e.period = 0 then none
  else some ((s.timens.toNat - e.phase.toNat) / e.period.toNat)
/-- The entry's previous instance has not completed. -/
def ttRunning (s : State) (i : Nat) : Bool :=
  (s.queues.any fun p => p.2.ahead.any fun a => a.1 == i) || s.comps.any fun p => p.2.live && p.2.tt == some i
/-- The first slot of an entry that can be taken: after the last one taken (R342), and after those that had passed when it became
valid or the time last moved back (log 103). -/
def ttFirst (e : TtEntry) : Nat :=
  let one := fun (x : Option Nat) => match x with
    | some k => k + 1
    | none => 0
  Nat.max (one e.last) (one e.base)
/-- A slot of the entry has passed since then. -/
def ttDue (s : State) (e : TtEntry) : Option Nat :=
  if !ttValid e then none
  else match ttSlotNow s e with
    | some k => if ttFirst e ≤ k then some k else none
    | none => none
/-- TIME_TRIGGERED_SLOT (R342): the last slot passed; earlier ones count as skipped. -/
def ttSlot (s : State) (i : Nat) : State :=
  let e := getTt s i
  match ttDue s e with
  | none => s
  | some k =>
    let skips := ttSkips e + (k - ttFirst e)
    let t := fun (g : TtEntry → TtEntry) => modTt s i fun e => g { e with last := some k }
    if !ttRunning s i then ttPlace (t fun e => ttSet e (ttPend e) skips) i
    else if e.w0.getLsbD 1 && !ttPend e then t fun e => ttSet e true skips
    else t fun e => ttSet e (ttPend e) (skips + 1)
/-- TIME_TRIGGERED_SLOT. -/
def execTimeTriggeredSlot (i : Nat) (s : State) : Host.Outcome State Fault Refusal := .next (ttSlot s i)
/-- A write of valid = 1 is ignored (R341). -/
def ttRefused (s : State) (e : TtEntry) (v : Word64) : Bool :=
  !feature s 18 || bf v.toNat 8 24 != 0 || decide (e.period.toNat < 1000) || decide (2 ^ 40 - 1 < e.period.toNat) ||
  e.pkt.toNat % 64 != 0
/-- TIME_TRIGGERED_ENTRY_WRITE (R340, R341): word w of entry i. -/
def ttWrite (s : State) (i w : Nat) (v : Word64) : State :=
  let e := getTt s i
  match w with
  | 0 =>
    if v.getLsbD 0 then
      if ttRefused s e v then s
      else if ttValid e then modTt s i fun e => { e with w0 := (e.w0 &&& ~~~0x7F#64) ||| (v &&& 0x7F#64) }
      else modTt s i fun e => { e with w0 := v &&& 0x7F#64, last := none, base := ttSlotNow s e }
    else modTt s i fun e => { e with w0 := (e.w0 &&& 0xFFFFFFFF00000000#64) ||| (v &&& 0x7E#64) }
  | 1 => if ttValid e then s else modTt s i fun e => { e with phase := v }
  | 2 => if ttValid e then s else modTt s i fun e => { e with period := v }
  | 3 => if ttValid e then s else modTt s i fun e => { e with pkt := v &&& 0x3FFFFFFFFFFFFF#64 }
  | _ => s
/-- TIME_TRIGGERED_ENTRY_WRITE. -/
def execTimeTriggeredEntryWrite (i w : Nat) (v : Word64) (s : State) : Host.Outcome State Fault Refusal :=
  .next (hostWrite s fun s => ttWrite s i w v)

/-! Cancellation (R375). -/

/-- The acknowledgements still owed to a launch's accesses, drains and messages that a cancellation drops: each comes back. -/
def owedAcks (s : State) (launch : Nat) : List Ev :=
  (s.warps.flatMap fun p =>
    if p.2.live && p.2.launch == launch then
      (p.2.pend.filter (·.wr)).map fun x => .ack (unitOf (agentOf (4 * p.1 + (if 4 * p.1 < 49152 then x.fib else 0)))) launch
    else []) ++
  (s.clusters.flatMap fun c => (c.2.xbuf.filter fun x => x.launch == launch).map fun x =>
    match warpKeyOf s (getWg s (wgKey launch x.src)) x.idx with
    | some k => .ack (coreOf (4 * k)) launch
    | none => .ack 0 launch) ++
  s.clusters.flatMap fun c => match c.2.frondWg with
    | some g => if g / 2 ^ 64 = launch then (c.2.ops.filter fun o => !isArray o).map fun _ => .ack (768 + c.1) launch else []
    | none => []
/-- A launch's warps, workgroups and everything they wait for removed. DESIGN CHOICE (log 73): 22 R375 says only that a
cancelled launch completes; here its resident warps and workgroups go at once with what they hold in every unit, accesses
not yet performed are dropped, and its outstanding counters fall as the acknowledgements come back, before it completes
(01 R16, 20 R348). -/
def killLaunch (s0 : State) (launch : Nat) : State :=
  let s := checkIn s0
  let ks := s.warps.filterMap fun p => if p.2.live && p.2.launch == launch then some p.1 else none
  let mine := fun (key : Nat) => ks.contains (key / 4)
  let wg := fun (key : Nat) => key / 2 ^ 64 == launch
  let ctx := (getL s launch).ctx
  let held := ks.flatMap fun k => (slotFibres k).filter fun i => !(heldAxes s ctx i).isEmpty
  let s0 := held.foldl (fun t i => onAgent t (agentOf i) fun u => resetAxes u i) s
  let pubs := s0.warps.flatMap fun x => x.2.pend.filterMap fun p => match p.kind with
    | .publish .. => some (Ev.published (agentOf (4 * x.1 + p.fib)))
    | _ => none
  let s1 := post s0 (owedAcks s0 launch ++ pubs)
  { s1 with
    fibs := s1.fibs.filter fun p => !mine p.1
    warps := s1.warps.filter fun p => !ks.contains p.1
    wgs := s1.wgs.filter fun p => !wg p.1
    redns := s1.redns.filter fun r => r.launch != launch
    cores := s1.cores.map fun p => (p.1, { p.2 with evicted := p.2.evicted.filter fun e => !ks.contains e.slot })
    clusters := s1.clusters.map fun p =>
      (p.1, { p.2 with
        passes := p.2.passes.filter fun x => !mine x.fib
        portq := p.2.portq.filter fun x => !mine x.2.1
        xbuf := p.2.xbuf.filter fun x => x.launch != launch
        frondQ := p.2.frondQ.filter fun x => !wg x.1
        frondWg := match p.2.frondWg with
          | some g => if wg g then none else some g
          | none => none
        cmds := p.2.cmds.filter fun x => !wg x.wg
        saves := p.2.saves.filter fun x => if x.slot then !ks.contains x.key else !wg x.key
        tbq := p.2.tbq.filter fun x => !wg x.wg
        ops := match p.2.frondWg with
          | some g => if wg g then [] else p.2.ops
          | none => p.2.ops
        load := match p.2.frondWg with
          | some g => if wg g then none else p.2.load
          | none => p.2.load })
    launches := tset Launch.none s1.launches launch
      { getL s1 launch with cancelled := true, empty := true, overflow := [] } }
/-- LAUNCH_CANCELLATION (R375): the driver cancels through the Lichen cluster; the launch completes. -/
def cancelComp (s : State) (comp : Nat) : State :=
  let c := getC s comp
  if !c.live then s
  else
    let t0 := c.launches.foldl killLaunch s
    let t := (t0.clusters.map (·.1)).foldl (fun u k => admitStarts u k (waitingStarts u k)) t0
    let q := match (getQ t c.queue).prol with
      | some p => if p.comp = comp then endProl t c.queue else t
      | none => t
    let part := (getCtx s c.ctx).part
    let u := settleDrain (modC q comp fun x => { x with more := false }) part
    postNew u ([.complete comp, .saved part, .round] ++ (prolLanes u).map Ev.indirect ++
      roomEvs u ((u.clusters.map (·.1)).flatMap fun c => [4 * c, 4 * c + 1, 4 * c + 2, 4 * c + 3]) ++
      (u.clusters.map (·.1)).flatMap fun c => [.frondStart c, .copyStart c, .goAccept c, .cpart c])
/-- LAUNCH_CANCELLATION. -/
def execLaunchCancellation (comp : Nat) (s : State) : Host.Outcome State Fault Refusal := .next (cancelComp s comp)

end Sys2Proof.Machine
end

