-- ==== Sys2Proof/Machine/Sync.lean ====
section
/-! DEFINITION. Barrier words and fences (13 R242 to R246), sealing and cache maintenance (13 R247, 12 R227, R228), network
reductions, device barriers and signals (13 R248 to R252). -/

namespace Sys2Proof.Machine

/-! Barrier words (R242, R243). -/

/-- An arrival of count c (R243). -/
def arriveWord (b : Word64) (c : Nat) : Word64 :=
  let exp := bf b.toNat 0 16
  let t := bf b.toNat 16 16 + c
  if c = 0 then b
  else
    let n := if exp = 0 then 0 else t / exp
    let left := if exp = 0 then t else t % exp
    BitVec.ofNat 64 (exp + Nat.min left 65535 * 2 ^ 16 + (bf b.toNat 32 32 + n) % 2 ^ 32 * 2 ^ 32)
/-- exp set. -/
def setExp (b : Word64) (e : Nat) : Word64 := if e = 0 then b else (b &&& ~~~0xFFFF#64) ||| BitVec.ofNat 64 (e % 65536)
/-- The phase of a barrier word. -/
def barPhase (b : Word64) : Word := hi32 b
/-- Barrier i of the current workgroup. -/
def curBar (s : State) (i : Nat) : Word64 := barWord s (curWg s) i
/-- A barrier index of the launch (R244). -/
def needBar (s : State) (i : Nat) : R Unit := need s (decide (i < hNbar (curL s).hdr)) 0x14C
/-- A barrier word that is read holds no uncorrectable unit (14 R263). -/
def cleanBar (s : State) (i : Nat) : R Unit := need s (!barBad s (curWg s) i) 0x1F1

/-- An access with an outstanding counter but no place in a queue: an arrival or a signal. -/
def sendArrive (s : State) (k : PKind) : R State := do
  roomFor s k
  ready (unitHasRoom s)
  let p : Pend := { Pend.mk0 s k with wr := true }
  let t := match k with
    | .arrive i _ => noteRel s (barKey (curWg s) i) .cl
    | .rsig g i _ => noteRel s (sigKey (wgKey s.w.launch g) i) .dv
    | _ => s
  return freeArrivals (outRaise (inFlightAdd t p) (unitOf s.cur) s.w.launch)
/-- `bar.arr` (R244). -/
def execBarArr (p : Pfx) (x : KReg) (i : Fin 64) (s : State) : Host.Outcome State Fault Refusal :=
  .next (runWord (.barArr p x i) (fun s => do
    needBar s i.val
    let k ← readK s x
    sendArrive s (.arrive i.val (bf k.toNat 0 16))) s)
/-- `bar.wt` (R244, R245). -/
def execBarWt (p : Pfx) (x : KReg) (i : Fin 64) (s : State) : Host.Outcome State Fault Refusal :=
  .next (runWord (.barWt p x i) (fun s => do
    needBar s i.val
    let k ← readK s x
    cleanBar s i.val
    return if barPhase (curBar s i.val) ≠ k then noteBar s i.val else setWait s (.barrier i.val k)) s)
/-- `bar.tst` (R244). -/
def execBarTst (p : Pfx) (x : KReg) (i : Fin 64) (s : State) : Host.Outcome State Fault Refusal :=
  .next (runWord (.barTst p x i) (fun s => do
    needBar s i.val
    cleanBar s i.val
    return writeK s x.val (barPhase (curBar s i.val))) s)
/-- Accesses of the current fibre that are not performed hold its later ones: 1 stores and atomics, 2 every access. -/
def holdLater (s : State) (bar : Nat) : State :=
  let one := fun (p : Pend) => if p.fib == fidOf s && arrivalsOf { s.w with pend := [p] } (fidOf s) then
    { p with bar := Nat.max p.bar bar } else p
  { s with w := { s.w with pend := s.w.pend.map one } }
/-- `fence` (R246): the fibre goes on; `fence.strong` and `fence.rel` hold its later accesses until those of its accesses that take
effect later are performed, and are not ready while a commit or release of a slot of it waits (23 R385). -/
def execFence (p : Pfx) (o : MOrd) (c : Scope) (s : State) : Host.Outcome State Fault Refusal :=
  .next (runWord (.fence p o c) (fun s => do
    ready (!((o == .strong || o == .rel) && tbWaits s (curKey s)))
    let t := noteFence s o c
    return match o with
    | .strong => holdLater t 2
    | .rel => holdLater t 1
    | .weak | .acq => t) s)

/-- The sender of an arrival: its access ends (R229). -/
def arrivalDone (s : State) (a : Agent) (k : PKind → Bool) : State :=
  onAgent s a fun s =>
    match s.w.pend.find? fun p => p.fib == fidOf s && k p.kind with
    | some p => endAccess s p
    | none => s
/-- The access that an arrival completes. -/
def isArrival (own : Bool) (g i c : Nat) (k : PKind) : Bool :=
  match k with
  | .arrive j _ => own && j == i && c == 1
  | .rsig h j n => h == g && j == i && n == c
  | _ => false
/-- The count set by the sender's word (R244): of the first access that the arrival can be; a signal sets none (R251). -/
def arrivalExp (s : State) (a : Agent) (own : Bool) (g i c : Nat) : Nat :=
  let w := getW s (fibKey a / 4)
  match w.pend.find? fun p => (p.fib == fibKey a % 4 || decide (49152 ≤ fibKey a)) && isArrival own g i c p.kind with
  | some p => match p.kind with
    | .arrive _ e => e
    | _ => 0
  | none => 0
/-- An arrival applied to a barrier word (R243). -/
def applyArrival (s : State) (launch g i c e : Nat) : State :=
  let key := wgKey launch g
  setBarWord s key i (arriveWord (setExp (barWord s key i) e) c)
/-- The signal word of an `rsig`. -/
def sigWord (g i : Nat) : Word64 := BitVec.ofNat 64 (g % 2 ^ 32 + i % 64 * 2 ^ 32)
/-- An arrival not performed: a cause at the sender's next group boundary, vs lowered. -/
def refuseArrival (s : State) (a : Agent) (k : PKind → Bool) (cause : Nat) (addr : Word64) : State :=
  onAgent s a fun s =>
    match s.w.pend.find? fun p => p.fib == fidOf s && k p.kind with
    | some p => holdFail (endAccess s p) ⟨cause, p.word, addr, act s, true, p.hs, none, p.slot⟩
    | none => s
/-- A signal refused (R251). -/
def refuseSig (s : State) (a : Agent) (g i c : Nat) : State :=
  refuseArrival s a (isArrival false g i c) 0x1C5 (sigWord g i)
/-- The path 0x2 address of a barrier word. -/
def barAddr (s : State) (key i : Nat) : Word64 :=
  BitVec.ofNat 64 (2 ^ 51 + (getWg s key).cluster * 2 ^ 20 + barOff s (getWg s key) i)
/-- BARRIER_ARRIVAL (R243, R251): to a resident workgroup at once, to a Saved one through the arrival queue of 256 (22
R378), else refused; a signal fails over a link declared down (25 R411). -/
def arriveAt (s : State) (launch g i c : Nat) (a : Agent) : State :=
  let w := getWg s (wgKey launch g)
  let own := decide (fibKey a < 49152) && (getW s (fibKey a / 4)).g == g && (getW s (fibKey a / 4)).launch == launch
  if !w.live then refuseSig s a g i c
  else if linkLost s (agentPort a) (clusterPort w.cluster) then refuseArrival s a (isArrival own g i c) 0x1F6 0
  else if w.saved then
    let p := (getL s launch).part
    if !arrivalRoom s launch then post s [.arrival launch g i c a]
    else post (modPart s p fun x => { x with arrivals := x.arrivals ++ [.arrival launch g i c a] }) [.savedArrival p]
  else if barBad s (wgKey launch g) i then
    refuseArrival s a (isArrival own g i c) 0x1F2 (badWordAt (getCl s w.cluster).bad (barOff s w i) (barAddr s (wgKey launch g) i))
  else
    let e := arrivalExp s a own g i c
    arrivalDone (applyArrival s launch g i c e) a (isArrival own g i c)
/-- BARRIER_ARRIVAL. -/
def execBarrierArrival (launch g : Nat) (i : Nat) (c : Nat) (a : Agent) (s : State) :
    Host.Outcome State Fault Refusal := .next (arriveAt s launch g i c a)

/-! Sealing and cache maintenance (R247). -/

/-- The place of a unit's part; alignment stands between window and translation (12 R220). -/
def unitPlace (s : State) (va : Word64) (unit : Nat) : Except Nat Loc :=
  let r := locate s (whoCur s) .cache va 1
  if va.toNat % unit = 0 then r
  else match r with
    | .error c => if c = 0x040 ∨ c = 0x043 ∨ c = 0x044 then .error c else .error 0x041
    | .ok _ => .error 0x041
/-- Physical addresses of `n` parts `step` bytes apart, or the first failing one's cause and address. -/
def partsFrom (s : State) (unit step : Nat) : Nat → Word64 → List Nat → Except (Nat × Word64) (List Nat)
  | 0, _, acc => .ok acc
  | n + 1, va, acc =>
    match (if va.toNat % step = 0 then unitPlace s va step else unitPlace s va unit) with
    | .error c => .error (c, va)
    | .ok (.dev pa) => partsFrom s unit step n (va + BitVec.ofNat 64 step) (pa :: acc)
    | .ok _ => partsFrom s unit step n (va + BitVec.ofNat 64 step) acc
/-- A word of major 0x36: a counted access over a region of units, each reached by parts; `rel`: it is a release. -/
def regionWord (x w : KReg) (unit step : Nat) (legal : Nat → Bool) (rel : Bool) (k : List Nat → PKind) (s : State) :
    R State := do
  let va ← readKK s x
  let n ← readK s w
  if n = 0 then return s
  releaseReady s rel
  roomFor s (k [])
  if !legal (bf va.toNat 50 4) then
    match locate s (whoCur s) .cache va 1 with
    | .error 0x040 => .error (.fault 0x040 (act s) va)
    | _ => .error (.fault 0x043 (act s) va)
  if va.toNat % unit ≠ 0 then
    match unitPlace s va unit with
    | .error c => .error (.fault c (act s) va)
    | .ok _ => .error (.fault 0x041 (act s) va)
  match partsFrom s unit step (n.toNat * (unit / step)) va [] with
  | .error (c, at1) => .error (.fault c (act s) at1)
  | .ok pas =>
    let p := Pend.mk0 s (k pas)
    return post (inFlightAdd s p) [doneEv s.cur p.kind]
/-- `seal` (R247, 12 R227): 4 KiB granules, each of 16 units of handle 0. -/
def execSeal (p : Pfx) (x w : KReg) (s : State) : Host.Outcome State Fault Refusal :=
  .next (runWord (.seal p x w)
    (regionWord x w 4096 256 (· == 0) false fun l => .seal (distinct (l.map (· / 4096)))) s)
/-- The granules of an `unseal` that a word has just sent. -/
def newGranules (s t : State) : List Nat :=
  match (t.w.pend.drop s.w.pend.length).getLast? with
  | some p => match p.kind with
    | .unseal g => g
    | _ => []
  | none => []
/-- `unseal` (R247, 12 R228): a release at device scope. -/
def execUnseal (p : Pfx) (x w : KReg) (s : State) : Host.Outcome State Fault Refusal :=
  .next (runWord (.unseal p x w)
    (fun s => do
      let t ← regionWord x w 4096 256 (· == 0) true (fun l => .unseal (distinct (l.map (· / 4096)))) s
      return (newGranules s t).foldl (fun t g => noteRel t (syncKey 9 g) .dv) t) s)
/-- The parts of a line: a line of path 0x8 holds eight packets. -/
def lineStep (va : Word64) : Nat := if bf va.toNat 50 4 = 8 then 16 else 128
/-- `cwb` (R247): no value changes. -/
def execCwb (p : Pfx) (x w : KReg) (s : State) : Host.Outcome State Fault Refusal :=
  .next (runWord (.cwb p x w) (fun s => do
    let va ← readKK s x
    regionWord x w 128 (lineStep va) (fun k => k == 0 || k == 8) false (fun _ => .cacheOp []) s) s)
/-- `cinv` (R247): the fibre's fetches see the region's stores from its completion (04 R63). -/
def execCinv (p : Pfx) (x w : KReg) (s : State) : Host.Outcome State Fault Refusal :=
  .next (runWord (.cinv p x w) (fun s => do
    let va ← readKK s x
    let step := lineStep va
    regionWord x w 128 step (fun k => k == 0 || k == 8) false (fun l => .cacheOp (distinct (l.flatMap fun a =>
      if step = 16 then [a / 128, (a + 11) / 128] else [a / 128]))) s) s)

/-- The first access of the current agent of a kind ends with an effect. -/
def finish (s : State) (k : PKind → Bool) (eff : State → Pend → State) : State :=
  match s.w.pend.find? fun p => p.fib == fidOf s && k p.kind && !heldByWait s (curKey s) p.seq with
  | none => s
  | some p => endAccess (eff s p) p
/-- Granules sealed or unsealed: what translation looks up, and the maps in device memory (12 R218). -/
def markSeal (s : State) (gr : List Nat) (b : Bool) : State :=
  { s with sealMap := gr.foldl (fun m g => tset false m g b) s.sealMap, mem := sealBits s gr b }
/-- A store to granules that has passed translation is in flight (12 R227); a line of a copy command is translated anew where it is
performed again. -/
def sealWaits (s : State) (gr : List Nat) : Bool :=
  s.hist.any fun u => u.wr && u.cls == .m && !isCmdKey u.ag && unitInFlight s u &&
    gr.any fun g => decide (u.addr < 4096 * (g + 1)) && decide (4096 * g < u.addr + u.size)
/-- Granules sealed: the completion acquires what unsealed them, and no write or sealed read passes it (15 R272, 12 R228). -/
def endSeal (s : State) (gr : List Nat) : State :=
  gr.foldl (fun t g => noteUnit (noteAcq t (syncKey 9 g) .dv) (sealMark t g)) (markSeal s gr true)
/-- The granules of the current fibre's first `seal` in flight. -/
def sealing (s : State) : List Nat :=
  (s.w.pend.findSome? fun p => match p.kind with
    | .seal g => if p.fib = fidOf s then some g else none
    | _ => none).getD []
/-- A seal reaches its granules, or fails over a link declared down (25 R411). -/
def sealOrFail (s : State) (p : Pend) (gr : List Nat) : State :=
  if gr.any fun g => routeDown s (.dev (4096 * g)) then holdFail s ⟨0x1F6, p.word, 0, p.lanes, true, p.hs, none, p.slot⟩ else endSeal s gr
/-- SEAL_COMPLETE (12 R227): once every write that has passed translation is performed. -/
def execSealComplete (a : Agent) (s : State) : Host.Outcome State Fault Refusal :=
  .next (onAgent s a fun s =>
    if sealWaits s (sealing s) then post s [.sealDone s.cur]
    else finish s (fun k => match k with
      | .seal _ => true
      | _ => false) fun s p => match p.kind with
      | .seal g => sealOrFail s p g
      | _ => s)
/-- UNSEAL_COMPLETE (12 R228). -/
def execUnsealComplete (a : Agent) (s : State) : Host.Outcome State Fault Refusal :=
  .next (onAgent s a fun s => finish s (fun k => match k with
      | .unseal _ => true
      | _ => false) fun s p => match p.kind with
      | .unseal g => holdCast (markSeal s g false) p
      | _ => s)
/-- A `cinv` over lines completes (04 R63, 13 R247): the fetch buffers of the partition's clusters let go of them, and the
current fibre's fetches see what was stored. -/
def dropFetch (s : State) (lines : List Nat) : State :=
  let hit := fun (v : Nat) => lines.contains ((v - 1) / 128) || lines.contains ((v + 10) / 128)
  let p := (getCl s (curCl s)).part
  noteInv { s with clusters := s.clusters.map fun x =>
    (x.1, if (if x.1 < 192 then x.2.part else bf (getQ s (x.1 - 192)).qctl.toNat 1 4) = p then { x.2 with fbuf := x.2.fbuf.filter fun y => !hit y.2 } else x.2) } lines
/-- CACHE_MAINTENANCE_COMPLETE (R247). -/
def execCacheMaintenanceComplete (a : Agent) (s : State) : Host.Outcome State Fault Refusal :=
  .next (onAgent s a fun s => finish s (fun k => match k with
      | .cacheOp _ => true
      | _ => false) fun s p => match p.kind with
      | .cacheOp l => if l.isEmpty then s else holdCast (dropFetch s l) p
      | _ => s)

/-! Network reductions and device barriers (R248 to R250). -/

/-- The next number of a cluster's sequence for a launch. -/
def seqNext (s : State) (bar : Bool) : Nat × State :=
  let c := getCl s (curCl s)
  let l := s.w.launch
  if bar then (tget 0 c.seqB l, setCl s (curCl s) { c with seqB := tset 0 c.seqB l (tget 0 c.seqB l + 1) })
  else (tget 0 c.seqR l, setCl s (curCl s) { c with seqR := tset 0 c.seqR l (tget 0 c.seqR l + 1) })
/-- A contribution of the current fibre (R248): it joins reduction j, or completes at once with a cause where P or op
differ; over a link declared down it fails (25 R411). -/
def contribute (s : State) (bar : Bool) (n : Nat) (o : RedOp) (v : Word) (wait : Nat → Cond2) (cause : Nat) : State :=
  let q := seqNext (perfCl s (curCl s) 0x3F 1) bar
  let j := q.1
  let t := noteRel q.2 (rednKey s.w.launch j bar) .dv
  let con := (curKey s, curCl s, v)
  let mine := fun (r : Redn) => r.launch == s.w.launch && r.j == j && r.bar == bar
  if linkLost s (agentPort s.cur) (foldPort s s.w.launch) then
    holdFail q.2 ⟨0x1F6, curWord s, 0, act s, true, inHandler s.f, none, curSlot s⟩
  else match t.redns.find? mine with
  | none =>
    setWait { t with redns := t.redns ++ [⟨s.w.launch, j, bar, n, o, [con]⟩] } (wait j)
  | some r =>
    if r.p ≠ n || (!bar && r.op ≠ o) then holdFail t ⟨cause, curWord s, 0, act s, true, inHandler s.f, none, curSlot s⟩
    else
      let u := { t with redns := t.redns.map fun x => if mine x then { x with con := x.con ++ [con] } else x }
      setWait (if r.con.length + 1 = n then post u [.reduction s.w.launch j bar] else u) (wait j)
/-- `nred` (R248). -/
def execNred (p : Pfx) (x w : KReg) (o : RedOp) (s : State) : Host.Outcome State Fault Refusal :=
  .next (runWord (.nred p x w o) (fun s => do
    let n ← readK s w
    let v ← readK s x
    if n = 0 then return writeK s x.val o.identity
    else if n = 1 then return s
    else do
      releaseReady s true
      return contribute s false n.toNat o v (fun j => .nred j x.val) 0x1C4) s)
/-- `nbar` (R250). -/
def execNbar (p : Pfx) (w : KReg) (s : State) : Host.Outcome State Fault Refusal :=
  .next (runWord (.nbar p w) (fun s => do
    let n ← readK s w
    if n = 0 ∨ n = 1 then return s
    else do
      releaseReady s true
      return contribute s true n.toNat .addS32 0 (fun j => .nbar j) 0x1C4) s)
/-- The fold over logical cluster positions 0 to 255 (R249). -/
def foldClusters (o : RedOp) (con : List (Nat × Nat × Word)) : Word :=
  ((treeFold o .rn false 8 ((List.range 256).map fun c =>
    (((con.find? fun x => x.2.1 == c).map (·.2.2)), 0#8))).1).getD 0
/-- The wait of a contributor to reduction j. -/
def isRednWait (j : Nat) (bar : Bool) (c : Cond2) : Bool :=
  match c with
  | .nred i _ => !bar && i == j
  | .nbar i => bar && i == j
  | _ => false
/-- A contributor receives the result. -/
def giveResult (s : State) (j : Nat) (bar : Bool) (v : Word) : State :=
  let x := (waitsOf s.f).findSome? fun c => match c with
    | .nred i x => if i = j ∧ bar = false then some x else none
    | _ => none
  let t := match x with
    | some x => writeK s x v
    | none => s
  noteAcq { t with f := endWait t.f (isRednWait j bar) } (rednKey s.w.launch j bar) .dv
/-- A result on its way to a contributor (R252): to a Saved workgroup through the arrival queue of its partition (22 R378). -/
def sendResult (s : State) (a : Agent) (launch j : Nat) (bar : Bool) (v : Word) : State :=
  let w := getW s (fibKey a / 4)
  if (getWg s (wgKey w.launch w.g)).saved then
    let p := (getL s launch).part
    if !arrivalRoom s launch then post s [.result a launch j bar v]
    else post (modPart s p fun x => { x with arrivals := x.arrivals ++ [.result a launch j bar v] }) [.savedArrival p]
  else onAgent s a fun s => giveResult s j bar v
/-- The result's branch to a contributor uses a link declared down (25 R407, R411). -/
def resultLost (s : State) (r : Redn) (c : Nat × Nat × Word) : Bool :=
  linkLost s (foldPort s r.launch) (clusterPort c.2.1)
/-- A contributor whose result's branch is lost takes 0x1C7 in its wait (25 R407, log 47). -/
def lostResult (s : State) : State :=
  let w := wordWhere s s.f.gpos fun v => fld v 24 6 == 0x37
  holdFail s ⟨0x1C7, w.2, 0, 0, false, inHandler s.f, some s.f.gpos, w.1⟩
/-- REDUCTION_RESULT (R248, R249, R250): once P clusters have contributed. -/
def finishRedn (s : State) (launch j : Nat) (bar : Bool) : State :=
  let mine := fun (r : Redn) => r.launch == launch && r.j == j && r.bar == bar
  match s.redns.find? mine with
  | none => s
  | some r =>
    if r.con.length < r.p then s
    else
      let v := foldClusters r.op r.con
      let lost := r.con.filter (resultLost s r)
      lost.foldl (fun t c => onAgent t (agentOf c.1) lostResult) ((r.con.filter fun c => !resultLost s r c).foldl
        (fun t c => sendResult t (agentOf c.1) launch j bar v) { s with redns := s.redns.filter fun x => !mine x })
/-- REDUCTION_RESULT. -/
def execReductionResult (launch j : Nat) (bar : Bool) (s : State) : Host.Outcome State Fault Refusal :=
  .next (finishRedn s launch j bar)
/-- REDUCTION_TIMEOUT (R248, R250, R252): every contributor traps, unless one is Saved. -/
def timeoutRedn (s : State) (launch j : Nat) (bar : Bool) : State :=
  let mine := fun (r : Redn) => r.launch == launch && r.j == j && r.bar == bar
  match s.redns.find? mine with
  | none => s
  | some r =>
    if r.p ≤ r.con.length || r.con.any (fun c => (getF s c.1).saved) then s
    else
      r.con.foldl (fun t c => onAgent t (agentOf c.1) fun t =>
          if (waitsOf t.f).any (isRednWait j bar) then trapWaiting t 0x37 (if bar then 0x1C3 else 0x1C4) true 0 false else t)
        { s with redns := s.redns.filter fun x => !mine x }
/-- REDUCTION_TIMEOUT. -/
def execReductionTimeout (launch j : Nat) (bar : Bool) (s : State) : Host.Outcome State Fault Refusal :=
  .next (timeoutRedn s launch j bar)

/-! Signals (R251). -/

/-- `rsig` (R251). -/
def execRsig (p : Pfx) (x w : KReg) (s : State) : Host.Outcome State Fault Refusal :=
  .next (runWord (.rsig p x w) (fun s => do
    let v ← readKK s x
    let k ← readK s w
    need s (decide (v.toNat / 2 ^ 38 = 0 ∧ bf v.toNat 32 6 < hNbar (curL s).hdr)) 0x14C
    let c := bf k.toNat 0 16
    if c = 0 then return s
    else sendArrive s (.rsig (bf v.toNat 0 32) (bf v.toNat 32 6) c)) s)
/-- RSIG_REFUSAL (R251): the refusal of a signal word, taken at the group boundary. -/
def refusalOf (s : State) (sig : Word64) : State :=
  let g := bf sig.toNat 0 32
  let i := bf sig.toNat 32 6
  let t := match s.w.pend.findSome? fun p => match p.kind with
      | .rsig h j c => if h = g ∧ j = i ∧ p.fib = fidOf s then some c else none
      | _ => none with
    | some c => refuseSig s s.cur g i c
    | none => s
  deliverCause t fun h => h.cause == 0x1C5 && h.addr == sig
/-- RSIG_REFUSAL. -/
def execRsigRefusal (a : Agent) (sig : Word64) (s : State) : Host.Outcome State Fault Refusal :=
  .next (onAgent s a fun s => refusalOf s sig)

end Sys2Proof.Machine
end

