-- ==== Sys2Proof/Machine/Preempt.lean ====
section
/-! DEFINITION. Pre-emption of a partition (22 R376 to R378, 02 R39, 10 R183, 11 R217, 16 R294). Saved records stay where
they are, marked Saved (log 8). -/

namespace Sys2Proof.Machine

/-- A command that the state of PRECTL does not admit (R376). -/
def refusePre (s : State) (p : Nat) : State := modPart s p fun x => { x with refused := true }
/-- The partition of a warp's launch. -/
def warpPart (s : State) (w : Warp) : Nat := (getL s w.launch).part
/-- Keys of the warps of a partition, frond streams' among them; nobody's records are taken out. -/
def partWarps (s : State) (p : Nat) : List Nat :=
  s.warps.filterMap fun x => if x.2.live && decide (x.1 < 12480) && warpPart s x.2 == p then some x.1 else none
/-- PRECTL drain (R377). -/
def drainPart (s : State) (p : Nat) : State :=
  if (getPart s p).pre ≠ 0 then refusePre s p else settleDrain (modPart s p fun x => { x with pre := 1 }) p
/-- DRAIN. -/
def execDrain (part : Nat) (s : State) : Host.Outcome State Fault Refusal := .next (hostWrite s fun s => drainPart s part)

/-- Requests of a partition's fibres that wait for tokens are admitted at once (21 R355). -/
def admitAll (s : State) (cl : Nat) (ks : List Nat) : State :=
  let mine := fun (x : Nat × Nat × Nat) => ks.contains (x.2.1 / 4)
  let c := getCl s cl
  let now := c.portq.filter mine
  let t := modCl s cl fun c => { c with portq := c.portq.filter fun x => !mine x }
  now.foldl (fun t x => queueDone (perfCl t cl 0x3B x.1) x.2.1 x.2.2) t
/-- An access of a fibre that the save need not wait for: a start store that waits for room (11 R194), the result of an
exchange or regroup that has not come (09 R166, R170). -/
def mayStay (k : PKind) : Bool :=
  match k with
  | .fstart .. | .result => true
  | _ => false
/-- Bytes of a workgroup's save area (22 Table 22.8). -/
def wgBytes (s : State) (w : Wg) : Nat :=
  w.warps.foldl (fun n k => n + slotBytes (getW s k)) (64 + w.len + Config.saveEngines)
/-- The bytes of a slice's run. -/
def sliceList (s : State) (cl off n : Nat) : List Byte := (List.range n).map fun i => rdByte s.slices (cl * 2 ^ 20 + off + i)
/-- The bytes of a workgroup's save in the order of 22 Table 22.8: its header and its fibres' records, its rows, its barrier area, the
rest of its run, its engines. -/
def wgSave (s : State) (w : Wg) : List Byte :=
  let h := (getL s w.launch).hdr
  let bar := hScr h + barBytes h
  let recs := 64 + w.warps.foldl (fun n k => n + (getW s k).nfib * Config.saveFibre) 0
  openBytes s w.cluster 0 recs ++ w.warps.flatMap (fun k => (getW s k).rows.flatMap wordBytes) ++
  sliceList s w.cluster (w.off + hScr h) (barBytes h) ++ sliceList s w.cluster w.off (hScr h) ++
  sliceList s w.cluster (w.off + bar) (w.len - bar) ++ openBytes s w.cluster recs Config.saveEngines
/-- A workgroup's save: what exceeds shadow storage goes to the spill area (R377). -/
def saveWg (s : State) (x : Nat × Wg) : State :=
  addSave s x.2.cluster (getL s x.2.launch).part false x.1 (Nat.min (wgBytes s x.2) (shadowSize - shadowUsed s x.2.cluster)) (wgSave s x.2)
/-- The save of a partition is complete: every access its fibres issued has been performed (15 R281). -/
def endSave (s0 : State) (p : Nat) : State :=
  let s := checkIn s0
  let busy := (partWarps s p).any fun k => (getW s k).pend.any fun x => !mayStay x.kind
  if (getPart s p).pre ≠ 2 || busy then s
  else
    let mine := fun (w : Wg) => w.live && (getL s w.launch).part == p
    let t := (s.wgs.filter fun x => mine x.2).foldl saveWg s
    modPart { t with wgs := s.wgs.map fun x => (x.1, if mine x.2 then { x.2 with saved := true } else x.2) } p
      fun x => { x with pre := 3 }
/-- The lines whose requests have left the engine moved, so that each command stands at a line boundary (16 R294). -/
def endLines (s : State) (cl : Nat) (mine : Cmd → Bool) : State :=
  ((getCl s cl).cmds.filter fun c => mine c && c.running && c.paid).foldl
    (fun t c => onAgent t (agentOf c.fib) fun t => stepCmd t cl c [] 0) s
/-- A frond stream marked Saved, one that has halted with work left too (11 R196, R217). -/
def saveStream (f : Fibre) : Fibre :=
  match f.st with
  | .absent => f
  | .ready | .issuing | .waiting _ | .ended => { f with saved := true }
/-- PRECTL forced (R377): every fibre of the partition is Saved at its group boundary, streams and commands stop, a
drain in progress runs to its end (11 R217). -/
def forcePart (s0 : State) (p : Nat) : State :=
  if (getPart s0 p).pre ≠ 0 then refusePre s0 p
  else
    let s := checkIn s0
    let ks := partWarps s p
    let s1 := ks.foldl (fun t k => (slotFibres k).foldl (fun t i => setF t i ((if 12288 ≤ k then saveStream else saveFibre) (getF t i))) t) s
    let mine := fun (c : Cmd) => decide ((getL s (c.wg / 2 ^ 64)).part = p)
    let stop := fun (c : Cmd) => if mine c then { c with running := false } else c
    let s2 := (s.clusters.map (·.1)).foldl (fun t c => endLines (admitAll t c ks) c mine) (modPart s1 p fun x => { x with pre := 2 })
    let s3 := { s2 with clusters := s2.clusters.map fun x => (x.1, { x.2 with cmds := x.2.cmds.map stop }) }
    let s3 := (ks.filter (12288 ≤ ·)).foldl (fun t k => onAgent t (.frond (k - 12288)) endDrain) s3
    post s3 ([.saved p] ++ (s.clusters.map (·.1)).flatMap fun c => [.goAccept c, .copyStart c])
/-- FORCED. -/
def execForced (part : Nat) (s : State) : Host.Outcome State Fault Refusal := .next (hostWrite s fun s => forcePart s part)

/-- The launch of an arrival. -/
def arrivalLaunch (e : Ev) : Nat :=
  match e with
  | .arrival l .. | .message l .. | .result _ l .. => l
  | _ => 0
/-- An arrival applied to the saved copy: of a barrier (13 R243), a message (09 R164), a reduction's result (13 R252). -/
def applyHeld (s : State) (e : Ev) : State :=
  match e with
  | .arrival launch g i c a => arrivalDone (applyArrival s launch g i c 0) a (isArrival true g i c)
  | .message l src g idx fib n row => deliverMsg s ⟨l, src, g, idx, fib, n, row⟩
  | .result a _ j b v => onAgent s a fun s => giveResult s j b v
  | _ => s
/-- The oldest arrival held for a partition applied (R378), once the Hawkmoth core's counter has room (20 R345); its write is
acknowledged (20 R347). -/
def applySaved (s : State) (p : Nat) : State :=
  match (getPart s p).arrivals with
  | [] => s
  | e :: r =>
    let l := arrivalLaunch e
    if 65535 < tget 0 s.outst (outKey 1152 l) then postNew s [.savedArrival p]
    else post (outRaise (applyHeld (modPart s p fun x => { x with arrivals := r }) e) 1152 l) [.ack 1152 l]
/-- SAVED_ARRIVAL_APPLY (R378): once the copy has been written. -/
def execSavedArrivalApply (part : Nat) (s : State) : Host.Outcome State Fault Refusal :=
  .next (if 3 ≤ (getPart s part).pre then applySaved s part else s)

/-- The load in progress of the current stream fails where it runs again: it is over, ml falls, and the stream takes the cause at its
group (11 R205). -/
def failLoad (s : State) (cause : Nat) : State :=
  let at1 := wordWhere s s.f.gpos fun w => fld w 24 6 == 59
  let h : HeldFail := ⟨cause, at1.2, 0, 1, true, inHandler s.f, none, at1.1⟩
  holdFail (modCl { s with f := cntDown s.f 1 } (curCl s) fun c => { c with load := none }) h
/-- A stream of the frond core back in the state it left; a load in progress runs again in full (11 R217). -/
def unsaveStream (s : State) (k : Nat) : State :=
  let f := getF s k
  let t := setF s k { dropLatches f with saved := false }
  let cl := clusterOf k
  let again := fun (t : State) (l : MxLoad) => match loadBank t l.desc l.k l.space l.idx with
    | .ok b =>
      let parts := loadParts t l.desc l.k l.space l.idx
      let u := { t with hist := t.hist.filter fun u => !(u.ag == curKey t && u.wg == curWg t && u.po == l.po && u.rd) }
      modCl (noteLoad u l.po parts []) cl fun c => { c with load := some { l with bank := b } }
    | .error c => failLoad t c
  let u := match (getCl t cl).load with
    | some l => onAgent t (.frond cl) fun t => again t l
    | none => t
  post u ([.mxLoad cl, .mxOp cl, .mxDrain cl] ++ if f.st = .ended then [.frondEnd cl] else [])
/-- PRECTL restore (R377): state 5, the save areas are read back. -/
def restorePart (s : State) (p : Nat) : State :=
  if (getPart s p).pre ≠ 3 ∧ (getPart s p).pre ≠ 4 then refusePre s p
  else post (modPart s p fun x => { x with pre := 5 }) [.restored p]
/-- The save areas of a partition have been read back (R377, R378): arrivals held, then every workgroup in its own cluster. -/
def endRestore (s0 : State) (p : Nat) : State :=
  let s := (List.range (getPart s0 p).arrivals.length).foldl (fun t _ => applySaved t p) (checkIn s0)
  if (getPart s0 p).pre ≠ 5 then s0
  else if !(getPart s p).arrivals.isEmpty then postNew s [.restored p]
  else
    let s1 := s
    let mine := fun (w : Wg) => w.live && (getL s w.launch).part == p
    let s1 := (s1.wgs.filter fun x => mine x.2).foldl (fun t x => dropSave t x.2.cluster false x.1) s1
    let s2 := modPart { s1 with wgs := s1.wgs.map fun x => (x.1, if mine x.2 then { x.2 with saved := false } else x.2) } p
      fun x => { x with pre := 0 }
    let s3 := (partWarps s p).foldl (fun t k =>
      if 12288 ≤ k then unsaveStream t (4 * k)
      else if (getW t k).resv = 0 then t
      else (slotFibres k).foldl unsaveFibre t) s2
    let cls := s.clusters.map (·.1)
    postNew s3 (roomEvs s3 (cls.flatMap fun c => [4 * c, 4 * c + 1, 4 * c + 2, 4 * c + 3]) ++
      (cls.flatMap fun c => [.copyStart c, .goAccept c, .frondStart c, .tbApply c]) ++ [.round])
/-- RESTORE. -/
def execRestore (part : Nat) (s : State) : Host.Outcome State Fault Refusal := .next (hostWrite s fun s => restorePart s part)
/-- Saves that `mine` names moved out of shadow storage, every spill part at its place in the list's order. -/
def layOut (mine : SaveArea → Bool) : Nat → List SaveArea → List SaveArea
  | _, [] => []
  | at1, x :: r =>
    let y := if mine x then { x with inShadow := 0, shAt := 0, inSpill := x.inShadow + x.inSpill, spAt := at1 } else { x with spAt := at1 }
    y :: layOut mine (at1 + y.inSpill) r
/-- The bytes of a save. -/
def saveList (s : State) (p cl : Nat) (x : SaveArea) : List Byte :=
  (List.range x.inShadow).map (fun i => rdByte (getCl s cl).shadow (x.shAt + i)) ++
  (List.range x.inSpill).map fun i => rdByte s.mem (spillAt s p cl + x.spAt + i)
/-- PRECTL evict (R377): the partition's saves are copied from shadow storage to the spill area. -/
def evictPart (s : State) (p : Nat) : State :=
  if (getPart s p).pre ≠ 3 then refusePre s p
  else
    let mine := fun (x : SaveArea) => !x.slot && (getL s (x.key / 2 ^ 64)).part == p
    let copy := fun (m : Tab Byte) (c : Nat × Cluster) =>
      if c.2.saves.any mine then (c.2.saves.zip (layOut mine 0 c.2.saves)).foldl (fun m x =>
        spillBytes { s with mem := m } p c.1 x.2.spAt ((saveList s p c.1 x.1).drop x.2.inShadow)) m
      else m
    modPart { s with
      mem := s.clusters.foldl copy s.mem
      clusters := s.clusters.map fun c => (c.1, { c.2 with saves := if c.2.saves.any mine then layOut mine 0 c.2.saves else c.2.saves }) } p
      fun x => { x with pre := 4 }
/-- EVICT. -/
def execEvict (part : Nat) (s : State) : Host.Outcome State Fault Refusal := .next (hostWrite s fun s => evictPart s part)

end Sys2Proof.Machine
end

