-- ==== Sys2Proof/Machine/Sched.lean ====
section
/-! DEFINITION. Clusters among stages (23 R393, 24 R403), token buckets at the ports (21 R354 to R356), throttling (21 R357,
R358), congestion copies (20 R350). -/

namespace Sys2Proof.Machine

/-! Reassignment (23 R393). -/

/-- Buffers that a stage writes or reads. -/
def stageBufs (s : State) (launch : Nat) : List PBuf :=
  (pbufsOf s launch).filter fun b => b.prod == (getL s launch).stage || readsPb b (getL s launch).stage
/-- Eligible tasks among the next n not yet placed. -/
def countEligible (s : State) (launch : Nat) : Nat → Nat → Nat
  | 0, _ => 0
  | n + 1, g =>
    match nextWg (getL s launch).hdr g with
    | none => 0
    | some k => (if eligible s launch k then 1 else 0) + countEligible s launch n (k + 1)
/-- E of a stage: its eligible tasks not yet placed, no more than the slots of its buffers. -/
def eligibleLeft (s : State) (launch : Nat) : Nat :=
  let l := getL s launch
  if !l.live || l.empty then 0
  else match stageBufs s launch with
    | [] => wgsLeft l.hdr l.nextG
    | b :: r => countEligible s launch (r.foldl (fun n c => Nat.min n c.depth) b.depth) l.nextG
/-- A cluster serves an expert with unplaced tasks in the current batch (24 R403). -/
def servesNow (s : State) (launch cl : Nat) : Bool :=
  let l := getL s launch
  match l.batch with
  | none => false
  | some b =>
    apportioned s launch && !l.empty && batchOf l.hdr l.nextG == b.b &&
    b.serve.any fun x => (servers l x.1).contains cl && decide (expertOf l.hdr l.nextG ≤ x.1)
/-- A cluster of a stage is idle. -/
def idleIn (s : State) (launch cl : Nat) : Bool :=
  !(s.wgs.any fun w => w.2.live && w.2.launch == launch && w.2.cluster == cl) && !servesNow s launch cl
/-- The lowest-numbered idle cluster of a stage. -/
def lowestIdle (s : State) (launch : Nat) : Option Nat := (getL s launch).clusters.find? fun c => idleIn s launch c
/-- A number put in its place in a rising list. -/
def insertNat (x : Nat) : List Nat → List Nat
  | [] => [x]
  | y :: r => if x < y then x :: y :: r else y :: insertNat x r
/-- A cluster moved from one stage to another. -/
def moveCluster (s : State) (from1 to1 c : Nat) : State :=
  modL (modL s from1 fun l => { l with clusters := l.clusters.filter fun x => x != c }) to1 fun l =>
    { l with clusters := insertNat c l.clusters }
/-- The stage with the most clusters among those that hold an idle cluster and two at least; the lower index on a tie. -/
def givingStage (s : State) (stages : List Nat) : Option Nat :=
  stages.foldl (fun best l =>
    let n := (getL s l).clusters.length
    if n < 2 || (lowestIdle s l).isNone then best
    else match best with
      | none => some l
      | some b => if (getL s b).clusters.length < n then some l else best) none
/-- Step 1: stages with work and no cluster, in increasing order. -/
def reassign1 (s : State) (stages : List Nat) (e : Nat → Nat) : State :=
  stages.foldl (fun t l =>
    if e l = 0 || !(getL t l).clusters.isEmpty then t
    else match givingStage t stages with
      | none => t
      | some g => match lowestIdle t g with
        | some c => moveCluster t g l c
        | none => t) s
/-- Stages by decreasing E, then increasing index. -/
def insertStage (e : Nat → Nat) (x : Nat) : List Nat → List Nat
  | [] => [x]
  | y :: r => if e y < e x then x :: y :: r else y :: insertStage e x r
/-- The lowest-numbered idle cluster of stages without work that keep one (its stage, itself). -/
def spareCluster (s : State) (stages : List Nat) (e : Nat → Nat) : Option (Nat × Nat) :=
  stages.foldl (fun best l =>
    if e l ≠ 0 || (getL s l).clusters.length < 2 then best
    else match lowestIdle s l, best with
      | some c, none => some (l, c)
      | some c, some b => if c < b.2 then some (l, c) else best
      | none, _ => best) none
/-- Step 2: stages with work each take one cluster from a stage without. -/
def reassign2 (s : State) (stages : List Nat) (e : Nat → Nat) : State :=
  (stages.foldl (fun l x => insertStage e x l) []).foldl (fun t l =>
    if e l = 0 then t
    else match spareCluster t stages e with
      | some (g, c) => moveCluster t g l c
      | none => t) s
/-- One pipeline's clusters reassigned. -/
def reassignPipe (s : State) (p : Nat) : State :=
  let stages := (getP s p).stages
  let n := stages.map fun l => (l, eligibleLeft s l)
  let e := fun l => ((n.find? fun x => x.1 == l).map (·.2)).getD 0
  postNew (reassign2 (reassign1 s stages e) stages e) (stages.map Ev.place)
/-- CLUSTER_REASSIGNMENT (23 R393): the pipelines of a partition, in order of acceptance. -/
def reassignPart (s : State) (part : Nat) : State :=
  (s.pipes.filterMap fun x =>
    if x.2.live && (match x.2.stages with
      | l :: _ => (getL s l).part == part
      | [] => false) then some x.1 else none).foldl reassignPipe s
/-- CLUSTER_REASSIGNMENT. -/
def execClusterReassignment (part : Nat) (s : State) : Host.Outcome State Fault Refusal := .next (reassignPart s part)

/-! Token buckets (21 R355, R356). -/

/-- Clusters of a partition, n. -/
def nclus (s : State) (p : Nat) : Nat := (partClusters s p).length
/-- A request of the partition waits for tokens at one of its ports. -/
def activePart (s : State) (p : Nat) : Bool :=
  (partClusters s p).any fun c => match (getCl s c).portq with
    | [] => false
    | x :: _ => decide ((getCl s c).buckets.getD p 0 < x.1)
/-- A partition's refill out of a sum of shares. -/
def refillOf (s : State) (p total : Nat) : Nat :=
  if total = 0 then 1
  else Nat.max 1 (Nat.min (s.bwBudget * (getPart s p).share / (total * Nat.max (nclus s p) 1)) 32767)
/-- Sum of shares of the partitions that satisfy a test. -/
def shareSum (s : State) (f : Nat → Bool) : Nat :=
  (List.range 16).foldl (fun n p => if (getPart s p).en && f p then n + (getPart s p).share else n) 0
/-- A bucket after a refill. -/
def refilled (s : State) (p b : Nat) : Nat :=
  let own := refillOf s p (shareSum s fun _ => true)
  if !(getPart s p).seeded then own
  else if activePart s p then
    let r := refillOf s p (shareSum s (activePart s))
    Nat.min (b + r) (2 * r)
  else Nat.min (Nat.max b own) (2 * own)
/-- Every bucket of a configured partition after a refill. -/
def fillBuckets (s : State) : State :=
  let one := fun (t : State) (c : Nat) =>
    let p := (getCl s c).part
    if (getPart s p).en then
      modCl t c fun x => { x with buckets := x.buckets.set p (refilled s p (x.buckets.getD p 0)) }
    else t
  let s1 := (List.range 192).foldl one s
  (List.range 16).foldl (fun t p => modPart t p fun x => { x with seeded := x.en }) s1
/-- PCFG stored (Table 21.2). -/
def pcfgOf (v : Nat) : BitVec 24 :=
  let w := bf v 18 6
  BitVec.ofNat 24 (Nat.min (bf v 0 9) 256 + bf v 9 9 * 2 ^ 9 +
    (if w = 0 then 0 else if w < 12 then 12 else if 40 < w then 40 else w) * 2 ^ 18)
/-- A partition whose PCFG as last written is in effect. -/
def inEffect (x : Part) : Part :=
  let n := x.next.toNat
  { x with share := bf n 0 9, en := bf n 9 1 == 1, vmth := bf n 10 8, wdlg := bf n 18 6 }
/-- BWCFG and PCFG as last written take effect. -/
def newShares (s : State) : State := (List.range 16).foldl (fun t p => modPart t p inEffect) { s with bwBudget := s.bwNext }
/-- TOKEN_REFILL (21 R356): what was written takes effect, the buckets are refilled, ports that wait try again. -/
def refillAll (s : State) : State :=
  post (fillBuckets (newShares s)) (s.clusters.flatMap fun x => List.replicate x.2.portq.length (.port x.1))
/-- TOKEN_REFILL. -/
def execTokenRefill (s : State) : Host.Outcome State Fault Refusal := .next (refillAll s)
/-- PORT_ADMISSION (21 R355): the request at the head, once the bucket of the cluster's partition holds its units. -/
def admitPort (s : State) (cl : Nat) : State :=
  let c := getCl s cl
  match c.portq with
  | [] => s
  | (u, key, seq) :: r =>
    let b := c.buckets.getD c.part 0
    if b < u then s
    else
      queueDone (perfCl (setCl s cl { c with portq := r, buckets := c.buckets.set c.part (b - u) }) cl 0x3B u) key seq
/-- PORT_ADMISSION. -/
def execPortAdmission (cluster : Nat) (s : State) : Host.Outcome State Fault Refusal := .next (admitPort s cluster)

/-! Throttling (21 R357) and congestion (20 R350). -/

/-- Memory-bound fibres a core permits at a congestion level. -/
def permitLimit (c : Nat) : Option Nat := if c < 64 then none else if c < 128 then some 8 else if c < 192 then some 4 else some 1
/-- A fibre is memory-bound. -/
def memoryBound (s : State) (k : Nat) : Bool :=
  let th := (getPart s (getL s (getW s (k / 4)).launch).part).vmth
  let f := getF s k
  th != 0 && f.st != .absent && decide (th ≤ cntOf f 0)
/-- THROTTLE_PERIOD (21 R357): the permitted fibres, in round-robin order after the last one permitted. -/
def throttleCore (s : State) (core : Nat) : State :=
  match permitLimit (getCl s (core / 4)).cong with
  | none => modCore s core fun c => { c with permit := none }
  | some n =>
    let last := (getCore s core).lastPermit
    let l := (List.range 64).map fun i => core * 64 + (last + 1 + i) % 64
    let p := (l.filter (memoryBound s)).take n
    modCore s core fun c => { c with permit := some p, lastPermit := (p.getLast?.map (· % 64)).getD last }
/-- THROTTLE_PERIOD. -/
def execThrottlePeriod (core : Nat) (s : State) : Host.Outcome State Fault Refusal := .next (throttleCore s core)

end Sys2Proof.Machine
end

