-- ==== Sys2Proof/Machine/Net.lean ====
section
/-! DEFINITION. The on-die network (25 R405 to R411) and the peer's side of the export window (25 R413). An input of a
router is the link that reaches it, or its own number × 64 + 18 + port. -/

namespace Sys2Proof.Machine

/-- A destination that stands for a branch that cannot deliver (R407). -/
def lostBranch : Nat := 5120
/-- Destinations still to be reached. -/
def liveDests (p : NetPkt) : List Nat := p.dests.filter fun d => d != lostBranch
/-- Outputs of a packet at a router. -/
def pktOuts (r : Nat) (p : NetPkt) : List Nat := distinct ((liveDests p).map (nextOut r))
/-- Flits of a class queued for an output. -/
def queuedFlits (s : State) (r o : Nat) (ofClass : Nat → Bool) : Nat :=
  s.netq.foldl (fun n x => if x.1 = r && (pktOuts r x.2.2).contains o && ofClass x.2.2.cls then n + x.2.2.flits else n) 0
/-- The queue of an output has room: 32 flits are kept for each class (R406). -/
def outRoom (s : State) (r o : Nat) (p : NetPkt) : Bool :=
  let own := queuedFlits s r o (· == p.cls)
  let others := ([0, 1, 2].filter (· != p.cls)).foldl (fun n c => n + Nat.max 32 (queuedFlits s r o (· == c))) 0
  decide (own + p.flits + others ≤ 256)
/-- A branch of a packet may leave by an output: its link is up, the router it reaches is awake, every queue the branch
joins there has room. -/
def branchFree (s : State) (r o : Nat) (p : NetPkt) : Bool :=
  match outRouter r o with
  | none => true
  | some n =>
    let q := { p with dests := (liveDests p).filter fun d => nextOut r d == o }
    !s.linksDown.contains (linkId r o) && !s.gated.contains n && (pktOuts n q).all fun x => outRoom s n x q
/-- Flit counts of an output as its congestion counter holds them (R406, 20 R350). -/
def congestion (s : State) (r o : Nat) : Nat := Nat.min (queuedFlits s r o fun _ => true) 255
/-- CONGESTION_REFRESH (20 R350): each cluster port copies the largest counter of its router. -/
def refreshCong (s : State) : State :=
  (List.range 192).foldl (fun t c =>
    let r := clusterRouter c
    let n := (List.range 26).foldl (fun n o => Nat.max n (congestion s r o)) 0
    if (getCl t c).cong = n then t else modCl t c fun x => { x with cong := n }) s
/-- CONGESTION_REFRESH. -/
def execCongestionRefresh (s : State) : Host.Outcome State Fault Refusal := .next (refreshCong s)

/-- A failure of a packet held for its sender, with the lanes and the address of the word it was sent for (R411, R414). -/
def failSender (s : State) (p : NetPkt) (cause : Nat) : State :=
  match p.sender with
  | .none | .prol _ => s
  | a => onAgent s a fun s =>
      holdFail s ⟨cause, wordAt s { s.f.gpos with slot := p.slot }, p.addr, p.lanes, true, false, none, p.slot⟩
/-- ROUTER_WAKE (R410): a packet injected at its sender's port, or at a router that is not the sender's, wakes the routers of
its route; it enters once the queues of its first outputs have room (R406). -/
def injectPkt (s : State) (r : Nat) (p : NetPkt) : State :=
  let port := if agentPort p.sender / 8 = r then agentPort p.sender % 8 else 0
  let rs := (liveDests p).flatMap (routeRouters r)
  let t := { s with gated := s.gated.filter fun x => x != r && !rs.contains x }
  if (pktOuts r p).all fun o => outRoom s r o p then { t with netq := s.netq ++ [(r, r * 64 + 18 + port, p)] }
  else post t [.inject r p]
/-- ROUTER_WAKE. -/
def execRouterWake (router : Nat) (pkt : NetPkt) (s : State) : Host.Outcome State Fault Refusal :=
  .next (injectPkt s router pkt)

/-- The copy of a packet that takes an output; over a link it was replayed for the last time (R411). -/
def branchAt (s : State) (r o : Nat) (p : NetPkt) : State :=
  match outRouter r o with
  | none => s
  | some n => { s with
      retries := tset 0 s.retries (linkId r o) 0
      netq := s.netq ++ [(n, linkId r o, { p with dests := (liveDests p).filter fun d => nextOut r d == o })] }
/-- What stands at no input: the mark of a packet that has lost a branch. -/
def lostInput : Nat := 8192
/-- The queue entry marks a packet that has lost a branch. -/
def isLost (x : Nat × Nat × NetPkt) : Bool := x.2.1 == lostInput
/-- A packet that has lost a branch fails at its sender once no other branch of it is left (R407). -/
def settleLost (s : State) : State :=
  let same := fun (x y : Nat × Nat × NetPkt) => x.2.2.sender == y.2.2.sender && x.2.2.num == y.2.2.num
  match s.netq.find? fun x => isLost x && !s.netq.any fun y => same x y && !isLost y with
  | some x => failSender { s with netq := s.netq.filter fun y => !same x y } x.2.2 (if x.2.2.cls = 2 then 0x1C7 else 0x1F6)
  | none => s
/-- A packet's copies forwarded on every output that has room (R407); a branch over a down link is lost. -/
def forwardPkt (s : State) (r i : Nat) (p : NetPkt) : State :=
  let outs := pktOuts r p
  let down := outs.filter fun o => (outRouter r o).isSome && s.linksDown.contains (linkId r o)
  let go := outs.filter fun o => branchFree s r o p
  let rest := (liveDests p).filter fun d => !(go.contains (nextOut r d) || down.contains (nextOut r d))
  let idx := (s.netq.findIdx? fun x => x == (r, i, p)).getD 0
  let t := go.foldl (fun t o => branchAt t r o p) { s with netq := s.netq.erase (r, i, p) }
  let u := if rest.isEmpty then t
    else { t with netq := t.netq.take idx ++ [(r, i, { p with dests := rest })] ++ t.netq.drop idx }
  settleLost (if down.isEmpty then u else { u with netq := u.netq ++ [(r, lostInput, { p with dests := [lostBranch] })] })
/-- The first packets of the classes at an input of a router, responses before requests (R405). -/
def inputHeads (s : State) (r i : Nat) : List NetPkt :=
  [1, 2, 0].filterMap fun c => (s.netq.find? fun x => x.1 == r && x.2.1 == i && x.2.2.cls == c).map (·.2.2)
/-- FLIT_FORWARD (R405, R407): the head packet of a class at an input moves on. -/
def forwardAt (s : State) (r i : Nat) : State :=
  if s.gated.contains r then s
  else match (inputHeads s r i).find? fun p => (pktOuts r p).any fun o =>
      branchFree s r o p || ((outRouter r o).isSome && s.linksDown.contains (linkId r o)) with
    | some p => forwardPkt s r i p
    | none => s
/-- FLIT_FORWARD. -/
def execFlitForward (router input : Nat) (s : State) : Host.Outcome State Fault Refusal := .next (forwardAt s router input)

/-! Links (R411). -/

/-- LINK_REPLAY (R411): one more failed replay of the flit; retries are counted (20 R351). -/
def execLinkReplay (link : Nat) (s : State) : Host.Outcome State Fault Refusal :=
  .next (softInc { s with retries := tset 0 s.retries link (satInc (tget 0 s.retries link) 16) } 3 link 0)
/-- LINK_DOWN (R411): after 16 failed replays; a request that waits for the link fails, with its sender. -/
def downLink (s : State) (link : Nat) : State :=
  if tget 0 s.retries link < 16 || s.linksDown.contains link then s
  else
    let t := softInc { s with linksDown := s.linksDown ++ [link] } 3 link 1
    let waits := t.netq.filter fun x => x.1 == link / 64 && (pktOuts x.1 x.2.2).contains (link % 64)
    waits.foldl (fun t x => if t.netq.contains x then forwardPkt t x.1 x.2.1 x.2.2 else t) t
/-- LINK_DOWN. -/
def execLinkDown (link : Nat) (s : State) : Host.Outcome State Fault Refusal := .next (downLink s link)
/-- LINK_UP (R411): the Lichen cluster brings a link up again. -/
def execLinkUp (link : Nat) (s : State) : Host.Outcome State Fault Refusal :=
  .next { s with linksDown := s.linksDown.filter (· != link), retries := tset 0 s.retries link 0 }

/-! Power gating (R410). -/

/-- Clusters on a router. -/
def routerClusters (r : Nat) : List Nat := (List.range 192).filter fun c => clusterRouter c == r
/-- Routers of the reduction tree over clusters (R408). -/
def treeRouters (cl : List Nat) : List Nat :=
  let rs := distinct (cl.map clusterRouter)
  let rows := distinct (rs.map (· / 8))
  rs ++ (if 1 < rs.length then rows.map (· * 8) else []) ++ if 1 < rows.length then [16] else []
/-- The router is on the tree of an open reduction or barrier: over the clusters of its partition, from which contributions come
(R408). -/
def onTree (s : State) (r : Nat) : Bool :=
  s.redns.any fun x => (treeRouters (x.con.map (·.2.1) ++ partClusters s (getL s x.launch).part)).contains r
/-- ROUTER_GATE (R410): idle, allowed by every partition on it, on no open tree, not at row 0, column 0. -/
def gateRouter (s : State) (r : Nat) : State :=
  let allowed := (routerClusters r).all fun c => (getPart s (getCl s c).part).netcfg.getLsbD 16
  if r = 0 || s.gated.contains r || !allowed || onTree s r || s.netq.any (fun x => x.1 == r) then s
  else { s with gated := s.gated ++ [r] }
/-- ROUTER_GATE. -/
def execRouterGate (router : Nat) (s : State) : Host.Outcome State Fault Refusal := .next (gateRouter s router)

/-! A peer's request (R413). -/

/-- The physical address of a request inside the window, or a refusal. -/
def windowAt (s : State) (off size : Nat) (write atom : Bool) : Option Nat :=
  match ownWindow s off write atom, ownWindow s (off + size - 1) write atom with
  | some pa, some _ => some pa
  | _, _ => none
/-- A peer's atomic by its operation (13 Table 13.5), operands of `size` bytes; 11 acts on an exact cell. -/
def peerAtom (op size old v new : Nat) : Nat :=
  let m := 2 ^ (8 * size)
  match op with
  | 0 => (old + v) % m
  | 1 => Nat.land old v
  | 2 => Nat.lor old v
  | 3 => Nat.xor old v
  | 4 => if signedOf size v < signedOf size old then v else old
  | 5 => if signedOf size old < signedOf size v then v else old
  | 6 => Nat.min old v
  | 7 => Nat.max old v
  | 8 => v
  | 9 => if old = v then new else old
  | 10 => (fAdd fmt32 .rn false false old v).1
  | 11 => (exactCellAdd (BitVec.ofNat 128 old) ((if size = 4 then fmt32 else fmt64).decode v)).1.toNat
  | _ => old
/-- PEER_REQUEST (R413): performed in the export window, or refused without effect here. -/
def servePeer (s : State) (r : PeerReq) : State :=
  let m := 2 ^ (8 * r.size)
  match r.kind with
  | 1 =>
    match windowAt s r.off r.size true false with
    | some pa => forget (writeDev s pa (r.val.toNat % m) r.size) .m pa r.size
    | none => s
  | 2 =>
    let n := if r.op = 11 then 16 else r.size
    match windowAt s r.off n true true with
    | some pa =>
      let v := readLoc s (.dev pa) n
      if v.2 then s
      else forget (writeDev s pa (peerAtom r.op r.size v.1 (r.val.toNat % m) (r.new.toNat % m)) n) .m pa n
    | none => s
  | _ => s
/-- PEER_REQUEST. -/
def execPeerRequest (r : PeerReq) (s : State) : Host.Outcome State Fault Refusal := .next (servePeer s r)

end Sys2Proof.Machine
end

