-- ==== Sys2Proof/Machine/Tables.lean ====
section
/-! DEFINITION. Majors 0x38 and 0x39: edits of axis tables, their publication, tensor handles (17 R295 to R315). -/

namespace Sys2Proof.Machine

/-! Images (17 Tables 17.1 to 17.3). -/

/-- The axis record a `thset` leaves: RW fields of the image, empty tables, the next generation (R313). -/
def axisImage (old a : Axis) : Axis := { a with owner := none, cur := false, wcount := 0, count := 0, gen := old.gen + 1 }
/-- The descriptor a `thset` leaves. -/
def descImage (old : Desc) (v : Nat) : Desc :=
  let d := descOf v
  { d with axes := (List.range 6).map fun i => axisImage (axisAt old i) (axisAt d i) }
/-- An image that a `thset` takes (R297). -/
def imageOk (v area : Nat) : Bool :=
  let d := descOf v
  let l := d.axes.take d.rank
  !d.valid ||
  (decide (d.esize ≤ 3) && decide (1 ≤ d.rank) && decide (d.rank ≤ 6) &&
    (l.all fun a => decide (1 ≤ a.width) && decide (a.width ≤ 32) && decide (a.extm1 < 2 ^ a.width) &&
      decide (1 ≤ a.cap) && a.toff % 16 == 0 && decide (a.toff + 32 * a.cap ≤ area)) &&
    decide (((l.map (·.width)).foldl (· + ·) 0) ≤ 38))

/-- Places of `n` runs of 16 bytes from an address, or the first failing one's cause. -/
def pieces (s : State) (k : Acc2) (va : Word64) (n : Nat) : R (List (Nat × Loc)) :=
  (List.range n).mapM fun i =>
    let a := va + BitVec.ofNat 64 (16 * i)
    match locate s (whoCur s) k a 16 with
    | .error c => .error (.fault c (act s) a)
    | .ok l => .ok (i, l)
/-- An image of `n` runs read; poisoned bytes are read by this word (10 R182). -/
def readImage (s : State) (va : Word64) (n : Nat) : R Nat := do
  ready (!fenceHolds s false)
  let l ← pieces s .img va n
  let vs := l.map fun x => (x.1, readLoc s x.2 16)
  need s (vs.all fun x => !x.2.2) 0x1F1
  return vs.foldl (fun v x => v + x.2.1 * 2 ^ (128 * x.1)) 0
/-- The reads of an image recorded: weak loads of the fibre (15 R267). -/
def noteImage (s : State) (va : Word64) (n : Nat) : State :=
  match pieces s .img va n with
  | .ok l => noteReads s (unitOfEngine s) (l.flatMap fun x => locBytes x.2 16) []
  | .error _ => s
/-- An image of `n` runs written as one weak store counted in vs. -/
def writeImage (s : State) (va : Word64) (n v : Nat) : R State := do
  let l ← pieces s .imgW va n
  roomFor s .store
  outReady s true
  let val := fun i => bf v (128 * i) 128
  let w := storeAll s l 16 val
  let t := noteStores s w.1 l 16 val .weak .sl
  return watch (perfCur (sendImage t (Pend.mk0 t .store) l 16) 0x30 1) [(lowestLane (act s), va)] (16 * n) false true

/-! Edits (R306 to R308). -/

/-- Handle, axis and index of k[x] (R312); bit 15 is cause 0x002. -/
def editWord (s : State) (x : KReg) : R (Nat × Nat × Nat) := do
  let v ← readK s x
  need s (bf v.toNat 15 1 == 0) 0x002
  return (bf v.toNat 0 12, bf v.toNat 12 3, bf v.toNat 16 16)
/-- Check 1 of R307. -/
def editAxis (s : State) (h i : Nat) : R Axis := do
  let d := getDesc s (curCtx s) h
  need s (d.valid && decide (i < d.rank)) 0x063
  return axisAt d i
/-- Check 2 of R307. -/
def editOwner (s : State) (a : Axis) : R Unit := need s (a.owner.isNone || a.owner == some (curKey s)) 0x064
/-- The copy that the current fibre's edits change. DESIGN CHOICE (log 93): entries and descriptors whose bytes are uncorrectable
are taken as they stand, by edits, `axrd` and `thget`; the spec names no cause for it. -/
def workOf (s : State) (a : Axis) : List AxEntry :=
  let c := getCtx s (curCtx s)
  if a.owner = some (curKey s) then entriesAt s c (workStart a) a.wcount else entriesAt s c (pubStart a) a.count
/-- A new entry stands in order among its neighbours (R300, check 6 of R307). -/
def fitsAt (before : Option AxEntry) (e : AxEntry) (after : Option AxEntry) : Bool :=
  decide (1 ≤ e.len) && decide (e.ls + e.len ≤ 2 ^ 32) &&
  (match before with
   | some b => decide (b.ls + b.len ≤ e.ls)
   | none => true) &&
  (match after with
   | some a => decide (e.ls + e.len ≤ a.ls)
   | none => true)
/-- The entry below index j. -/
def entryBelow (t : List AxEntry) (j : Nat) : Option AxEntry := if j = 0 then none else t[j - 1]?
/-- The current fibre holds the axis with a working copy (R306), as the table area holds it. -/
def takeAxis (s : State) (h i : Nat) (a : Axis) (t : List AxEntry) : State :=
  setAxis (setEntries s (curCtx s) (workStart a) t) (curCtx s) h i
    { a with owner := some (curKey s), wcount := t.length }
/-- `axins` (R307). -/
def execAxins (p : Pfx) (x w : KReg) (s : State) : Host.Outcome State Fault Refusal :=
  .next (runWord (.axins p x w) (fun s => do
    let (h, i, j) ← editWord s x
    let a ← editAxis s h i
    editOwner s a
    let va ← readKK s w
    let e := entryOf (← readImage s va 1)
    let t := workOf s a
    need s (decide (j ≤ t.length) && decide (t.length < a.cap)) (axisCause i 1)
    need s (decide (e.mode ≤ 4)) (axisCause i 2)
    need s (fitsAt (entryBelow t j) e t[j]?) (axisCause i 6)
    return takeAxis (noteImage s va 1) h i a (t.take j ++ e :: t.drop j)) s)
/-- `axset` (R307). -/
def execAxset (p : Pfx) (x w : KReg) (s : State) : Host.Outcome State Fault Refusal :=
  .next (runWord (.axset p x w) (fun s => do
    let (h, i, j) ← editWord s x
    let a ← editAxis s h i
    editOwner s a
    let va ← readKK s w
    let e := entryOf (← readImage s va 1)
    let t := workOf s a
    need s (decide (j < t.length)) (axisCause i 1)
    need s (decide (e.mode ≤ 4)) (axisCause i 2)
    need s (fitsAt (entryBelow t j) e t[j + 1]?) (axisCause i 6)
    return takeAxis (noteImage s va 1) h i a (t.set j e)) s)
/-- `axdel` (R307). -/
def execAxdel (p : Pfx) (x : KReg) (s : State) : Host.Outcome State Fault Refusal :=
  .next (runWord (.axdel p x) (fun s => do
    let (h, i, j) ← editWord s x
    let a ← editAxis s h i
    editOwner s a
    let t := workOf s a
    need s (decide (j < t.length)) (axisCause i 1)
    return takeAxis s h i a (t.eraseIdx j)) s)
/-- `axrd` (R308). -/
def execAxrd (p : Pfx) (x w : KReg) (s : State) : Host.Outcome State Fault Refusal :=
  .next (runWord (.axrd p x w) (fun s => do
    let (h, i, j) ← editWord s x
    let a ← editAxis s h i
    let va ← readKK s w
    let _ ← pieces s .imgW va 1
    let t := workOf s a
    need s (decide (j < t.length)) (axisCause i 1)
    writeImage s va 1 (entryBits (t.getD j ⟨0, 0, 0, 0, 0⟩))) s)

/-! Publication (R309, R310, R314). -/

/-- An axis after its flip (R309 step 3). -/
def flipped (a : Axis) : Axis := { a with cur := !a.cur, count := a.wcount, gen := a.gen + 1, owner := none }
/-- The flip of every axis that the current fibre holds, the new working copies made equal (R309 steps 3 and 4). -/
def flipAxes (s : State) (key : Nat) : State :=
  (heldAxes s (curCtx s) key).foldl (fun t x =>
    equalCopies t (curCtx s) x.1 x.2 (flipped (axisAt (getDesc t (curCtx s) x.1) x.2))) s
/-- A fibre holds an axis of handle 1. -/
def holdsCode (s : State) (key : Nat) : Bool := (heldAxes s (curCtx s) key).any fun x => x.1 == 1
/-- An earlier access of the current fibre is in flight. -/
def earlier (s : State) : Bool := s.w.pend.any fun p => p.fib == fidOf s
/-- Another agent's key lies within a scope of the current one (15 Table 15.2). -/
def inScope (s : State) (sc : Scope) (key : Nat) : Bool :=
  match sc with
  | .sl => key / 4 == curKey s / 4
  | .cl => clusterOf key == curCl s
  | .dv | .sy => true
/-- Accesses of a kind that translates addresses. -/
def PKind.translated (k : PKind) : Bool :=
  match k with
  | .load | .store | .seal _ | .unseal _ | .cacheOp _ | .enq .. | .strm .. => true
  | _ => false
/-- The context that a warp translates through: its launch's, or its queue's where it runs a prologue (22 R368). -/
def warpCtx (s : State) (k : Nat) (w : Warp) : Nat :=
  match agentOf (4 * k) with
  | .prol q => bf (getQ s q).qctl.toNat 16 6
  | .vec _ | .frond _ | .none => (getL s w.launch).ctx
/-- Accesses in flight of agents within a scope, translated through tables of the current context (R309 step 6). -/
def olderAccesses (s : State) (sc : Scope) : List (Nat × Nat) :=
  (checkIn s).warps.flatMap fun x =>
    if x.2.live && warpCtx s x.1 x.2 == curCtx s then
      (x.2.pend.filter fun p => p.kind.translated && inScope s sc (4 * x.1 + p.fib)).map fun p => (4 * x.1 + p.fib, p.seq)
    else []
/-- One of the accesses is in flight. -/
def anyInFlight (s : State) (l : List (Nat × Nat)) : Bool :=
  l.any fun x => (getW s (x.1 / 4)).pend.any fun p => p.fib == x.1 % 4 && p.seq == x.2
/-- A publication starts: ax rises; the flip waits for the fibre's earlier accesses (R309 step 2). -/
def startPublish (s : State) (flip : Bool) (sc : Scope) : R State := do
  roomFor s (.publish true sc true [])
  let code := flip && holdsCode s (curKey s)
  let wait := flip && earlier s
  let t := if flip && !wait then flipAxes s (curKey s) else s
  return freeArrivals (inFlightAdd t (Pend.mk0 t (.publish wait sc code (if wait then [] else olderAccesses t sc))))
/-- `axpub` (R309, R310). -/
def execAxpub (p : Pfx) (c : Scope) (s : State) : Host.Outcome State Fault Refusal :=
  .next (runWord (.axpub p c) (fun s =>
    if s.f.lostAxis then .error (.faultKeep 0x064 (act s) 0)
    else startPublish s true c) s)
/-- The partition of a cluster, or of the queue whose prologue fetches under a number from 192 on. -/
def fetchPart (s : State) (cl : Nat) (c : Cluster) : Nat := if cl < 192 then c.part else bf (getQ s (cl - 192)).qctl.toNat 1 4
/-- The fetch buffers of code dropped within a scope, prologues' among them (R303, 04 R63). -/
def dropCode (s : State) (sc : Scope) : State :=
  let one := fun (cl : Nat) (c : Cluster) =>
    let hit := fun (k : Nat) => match sc with
      | .sl => k / 2 ^ 32 / 4 == curKey s / 4
      | .cl => cl == curCl s
      | .dv | .sy => fetchPart s cl c == (getCl s (curCl s)).part
    { c with fbuf := c.fbuf.filter fun x => !hit x.1 }
  { s with clusters := s.clusters.map fun p => (p.1, one p.1 p.2) }
/-- AXPUB_COMPLETE (R309 step 6): the first publication of the fibre before which no access is in flight flips, and completes
once every access translated through an older generation has been performed. -/
def endPublish (s : State) : State :=
  let isPub := fun (k : PKind) => match k with
    | .publish .. => true
    | _ => false
  match s.w.pend.find? fun p => p.fib == fidOf s && isPub p.kind with
  | none => s
  | some p =>
    if s.w.pend.any fun x => x.fib == p.fib && decide (x.seq < p.seq) then s
    else match p.kind with
      | .publish flip sc code0 old =>
        let code := if flip then holdsCode s (curKey s) else code0
        let t := if flip then flipAxes s (curKey s) else s
        let left := if flip then olderAccesses t sc else old
        if anyInFlight t left then
          { t with w := { t.w with pend := t.w.pend.map fun x => if x = p then { p with kind := .publish false sc code left } else x } }
        else endAccess (holdCast (if code then dropCode t sc else t) p) p
      | _ => s
/-- AXPUB_COMPLETE. -/
def execAxpubComplete (a : Agent) (s : State) : Host.Outcome State Fault Refusal := .next (onAgent s a endPublish)

/-! Handles (R313). -/

/-- The handle of k[x]. -/
def handleWord (s : State) (x : KReg) : R Nat := do
  let v ← readK s x
  need s (v.toNat / 4096 == 0) 0x063
  return v.toNat
/-- Every holder of an axis of a descriptor loses it (R310). -/
def loseAxes (s : State) (d : Desc) : State :=
  (d.axes.filterMap (·.owner)).foldl (fun t k => setF t k { getF t k with lostAxis := true }) s
/-- `thset` (R313). -/
def execThset (p : Pfx) (x w : KReg) (s : State) : Host.Outcome State Fault Refusal :=
  .next (runWord (.thset p x w) (fun s => do
    let h ← handleWord s x
    let va ← readKK s w
    let v ← readImage s va 16
    need s (decide (2 ≤ h) && imageOk v (tableArea s (curCtx s))) 0x063
    let old := getDesc s (curCtx s) h
    startPublish (loseAxes (setDesc (noteImage s va 16) (curCtx s) h (descImage old v)) old) false .dv) s)
/-- `thget` (R313). -/
def execThget (p : Pfx) (x w : KReg) (s : State) : Host.Outcome State Fault Refusal :=
  .next (runWord (.thget p x w) (fun s => do
    let h ← handleWord s x
    let va ← readKK s w
    writeImage s va 16 (descBits (getDesc s (curCtx s) h))) s)
/-- `thfill` (R313). -/
def execThfill (p : Pfx) (x w : KReg) (s : State) : Host.Outcome State Fault Refusal :=
  .next (runWord (.thfill p x w) (fun s => do
    let h ← handleWord s x
    let v ← readKK s w
    let d := getDesc s (curCtx s) h
    need s (d.valid && decide (2 ≤ h)) 0x063
    startPublish (setDesc s (curCtx s) h { d with fill := v }) false .dv) s)

end Sys2Proof.Machine
end

