-- ==== Sys2Proof/Machine/Host.lean ====
section
/-! DEFINITION. The host interface and the Lichen cluster: registers of BAR 0 and of the control space, BAR 2, contexts (22
R379), partitions (12 R223), soft errors, attestation, time (26), resets and boot, power and temperature (26 R421, 27). -/

namespace Sys2Proof.Machine

/-! Vectors and the error ring (26 R416, R428). -/

/-- ERRCTL.head. -/
def errHead (s : State) : Word := BitVec.ofNat 32 (bf s.errctl.toNat 4 32)
/-- Records of the error ring. -/
def errSize (s : State) : Nat := 2 ^ (bf s.errctl.toNat 0 4 + 4)
/-- A record of the error ring (R428), unless the ring is full. -/
def writeError (s : State) (cause unit pa : Nat) : State :=
  if errSize s ≤ (s.errtail - errHead s).toNat then { s with errlost := satInc s.errlost 4095 }
  else
    let a := s.errbase.toNat + 32 * (s.errtail.toNat % errSize s)
    let v := cause % 2 ^ 16 + unit % 2 ^ 16 * 2 ^ 16 + pa % 2 ^ 64 * 2 ^ 64 + s.timens.toNat * 2 ^ 128
    raiseVec { s with hostMem := wrBytes s.hostMem a v 32, errtail := s.errtail + 1 } 32

/-! Registers written as they are (22 Table 22.2, 26 Table 26.3, 10 Table 10.8, 21, 25). -/

/-- lsz stored. -/
def lszOf (v : Nat) : Nat := if 4 ≤ v ∧ v ≤ 16 then v else 4
/-- dlsz stored. -/
def dlszOf (v : Nat) : Nat := if 4 ≤ v ∧ v ≤ 12 then v else 0
/-- QCTL after a write (22 R362): while en is 1, only en. -/
def qctlAfter (old v : Word64) : Word64 :=
  if old.getLsbD 0 then (old &&& ~~~1#64) ||| (v &&& 1#64)
  else
    let n := v.toNat
    BitVec.ofNat 64 (bf n 0 5 + lszOf (bf n 5 5) * 2 ^ 5 + dlszOf (bf n 10 5) * 2 ^ 10 + bf n 15 7 * 2 ^ 15)
/-- A partition after a write of PCFG (21 Table 21.2, R356): it takes effect at the next refill; a partition that was not
enabled takes a bucket of its own then. -/
def pcfgAfter (x : Part) (v : Word64) : Part :=
  { x with next := pcfgOf v.toNat, seeded := x.seeded && v.getLsbD 9 }
/-- A fabric routing entry stored (25 Table 25.3). -/
def fabricOf (v : Word64) : Word64 :=
  let n := v.toNat % 2 ^ 53
  BitVec.ofNat 64 (if bf n 20 20 < bf n 0 20 ∨ bf n 40 12 = 0 then n % 2 ^ 52 else n)
/-- The debug block of a cluster written (10 Table 10.8). -/
def debugAfter (c : Cluster) (r : Nat) (v : Word64) : Cluster :=
  match r with
  | 0 => { c with brk0 := v &&& 0x1FFFFFFFFF#64 }
  | 1 => { c with brk1 := v &&& 0x1FFFFFFFFF#64 }
  | 2 => { c with wpt := v }
  | 3 => { c with sstep := v &&& 0x3FF#64 }
  | _ => c
/-- A register of the host's written. -/
def hostReg (s : State) (r : DevReg) (v : Word64) : State :=
  let n := v.toNat
  match r with
  | .qctl q => postNew (modQ s q fun x => { x with qctl := qctlAfter x.qctl v }) [.round]
  | .qbase q => modQ s q fun x => if x.qctl.getLsbD 0 then x else { x with qbase := BitVec.ofNat 64 (n % 2 ^ 48) }
  | .dqbase q => modQ s q fun x => if x.qctl.getLsbD 0 then x else { x with dqbase := BitVec.ofNat 64 (n % 2 ^ 48) }
  | .prectlAck p => if v.getLsbD 7 then modPart s p fun x => { x with refused := false } else s
  | .hostwin => { s with hostEn := v.getLsbD 0, hostLg := if 12 ≤ bf n 1 6 ∧ bf n 1 6 ≤ 48 then bf n 1 6 else 12 }
  | .bar2ctl => { s with bar2En := v.getLsbD 0, bar2Win := bf n 1 4 }
  | .errbase => { s with errbase := v }
  | .errctl => { s with errctl := BitVec.ofNat 64 (n % 2 ^ 36) }
  | .fabric i => { s with fabric := s.fabric.set i (fabricOf v) }
  | .expwin => { s with expwin := BitVec.ofNat 64 (n % 2 ^ 14) }
  | .ctxhb i => modCtx s i fun x => if x.en then x else { x with hbase := n % 2 ^ 48 }
  | .ctxtb i => modCtx s i fun x => if x.en then x else { x with tbase := n % 2 ^ 48 }
  | .ctxts i => modCtx s i fun x => if x.en then x else { x with tsize := n % 2 ^ 21 }
  | .ctxAck i => modCtx s i fun x => { x with
      refused := x.refused && !v.getLsbD 6, part := if x.en then x.part else bf n 1 4 }
  | .attAck => if v.getLsbD 2 then { s with attDone := false } else s
  | .nonce i => if s.attBusy then s else { s with nonce := s.nonce.set i v }
  | .debug .. | .bwcfg | .pcfg _ | .netcfg _ | .fstat _ | .half .. | .msixTable .. => s
/-- NETCFG as it is stored (25 Table 25.2). -/
def netcfgOf (n : Nat) : Word64 := BitVec.ofNat 64 (Nat.max 1 (bf n 0 16) + bf n 16 1 * 2 ^ 16)
/-- A register of the Lichen control space, or FSTAT, written. -/
def lichenReg (s : State) (r : DevReg) (v : Word64) : State :=
  let n := v.toNat
  match r with
  | .debug c k => modCl s c fun x => debugAfter x k v
  | .bwcfg => { s with bwNext := Nat.max 1 (Nat.min (bf n 0 17) 94120) }
  | .pcfg p => modPart s p fun x => pcfgAfter x v
  | .netcfg p => modPart s p fun x => { x with netcfg := netcfgOf n }
  | .fstat c => if v.getLsbD 6 then modCl s c fun x => { x with refused := false } else s
  | _ => s
/-- The Lichen cluster writes the register, or the driver through its window. -/
def isLichen (r : DevReg) : Bool :=
  match r with
  | .debug .. | .bwcfg | .pcfg _ | .netcfg _ | .fstat _ => true
  | _ => false
/-- A register with RC fields read. -/
def readRc (s : State) (r : RcReg) : State :=
  match r with
  | .qerr q => modQ s q fun x => { x with errCause := 0, errCount := 0 }
  | .herr => { s with sealw := 0, closed := 0 }
  | .tstat => { s with stepped := false }
  | .errstat => { s with errlost := 0 }
  | .soft unit k => { s with soft := tset 0 s.soft (unit * 8 + k) 0 }
/-- READ_CLEAR: a host's read before stage 5 returns zero and clears nothing (R417); the Lichen cluster reads the
soft-error counters (R351). -/
def execReadClear (r : RcReg) (s : State) : Host.Outcome State Fault Refusal :=
  .next (match r with
    | .soft .. => readRc s r
    | _ => if s.stage = 5 then readRc s r else s)
/-- ACCW_WRITE (19 R344): one half of the word. -/
def writeAccw (s : State) (hi : Bool) (v : Word64) : State :=
  if s.accepted then s
  else
    let lo := if hi then s.accw.extractLsb' 0 64 else v &&& s.capw.extractLsb' 0 64
    let up := if hi then v &&& s.capw.extractLsb' 64 64 else s.accw.extractLsb' 64 64
    { s with accw := up ++ lo }
/-- ACCW_WRITE. -/
def execAccwWrite (hi : Bool) (v : Word64) (s : State) : Host.Outcome State Fault Refusal :=
  .next (hostWrite s fun s => writeAccw s hi v)

/-! BAR 2 (26 R418). -/

/-- BAR2_ACCESS (26 R418, 22 R379). -/
def bar2 (s : State) (write : Bool) (off size : Nat) (v : Word64) : State :=
  let pa := s.bar2Win * 2 ^ 36 + off
  if !s.bar2En then { s with closed := satInc s.closed 65535 }
  else if !write then s
  else if inArea s pa || inArea s (pa + size - 1) then { s with closed := satInc s.closed 65535 }
  else if sealed s pa || sealed s (pa + size - 1) then { s with sealw := satInc s.sealw 65535 }
  else forget (writeDev s pa v.toNat size) .m pa size
/-- BAR2_ACCESS. -/
def execBar2Access (write : Bool) (off size : Nat) (v : Word64) (s : State) : Host.Outcome State Fault Refusal :=
  .next (bar2 s write off size v)

/-! Contexts (22 R379). -/

/-- A region lies within a partition's memory (12 R223): its last byte, and one of each GiB that it reaches. -/
def areaIn (s : State) (part a n : Nat) : Bool :=
  decide (0 < n) && inPart s part (a + n - 1) && (List.range ((n - 1) / 2 ^ 30 + 1)).all fun i => inPart s part (a + i * 2 ^ 30)
/-- The descriptor of handle 0 or 1 is one that a context may be enabled with. -/
def firstOk (s : State) (c : Ctx) (h : Nat) : Bool :=
  let v := rdBytes s.mem (descAddr c h) 256
  let d := descOf v
  let a := axisAt d 0
  d.valid && d.rank == 1 && imageOk (v - bf v 48 3 * 2 ^ 48) (c.tsize * 4096) &&
  decide (pubStart a + 16 * a.count ≤ c.tsize * 4096)
/-- Handle 0 or 1 as it is taken over: own 0, wcount equal to count. -/
def takeFirst (s : State) (i h : Nat) : State :=
  let a := axisAt (getDesc s i h) 0
  setAxis s i h 0 { a with owner := none, wcount := a.count }
/-- Every check of an enable. -/
def ctxOk (s : State) (c : Ctx) : Bool :=
  c.hbase % 4096 == 0 && c.tbase % 4096 == 0 && areaIn s c.part c.hbase (2 ^ 20) &&
  decide (c.tsize ≤ 2 ^ 20) && areaIn s c.part c.tbase (c.tsize * 4096) && firstOk s c 0 && firstOk s c 1
/-- CONTEXT_ENABLE (22 R379): a write of CTXCTL that sets en. -/
def enableCtx (s : State) (i : Nat) (v : Word64) : State :=
  let ack := fun (x : Ctx) => if v.getLsbD 6 then { x with refused := false } else x
  let c := getCtx s i
  if c.en then modCtx s i ack
  else
    let d := { c with part := bf v.toNat 1 4 }
    if !ctxOk s d then modCtx s i fun _ => ack { d with bad := true }
    else
      let t := modCtx { s with mem := zeroBytes s.mem (d.hbase + 512) (4094 * 256) } i fun _ =>
        ack { d with en := true, bad := false }
      takeFirst (takeFirst t i 0) i 1
/-- CONTEXT_ENABLE. -/
def execContextEnable (i : Nat) (v : Word64) (s : State) : Host.Outcome State Fault Refusal :=
  .next (hostWrite s fun s => enableCtx s i v)
/-- A queue of the context holds a packet, or a launch of it runs. -/
def ctxBusy (s : State) (i : Nat) : Bool :=
  (s.queues.any fun x => qCtx x.2 == i &&
    (x.2.tail != x.2.head || x.2.dtail != x.2.dhead || !x.2.ahead.isEmpty || x.2.prol.isSome)) ||
  s.comps.any fun x => x.2.live && x.2.ctx == i
/-- CONTEXT_DISABLE (22 R379). -/
def disableCtx (s : State) (i : Nat) : State :=
  modCtx s i fun x => if !x.en then x else if ctxBusy s i then { x with refused := true } else { x with en := false }
/-- CONTEXT_DISABLE. -/
def execContextDisable (i : Nat) (s : State) : Host.Outcome State Fault Refusal := .next (hostWrite s fun s => disableCtx s i)

/-! Clusters and memory of partitions (12 R223). -/

/-- CPART_WRITE (12 R223): the new part waits for the cluster to empty. -/
def writeCpart (s : State) (cl : Nat) (v : Word64) : State :=
  let p := bf v.toNat 0 4
  if p = (getCl s cl).part then
    let t := modCl s cl fun c => { c with newPart := none }
    postNew t (roomEvs t [])
  else post (modCl s cl fun c => { c with newPart := some p }) [.cpart cl]
/-- CPART_WRITE. -/
def execCpartWrite (cluster : Nat) (v : Word64) (s : State) : Host.Outcome State Fault Refusal :=
  .next (hostWrite s fun s => writeCpart s cluster v)
/-- The cluster holds no workgroup, Saved ones and pipeline buffers counted. -/
def clusterEmpty (s : State) (cl : Nat) : Bool := (sliceRuns s cl).isEmpty && !s.wgs.any fun w => w.2.live && w.2.cluster == cl
/-- The stage that holds the fewest clusters, the first among equals. -/
def leastStage (s : State) (stages : List Nat) : Option Nat :=
  stages.foldl (fun best l => match best with
    | none => some l
    | some b => if (getL s l).clusters.length < (getL s b).clusters.length then some l else some b) none
/-- The cluster dealt to a stage of each pipeline of its partition. DEDUCED (log 102): 12 R223 lets a pipeline accepted without
clusters wait for one, and 23 R393 deals clusters to stages in turn. -/
def joinStages (s : State) (cl p : Nat) : State :=
  let mine := s.pipes.filter fun x => x.2.live && x.2.stages.any fun l => (getL s l).part == p
  mine.foldl (fun t x => match leastStage t x.2.stages with
    | some l => modL t l fun y => { y with clusters := (List.range 192).filter fun c => c == cl || y.clusters.contains c }
    | none => t) s
/-- CPART_TAKES_EFFECT (12 R223, 21 R356): the cluster leaves its stages; its buckets start at 0. -/
def moveCpart (s : State) (cl : Nat) : State :=
  match (getCl s cl).newPart with
  | none => s
  | some p =>
    if !clusterEmpty s cl then s
    else
      let t := modCl s cl fun c => { c with part := p, newPart := none, buckets := List.replicate 16 0 }
      let u := { t with launches := t.launches.map fun l =>
        (l.1, { l.2 with clusters := l.2.clusters.filter fun c => c != cl }) }
      postNew (joinStages u cl p) (roomEvs u [])
/-- CPART_TAKES_EFFECT. -/
def execCpartTakesEffect (cluster : Nat) (s : State) : Host.Outcome State Fault Refusal := .next (moveCpart s cluster)
/-- Two PMEM ranges, both valid, share a GiB. -/
def pmemClash (a b : Nat) : Bool :=
  bf a 20 1 == 1 && bf b 20 1 == 1 && decide (bf a 0 10 ≤ bf b 10 10) && decide (bf b 0 10 ≤ bf a 10 10)
/-- PMEM_WRITE (12 R223). -/
def writePmem (s : State) (p j : Nat) (v : Word64) : State :=
  let n := v.toNat % 2 ^ 21
  let clash := (List.range 16).any fun q => q != p && (getPart s q).pmem.any fun r => pmemClash n r.toNat
  if bf n 10 10 < bf n 0 10 || clash then s else modPart s p fun x => { x with pmem := x.pmem.set j (BitVec.ofNat 64 n) }
/-- PMEM_WRITE. -/
def execPmemWrite (part j : Nat) (v : Word64) (s : State) : Host.Outcome State Fault Refusal :=
  .next (hostWrite s fun s => writePmem s part j v)

/-! Attestation (26 R425) and time (26 R426). -/

/-- ATTESTATION_GO. -/
def execAttestationGo (s : State) : Host.Outcome State Fault Refusal :=
  .next (hostWrite s fun s => { s with attBusy := true })
/-- Bytes of a number, little-endian. -/
def bytesLE (v n : Nat) : List Byte := (List.range n).map fun i => BitVec.ofNat 8 (v / 2 ^ (8 * i))
/-- The ξ of ML-DSA-87 key generation (R423): the first 32 bytes of the identity seed. -/
def identityXi : List Byte := (List.range 32).map (Config.sha3 (Config.pufSeed ++ Config.manifestSalt))
/-- The identity public key (R423). -/
def identityKey : List Byte := (List.range 2592).map (Config.mldsaPublic identityXi)
/-- The report before its signature (26 Table 26.4). -/
def reportBody (s : State) : List Byte :=
  s.nonce.flatMap (fun w => bytesLE w.toNat 8) ++ (List.range 256).map Config.attKey ++ bytesLE s.devid.toNat 8 ++
  bytesLE s.timens.toNat 8 ++ identityKey
/-- ATTESTATION_DONE (R425). -/
def endAttestation (s : State) : State :=
  if !s.attBusy then s
  else
    let b := reportBody s
    raiseVec { s with attBusy := false, attDone := true, report := b ++ (List.range 4627).map (Config.attSign b) } 32
/-- ATTESTATION_DONE. -/
def execAttestationDone (s : State) : Host.Outcome State Fault Refusal := .next (endAttestation s)
/-- Slots that the time has moved back over fall again where none of them was taken (19 R342). -/
def rebase (s : State) (e : TtEntry) : TtEntry :=
  match e.base, ttSlotNow s e with
  | some b, some k => { e with base := some (Nat.min b k) }
  | _, none => { e with base := none }
  | none, _ => e
/-- TIME_CORRECTION (26 R426): the measured offset; up to 1 µs it is slewed away within the passing of time (log 5). -/
def correctTime (s : State) (ahead : Bool) (ns : Nat) : State :=
  if ns ≤ 1000 then { s with locked := true }
  else
    let d := BitVec.ofNat 64 ns
    let t := { s with locked := true, stepped := true, timens := if ahead then s.timens - d else s.timens + d }
    { t with tt := t.tt.map fun x => (x.1, rebase t x.2) }
/-- TIME_CORRECTION. -/
def execTimeCorrection (ahead : Bool) (ns : Nat) (s : State) : Host.Outcome State Fault Refusal :=
  .next (correctTime s ahead ns)

/-! Soft errors (26 R427, R428; 20 Table 20.3). -/

/-- A save that an error in shadow storage of a cluster hits: its launch is cancelled (R427). -/
def loseShadow (s : State) (cl i : Nat) : State :=
  match ((getCl s cl).saves.filter fun x => x.inShadow != 0)[i]? with
  | some x =>
    let l := if x.slot then (getW s x.key).launch else x.key / 2 ^ 64
    cancelComp (postCause s l 0x1F3 0 0) (getL s l).comp
  | none => s
/-- A latch bank of the log array with an uncorrectable error (11 R217): 0 to 3 for side and bank. -/
def hurtLatch (c : Cluster) (i : Nat) : Cluster :=
  match i with
  | 0 => { c with sideA := { c.sideA with bank0 := { c.sideA.bank0 with bad := true } } }
  | 1 => { c with sideA := { c.sideA with bank1 := { c.sideA.bank1 with bad := true } } }
  | 2 => { c with sideB := { c.sideB with bank0 := { c.sideB.bank0 with bad := true } } }
  | _ => { c with sideB := { c.sideB with bank1 := { c.sideB.bank1 with bad := true } } }
/-- A register row that replay does not cure (26 Table 26.5): the fibre traps at the group it issues next. -/
def hurtRow (s : State) (k : Nat) : State :=
  onAgent s (.vec k) fun s =>
    match s.f.st with
    | .ready | .issuing => if s.f.saved then s else eventFault s 0x1F0 (act s) 0
    | .absent | .ended | .waiting _ => s
/-- The mxmul whose saved cursor fails (11 R217): its stream takes the cause at the group that holds it. DESIGN CHOICE (log 100): the
spec does not say what becomes of the mxmul; here it stays in the sequencer and runs to its end, and `tret` with resume 0 issues its
group again. -/
def hurtCursor (s : State) : State :=
  let mul := (getCl s (curCl s)).ops.findSome? fun o => match o with
    | .mul _ _ _ _ _ p => some p
    | .zero _ | .drain .. => none
  match mul with
  | some p =>
    let w := wordWhere s p fun w => fld w 24 6 == 0x3C && fld w 21 3 == 0
    if s.f.saved then holdFail s ⟨0x1A5, w.2, 0, 1, false, inHandler s.f, some p, w.1⟩ else s
  | none => s
/-- Where an uncorrectable error goes (26 Table 26.5), by its cause: the unit (a vector core for 0x1F0), and `pa` a physical address, a slice
offset, a latch bank from 2^20 on, an accumulator, a saved workgroup, a command's place in its queue or a fibre. -/
def hurt (s : State) (cause unit pa : Nat) : State :=
  match cause with
  | 0x1F0 => hurtRow (softInc s 0 unit 1) pa
  | 0x1F2 =>
    if pa < 2 ^ 20 then softInc (modCl s unit fun c => { c with bad := c.bad ++ [pa / 4] }) 1 unit 1
    else softInc (modCl s unit fun c => hurtLatch c (pa - 2 ^ 20)) 1 unit 5
  | 0x1F3 => loseShadow (softInc s 1 unit 3) unit pa
  | 0x1F4 => softInc { s with memBad := s.memBad ++ [pa / 4], cacheBad := s.cacheBad ++ [pa / 4] } 2 (memSlice pa) 1
  | 0x1F5 => softInc { s with memBad := s.memBad ++ [pa / 4] } 2 (memSlice pa) 4
  | 0x1F7 => softInc (modCl s unit fun c => { c with accs := c.accs.modify pa fun a => { a with poison := true } }) 1 unit 5
  | 0x187 => faultCmd s unit 0x187 pa
  | 0x1A5 =>
    onAgent s (.frond unit) hurtCursor
  | _ => s
/-- The logical cluster or slice of an error's record (R428). -/
def errorPlace (kind unit pa : Nat) : Nat :=
  match kind with
  | 0x1F0 => unit / 4
  | 0x1F4 | 0x1F5 => memSlice pa
  | _ => unit
/-- ERROR_RECORD (R427, R428): an uncorrectable event and its record. -/
def execErrorRecord (kind unit : Nat) (pa : Nat) (s : State) : Host.Outcome State Fault Refusal :=
  .next (writeError (hurt s kind unit pa) kind (errorPlace kind unit pa) (if kind = 0x1F4 ∨ kind = 0x1F5 then pa else 0))
/-- Sum of the soft-error counters of a kind of unit, one row of 20 Table 20.3. -/
def softSum (s : State) (kind : Nat) : Nat :=
  s.soft.foldl (fun n x => if x.1 / 8 / 4096 = kind then n + x.2 else n) 0
/-- STATISTICS_SAMPLE (R428): the Lichen cluster's reads clear the counters (20 R351), the page keeps the sums. -/
def execStatisticsSample (s : State) : Host.Outcome State Fault Refusal :=
  .next { s with
    stats := (List.range 4).map fun i => s.stats.getD i 0 + BitVec.ofNat 64 (softSum s i), soft := [] }
/-- SCRUB (14 R263): in an idle pass of the slice, the single-bit errors of one word row are written back corrected and
counted; no value changes. -/
def scrubRow (s : State) (cl : Nat) : State :=
  let c := getCl s cl
  match c.passes, c.single with
  | [], u :: _ =>
    let row := c.single.filter fun x => x / 32 == u / 32
    row.foldl (fun t _ => softInc t 1 cl 0) (setCl s cl { c with single := c.single.filter fun x => x / 32 != u / 32 })
  | _, _ => s
/-- SCRUB. -/
def execScrub (cluster : Nat) (s : State) : Host.Outcome State Fault Refusal := .next (scrubRow s cluster)
/-- A soft error that is corrected (20 Table 20.3): register parity cured by replay; a single-bit error in word `place` of a
slice (a second one makes the word uncorrectable), counted when it is scrubbed; shadow storage, log array,
translation cache (17 R304), slice cache, LPDDR6 link, LPDDR6 die; the path of a copy command (16 R294). -/
def correctable (s : State) (kind unit place : Nat) : State :=
  match kind with
  | 0 => softInc s 0 unit 0
  | 1 =>
    if (getCl s unit).single.contains place then
      softInc (modCl s unit fun c => { c with single := c.single.filter (· != place), bad := c.bad ++ [place] }) 1 unit 1
    else modCl s unit fun c => { c with single := c.single ++ [place] }
  | 2 => softInc s 1 unit 2
  | 3 => softInc s 1 unit 4
  | 4 => softInc s 1 unit 7
  | 5 => softInc s 2 unit 0
  | 6 => softInc s 2 unit 2
  | 7 => softInc s 2 unit 3
  | 8 => repeatLine s unit
  | _ => s
/-- LPDDR6_REFRESH (21 R359): time only. -/
def execLpddr6Refresh (_channel _bank : Nat) (s : State) : Host.Outcome State Fault Refusal := .next s

/-! Resets, boot, power and temperature (26 R421, R422; 27 R432, R433). -/

/-- An event that the environment placed. -/
def isEnv (e : Ev) : Bool :=
  match e with
  | .env _ | .softError .. => true
  | _ => false
/-- What no reset of the device touches: host and peers, the environment's plan, the free-value counter. -/
def keepOutside (s t : State) : State :=
  { t with evq := s.evq.filter isEnv, sched := s.sched, bootEnds := s.bootEnds, tick := s.tick, tick0 := s.tick, hostMem := s.hostMem, peerMem := s.peerMem }
/-- The manifest applied (26 R421, step 3); `pcfg`: its PCFG defaults too. Buckets take their own refill (21 R356). -/
def applyManifest (pcfg : Bool) (s : State) : State :=
  let budget := Nat.max 1 (Nat.min Config.budget 94120)
  fillBuckets { s with
    devid := Config.devid, clusterMap := (List.range 192).map fun c => Config.clusterPlace c % 52
    capw := Config.capw &&& 0x1FFFFF#128, bwBudget := budget, bwNext := budget
    clusters := (List.range 192).foldl (fun m c =>
      tset Cluster.reset m c { Cluster.reset with part := (Config.clusterPart c).toNat }) []
    parts := (List.range 16).foldl (fun m p =>
      let x : Part := if pcfg then inEffect { Part.reset with next := pcfgOf (Config.pcfg p).toNat } else Part.reset
      tset Part.reset m p { x with
        netcfg := netcfgOf (Config.netcfg p).toNat
        pmem := (List.range 4).map fun j => BitVec.ofNat 64 (Config.pmem p j).toNat }) [] }
/-- Boot to stage 5 (26 R421): memory zero, every register at its reset value, vector 32. A function-level reset repeats
steps 4 to 6 only, and partitions return to their reset values. -/
def bootAll (pcfg : Bool) (s : State) : State :=
  raiseVec (keepOutside s { applyManifest pcfg State.reset with stage := 5 }) 32
/-- Boot that fails with a code (26 R422): only in steps 4 and 5, codes 7 and 6, has the manifest been applied. -/
def bootFail (pcfg : Bool) (s : State) (code : Nat) : State :=
  keepOutside s { (if code = 6 ∨ code = 7 then applyManifest pcfg State.reset else State.reset) with stage := 7, fcode := code }
/-- Steps 1 to 6, or 4 to 6, of boot: `fcode` 0 where every step completes. -/
def boot (pcfg : Bool) (s : State) (fcode : Nat) : State := if fcode = 0 then bootAll pcfg s else bootFail pcfg s fcode
/-- Steps 1 to 3 have completed: the part has reached stage 2. -/
def manifestStands (s : State) : Bool := s.stage != 0 && !(s.stage == 7 && decide (1 ≤ s.fcode ∧ s.fcode ≤ 5))
/-- POWER_GOOD (27 R432, 26 R421, R422): `fcode` 0 where every step completes. -/
def execPowerGood (fcode : Fin 8) (s : State) : Host.Outcome State Fault Refusal := .next (boot true s fcode.val)
/-- POWER_LOSS (27 R432). -/
def execPowerLoss (s : State) : Host.Outcome State Fault Refusal :=
  .next (keepOutside s { State.reset with power := false, thermTrip := s.thermTrip })
/-- How the next reset's boot ends, as the environment has it (R422; log 51): one that repeats steps 4 to 6 can fail in these only,
codes 7 and 6. -/
def bootEnd (pcfg : Bool) (s : State) : Nat :=
  let c := (s.bootEnds.headD 0).val
  if pcfg || decide (6 ≤ c) then c else 0
/-- Boot after a reset. -/
def reboot (pcfg : Bool) (s : State) : State := boot pcfg { s with bootEnds := s.bootEnds.tail } (bootEnd pcfg s)
/-- CONVENTIONAL_RESET (26 R421): steps 1 to 6. -/
def execConventionalReset (s : State) : Host.Outcome State Fault Refusal := .next (reboot true s)
/-- FUNCTION_LEVEL_RESET (26 R421): a device reset, steps 4 to 6; a part whose steps 1 to 3 have not completed stays closed as it was
(R422). -/
def execFunctionLevelReset (s : State) : Host.Outcome State Fault Refusal :=
  .next (if manifestStands s then reboot false s else keepOutside s { State.reset with stage := s.stage, fcode := s.fcode })
/-- THERMAL_REPORT (27 R433). -/
def reportHeat (s : State) (die celsius : Nat) : State :=
  let s1 := if 115 < celsius then { s with thermTrip := true } else s
  if 100 < celsius ∧ !s1.hot.contains die then writeError { s1 with hot := s1.hot ++ [die] } 0 die 0
  else if celsius < 95 then { s1 with hot := s1.hot.filter (· != die) }
  else s1
/-- THERMAL_REPORT. -/
def execThermalReport (die celsius : Nat) (s : State) : Host.Outcome State Fault Refusal := .next (reportHeat s die celsius)

end Sys2Proof.Machine
end

