-- ==== Sys2Proof/Machine/HostRead.lean ====
section
/-! DEFINITION. What a host's read of a register returns: BAR 0 (26 Table 26.1, R417), the management window onto the Lichen
control space (26 Table 26.6, R430), BAR 2 (26 R418). RW and RO fields read as they stand, WO fields and reserved bits as
zero (00 R4, R5); what a read of an RC field clears is `readRc`. -/

namespace Sys2Proof.Machine

/-- Fields by the place of their lowest bit. -/
def regBits (l : List (Nat × Nat)) : Word64 := BitVec.ofNat 64 (l.foldl (fun n x => n + x.2 * 2 ^ x.1) 0)
/-- The queue block's registers in order (22 Table 22.2). -/
def queueReg (x : Queue) (r : Nat) : Word64 :=
  match r with
  | 0 => x.qctl
  | 1 => x.qbase
  | 2 => regBits [(0, x.tail.toNat)]
  | 3 => regBits [(0, x.head.toNat)]
  | 4 => x.dqbase
  | 5 => regBits [(0, x.dtail.toNat), (32, x.dhead.toNat)]
  | 6 => regBits [(0, x.errCause), (16, x.errCount)]
  | 7 => regBits [(0, x.done.toNat)]
  | _ => 0
/-- PRECTL (22 Table 22.7). -/
def prectlReg (x : Part) : Word64 := regBits [(4, x.pre), (7, x.refused.toNat)]
/-- DEVSTAT (26 Table 26.2). -/
def devstatReg (s : State) : Word64 := regBits [(0, s.stage), (3, s.fcode), (11, if 2 ≤ s.stage then s.devid.toNat else 0)]
/-- HERR (26 Table 26.3). -/
def herrReg (s : State) : Word64 := regBits [(0, s.sealw), (16, s.closed)]
/-- A time-triggered entry's words (19 Table 19.6). -/
def ttReg (e : TtEntry) (w : Nat) : Word64 := [e.w0, e.phase, e.period, e.pkt].getD w 0
/-- A context block's registers (22 Table 22.10). -/
def ctxReg (c : Ctx) (r : Nat) : Word64 :=
  match r with
  | 0 => regBits [(0, c.en.toNat), (1, c.part), (5, c.bad.toNat), (6, c.refused.toNat)]
  | 1 => regBits [(0, c.hbase)]
  | 2 => regBits [(0, c.tbase)]
  | 3 => regBits [(0, c.tsize)]
  | _ => 0
/-- The nested cause among what a fibre waits for. -/
def heldCause : List Cond2 → Nat
  | [] => 0
  | .held n _ :: _ => n
  | _ :: r => heldCause r
/-- HOLD of a cluster (10 Table 10.8, R191): the held fibre or stream and its nested cause. -/
def holdReg (s : State) (cl : Nat) : Word64 :=
  match heldAgent s cl with
  | none => 0
  | some a =>
    let k := fibKey a
    let cause := match (getF s k).st with
      | .waiting cs => heldCause cs
      | .absent | .ready | .issuing | .ended => 0
    match a with
    | .vec k => regBits [(0, 1), (1, k / 64 % 4), (3, k / 4 % 16), (7, k % 4), (10, cause)]
    | .frond _ | .prol _ | .none => regBits [(0, 1), (9, 1), (10, cause)]
/-- The debug block of a cluster (10 Table 10.8). -/
def debugReg (s : State) (cl r : Nat) : Word64 :=
  let c := getCl s cl
  match r with
  | 0 => c.brk0
  | 1 => c.brk1
  | 2 => c.wpt
  | 3 => c.sstep
  | 4 => holdReg s cl
  | _ => 0
/-- PCFG (21 Table 21.2): as last written, and the clusters of the partition. -/
def pcfgReg (s : State) (p : Nat) : Word64 :=
  regBits [(0, (getPart s p).next.toNat), (32, (partClusters s p).length)]
/-- CPART (12 Table 12.9): a new part that waits reads as written. -/
def cpartReg (c : Cluster) : Word64 := regBits [(0, c.newPart.getD c.part), (4, c.newPart.isSome.toNat)]
/-- A soft-error counter by the unit's kind (20 Table 20.3). -/
def softReg (s : State) (kind unit k : Nat) : Word64 := regBits [(0, tget 0 s.soft (softKey kind unit k))]
/-- Link l of the control space: router l / 16, its seven row links and then its nine column links (log 79). -/
def linkAt (l : Nat) : Nat :=
  let r := l / 16
  let i := l % 16
  linkId r (if i < 7 then (if i < r % 8 then i else i + 1) else if i - 7 < r / 8 then i + 1 else i + 2)
/-- A register of the Lichen control space (26 Table 26.6). -/
def lichenRead (s : State) (o : Nat) : Word64 :=
  if o = 0x100 then regBits [(0, s.bwNext)]
  else if 0x200 ≤ o ∧ o < 0x280 then pcfgReg s ((o - 0x200) / 8)
  else if 0x300 ≤ o ∧ o < 0x380 then (getPart s ((o - 0x300) / 8)).netcfg
  else if 0x400 ≤ o ∧ o < 0xA00 then cpartReg (getCl s ((o - 0x400) / 8))
  else if 0xC00 ≤ o ∧ o < 0xE00 then (getPart s ((o - 0xC00) / 32)).pmem.getD (o / 8 % 4) 0
  else if 0x10000 ≤ o ∧ o < 0x10000 + 16 * 768 then softReg s 0 ((o - 0x10000) / 16) (o / 8 % 2)
  else if 0x20000 ≤ o ∧ o < 0x20000 + 64 * 192 then softReg s 1 ((o - 0x20000) / 64) (o / 8 % 8)
  else if 0x30000 ≤ o ∧ o < 0x30000 + 64 * 64 then softReg s 2 ((o - 0x30000) / 64) (o / 8 % 8)
  else if 0x40000 ≤ o ∧ o < 0x40000 + 16 * 1280 then softReg s 3 (linkAt ((o - 0x40000) / 16)) (o / 8 % 2)
  else if 0x50000 ≤ o ∧ o < 0x50000 + 64 * 192 then debugReg s ((o - 0x50000) / 64) (o / 8 % 8)
  else 0
/-- Eight bytes of a list. -/
def bytesAt (l : List Byte) (o : Nat) : Word64 := regBits ((List.range 8).map fun i => (8 * i, (l.getD (o + i) 0).toNat))
/-- An 8-byte half of the MSI-X table, and the pending bits (R416; log 94). -/
def msixReg (s : State) (o : Nat) : Word64 :=
  if o < 16 * 33 then (s.msixTab.getD (o / 16) 0).extractLsb' (8 * (o % 16)) 64
  else if o = 0x1000 then regBits (s.msixPend.map fun v => (v, 1))
  else 0
/-- A register of BAR 0 at a multiple of 8, the part being open. -/
def bar0Reg (s : State) (o : Nat) : Word64 :=
  if o < 0x800 then queueReg (getQ s (o / 64)) (o / 8 % 8)
  else if 0x1000 ≤ o ∧ o < 0x1080 then prectlReg (getPart s ((o - 0x1000) / 8))
  else if o = 0x2000 ∨ o = 0x2008 then s.capw.extractLsb' (8 * (o - 0x2000)) 64
  else if o = 0x2010 ∨ o = 0x2018 then s.accw.extractLsb' (8 * (o - 0x2010)) 64
  else if o = 0x2100 then s.timens
  else if o = 0x2108 then regBits [(0, s.locked.toNat), (1, s.stepped.toNat)]
  else if o = 0x2200 then devstatReg s
  else if o = 0x2208 then regBits [(0, s.hostEn.toNat), (1, s.hostLg)]
  else if o = 0x2210 then regBits [(0, s.bar2En.toNat), (1, s.bar2Win)]
  else if o = 0x2218 then herrReg s
  else if o = 0x2220 then s.errbase
  else if o = 0x2228 then s.errctl
  else if o = 0x2230 then regBits [(0, s.errtail.toNat), (32, s.errlost)]
  else if 0x3000 ≤ o ∧ o < 0x3800 then ttReg (getTt s ((o - 0x3000) / 32)) (o / 8 % 4)
  else if 0x4000 ≤ o ∧ o < 0x4200 then s.fabric.getD ((o - 0x4000) / 8) 0
  else if o = 0x4200 then s.expwin
  else if 0x5000 ≤ o ∧ o < 0x6000 then ctxReg (getCtx s ((o - 0x5000) / 64)) (o / 8 % 8)
  else if o = 0x6000 then regBits [(1, s.attBusy.toNat), (2, s.attDone.toNat)]
  else if 0x6040 ≤ o ∧ o < 0x6080 then s.nonce.getD ((o - 0x6040) / 8) 0
  else if 0x8000 ≤ o ∧ o < 0xA000 then bytesAt s.report (o - 0x8000)
  else if 0xA000 ≤ o ∧ o < 0xB000 then s.stats.getD ((o - 0xA000) / 8) 0
  else if 0xC000 ≤ o ∧ o < 0xC000 + 64 * 192 then debugReg s ((o - 0xC000) / 64) (o / 8 % 8)
  else if 0x10000 ≤ o ∧ o < 0x12000 then msixReg s (o - 0x10000)
  else if 0x80000 ≤ o ∧ o < 0x100000 then lichenRead s (o - 0x80000)
  else 0
/-- A host's read of BAR 0 of 8 bytes, or of 4: one half of a register (R417). Before stage 5 only DEVSTAT is seen. -/
def hostRead (s : State) (off size : Nat) : Option Nat :=
  let o := off / 8 * 8
  let v := if s.stage = 5 ∨ o = 0x2200 then bar0Reg s o else 0
  some (if size = 8 then v.toNat else bf v.toNat (off % 8 * 8) 32)
/-- A host's read of BAR 2 (R418): zero while it is closed. -/
def bar2Read (s : State) (off size : Nat) : Nat := if s.bar2En then rdBytes s.mem (s.bar2Win * 2 ^ 36 + off) size else 0
/-- The PCIe Revision ID in configuration space (27 R435, 26 R420). -/
def revisionId (s : State) : BitVec 8 := s.revId

end Sys2Proof.Machine
end

