-- ==== Sys2Proof/Machine/HostWrite.lean ====
section
/-! DEFINITION. A write of a register of BAR 0 (26 R416, R417, R430): a whole register, or four bytes of one. -/

namespace Sys2Proof.Machine

/-- An 8-byte half of an MSI-X table entry written; a vector that is no longer masked is no longer pending (R416; log 94). -/
def writeMsix (s : State) (i : Nat) (hi : Bool) (v : Word64) : State :=
  let old := s.msixTab.getD i 0
  let e := if hi then (v &&& 0x1FFFFFFFF#64) ++ old.extractLsb' 0 64
    else old.extractLsb' 64 64 ++ (v &&& 0xFFFFFFFFFFFFFFFC#64)
  { s with
    msixTab := s.msixTab.set i e
    msixPend := if bf e.toNat 96 1 = 1 then s.msixPend else s.msixPend.filter (· != i) }
/-- A register that starts nothing, at a multiple of 8 (Tables 26.1, 26.6); none: one whose writes act on its low half, one that is
only read, or nothing. -/
def plainReg (o : Nat) : Option DevReg :=
  if o < 0x800 then
    match o / 8 % 8 with
    | 1 => some (.qbase (o / 64))
    | 4 => some (.dqbase (o / 64))
    | _ => none
  else if o = 0x2208 then some .hostwin
  else if o = 0x2210 then some .bar2ctl
  else if o = 0x2220 then some .errbase
  else if o = 0x2228 then some .errctl
  else if 0x4000 ≤ o ∧ o < 0x4200 then some (.fabric ((o - 0x4000) / 8))
  else if o = 0x4200 then some .expwin
  else if 0x5000 ≤ o ∧ o < 0x6000 then
    match o / 8 % 8 with
    | 1 => some (.ctxhb ((o - 0x5000) / 64))
    | 2 => some (.ctxtb ((o - 0x5000) / 64))
    | 3 => some (.ctxts ((o - 0x5000) / 64))
    | _ => none
  else if 0x6040 ≤ o ∧ o < 0x6080 then some (.nonce ((o - 0x6040) / 8))
  else if 0xC000 ≤ o ∧ o < 0xC000 + 64 * 192 ∧ o / 8 % 8 < 4 then some (.debug ((o - 0xC000) / 64) (o / 8 % 8))
  else if 0x10000 ≤ o ∧ o < 0x10000 + 16 * 33 then some (.msixTable ((o - 0x10000) / 16) (o / 8 % 2 == 1))
  else if o = 0x80100 then some .bwcfg
  else if 0x80200 ≤ o ∧ o < 0x80280 then some (.pcfg ((o - 0x80200) / 8))
  else if 0x80300 ≤ o ∧ o < 0x80380 then some (.netcfg ((o - 0x80300) / 8))
  else if 0xD0000 ≤ o ∧ o < 0xD0000 + 64 * 192 ∧ o / 8 % 8 < 4 then some (.debug ((o - 0xD0000) / 64) (o / 8 % 8))
  else none
/-- A whole register written. -/
def putReg (s : State) (r : DevReg) (v : Word64) : State :=
  match r with
  | .msixTable i hi => writeMsix s i hi v
  | _ => if isLichen r then lichenReg s r v else hostReg s r v
/-- A PRECTL command and its acknowledgement (22 Table 22.7). -/
def writePrectl (s : State) (p : Nat) (v : Word64) : State :=
  let t := hostReg s (.prectlAck p) v
  match bf v.toNat 0 3 with
  | 1 => drainPart t p
  | 2 => forcePart t p
  | 3 => restorePart t p
  | 4 => evictPart t p
  | _ => t
/-- RELEASE of a cluster's debug block (10 Table 10.8). -/
def writeRelease (s : State) (cl : Nat) (v : Word64) : State :=
  match bf v.toNat 0 2, heldAgent s cl with
  | 1, some a => onAgent s a endHeld
  | 2, some a => onAgent s a returnHeld
  | _, _ => s
/-- The register at o written with the value v, which stands for both of its halves; `hi`: the high half is the one written, so that
nothing starts (R417). -/
def putAt (s : State) (o : Nat) (hi : Bool) (v : Word64) : State :=
  match plainReg o with
  | some r => putReg s r v
  | none =>
    if o = 0x2010 ∨ o = 0x2018 then writeAccw s (o == 0x2018) v
    else if 0x3000 ≤ o ∧ o < 0x3800 then
      (if o / 8 % 4 = 0 ∧ hi then s else ttWrite s ((o - 0x3000) / 32) (o / 8 % 4) v)
    else if 0x80C00 ≤ o ∧ o < 0x80E00 then writePmem s ((o - 0x80C00) / 32) (o / 8 % 4) v
    else if hi then s
    else if o < 0x800 then
      match o / 8 % 8 with
      | 0 => hostReg s (.qctl (o / 64)) v
      | 2 => writeQtail s (o / 64) (v.setWidth 32)
      | _ => s
    else if 0x1000 ≤ o ∧ o < 0x1080 then writePrectl s ((o - 0x1000) / 8) v
    else if 0x5000 ≤ o ∧ o < 0x6000 ∧ o / 8 % 8 = 0 then
      let i := (o - 0x5000) / 64
      if v.getLsbD 0 then enableCtx s i v else disableCtx (hostReg s (.ctxAck i) v) i
    else if o = 0x6000 then
      let t := hostReg s .attAck v
      if v.getLsbD 0 then { t with attBusy := true } else t
    else if 0x80400 ≤ o ∧ o < 0x80A00 then writeCpart s ((o - 0x80400) / 8) v
    else if 0xC000 ≤ o ∧ o < 0xC000 + 64 * 192 ∧ o / 8 % 8 = 5 then writeRelease s ((o - 0xC000) / 64) v
    else if 0xD0000 ≤ o ∧ o < 0xD0000 + 64 * 192 ∧ o / 8 % 8 = 5 then writeRelease s ((o - 0xD0000) / 64) v
    else s
/-- Four bytes of the register at o written: the other half stands as it reads (R417). -/
def putHalf (s : State) (o : Nat) (hi : Bool) (v : Word64) : State :=
  let old := bar0Reg s o
  putAt s o hi (if hi then v.setWidth 32 ++ old.setWidth 32 else old.extractLsb' 32 32 ++ v.setWidth 32)
/-- REGISTER_WRITE: before stage 5 ignored and counted (R417); FSTAT is written on path 0x7. -/
def execRegisterWrite (r : DevReg) (v : Word64) (s : State) : Host.Outcome State Fault Refusal :=
  .next (match r with
    | .fstat _ => lichenReg s r v
    | .half o hi => hostWrite s fun s => putHalf s o hi v
    | _ => hostWrite s fun s => putReg s r v)

end Sys2Proof.Machine
end

