-- ==== Sys2Proof/Machine/StreamOps.lean ====
section
/-! DEFINITION. Major 0x0A (18 R327 to R330) and the fetches of streams (18 R316, R325). -/

namespace Sys2Proof.Machine

/-- The 64 bytes of a record, or a cause: the checks of 12 R220, then features not accepted (19 Table 19.8); poisoned
bytes are read by this word (10 R182). -/
def readRecord (s : State) (va : Word64) : R (BitVec 512) :=
  match locate s (whoCur s) .img va 64 with
  | .error c => .error (.fault c (act s) va)
  | .ok loc => do
    let v := readLoc s loc 64
    need s (!v.2) 0x1F1
    let r := BitVec.ofNat 512 v.1
    need s (!(rcRag r && !feature s 10) && !(rcInd r && !feature s 11)) 0x00A
    return r
/-- `sbind` (R328). -/
def execSbind (p : Pfx) (x : KReg) (st : Fin 4) (s : State) : Host.Outcome State Fault Refusal :=
  .next (runWord (.sbind p x st) (fun s => do
    let va ← readKK s x
    let y := getS s st.val
    need s (y.captor.isNone && !(y.bound && rcOut y.desc && y.writes != 0)) (strCause st.val 7)
    let r ← readRecord s va
    bindStream s st.val r false) s)
/-- `srst` (R329): a bind with the record held. -/
def execSrst (p : Pfx) (st : Fin 4) (s : State) : Host.Outcome State Fault Refusal :=
  .next (runWord (.srst p st) (fun s => do
    let y := getS s st.val
    need s y.bound (strCause st.val 0)
    need s y.captor.isNone (strCause st.val 4)
    bindStream s st.val y.desc true) s)
/-- `sadv` (R329). -/
def execSadv (p : Pfx) (x : KReg) (st : Fin 4) (s : State) : Host.Outcome State Fault Refusal :=
  .next (runWord (.sadv p x st) (fun s => do
    let k ← readK s x
    let y := getS s st.val
    need s y.bound (strCause st.val 0)
    need s y.captor.isNone (strCause st.val 4)
    if k = 0 then return s
    else
      let t := (advance s st.val k.toNat 4).1
      return post t ([fetchEv t st.val] ++ (if rcInd y.desc then [fetchEv t (rcIsrc y.desc)] else []))) s)
/-- `sstat` (R330): the stream as it stood before the group. -/
def execSstat (p : Pfx) (x : KReg) (st : Fin 4) (s : State) : Host.Outcome State Fault Refusal :=
  .next (runWord (.sstat p x st) (fun s =>
    let l := match s.grp with
      | some g => g.f.streams
      | none => s.f.streams
    .ok (writeK s x.val (streamStatus (l.getD st.val Stream.unbound)))) s)
/-- STREAM_FETCH (R316, R325): one element fetched ahead. -/
def fetchStep (s : State) (st : Nat) (ages : List Nat) : State :=
  if s.f.saved then s else
  let t := fetchStream s st ages
  if t.f.streams = s.f.streams then s else fetchMore t st
/-- STREAM_FETCH. -/
def execStreamFetch (a : Agent) (st : Fin 4) (s : State) : Host.Outcome State Fault Refusal :=
  .next (onAgent s a fun s => fetchStep s st.val [])

end Sys2Proof.Machine
end

