-- ==== Sys2Proof/Machine/Dispatch.lean ====
section
/-! DEFINITION. The meaning of every instruction: one arm per constructor. -/

namespace Sys2Proof.Machine

open Sys2Proof

/-- The meaning of an instruction. -/
def exec (i : Instr) (s : State) : Host.Outcome State Fault Refusal :=
  match i with
  | .nop p => Sys2Proof.Machine.execNop p s
  | .halt p => Sys2Proof.Machine.execHalt p s
  | .bra p k o => Sys2Proof.Machine.execBra p k o s
  | .call p o => Sys2Proof.Machine.execCall p o s
  | .ret p => Sys2Proof.Machine.execRet p s
  | .jmp p k => Sys2Proof.Machine.execJmp p k s
  | .brd p m o => Sys2Proof.Machine.execBrd p m o s
  | .join p => Sys2Proof.Machine.execJoin p s
  | .mand p d a b => Sys2Proof.Machine.execMand p d a b s
  | .mor p d a b => Sys2Proof.Machine.execMor p d a b s
  | .mnot p d a => Sys2Proof.Machine.execMnot p d a s
  | .mmov p d a => Sys2Proof.Machine.execMmov p d a s
  | .kadd p d a b => Sys2Proof.Machine.execKadd p d a b s
  | .ksub p d a b => Sys2Proof.Machine.execKsub p d a b s
  | .kand p d a b => Sys2Proof.Machine.execKand p d a b s
  | .kor p d a b => Sys2Proof.Machine.execKor p d a b s
  | .kxor p d a b => Sys2Proof.Machine.execKxor p d a b s
  | .kshl p d a b => Sys2Proof.Machine.execKshl p d a b s
  | .kshrZ32 p d a b => Sys2Proof.Machine.execKshrZ32 p d a b s
  | .kshrS32 p d a b => Sys2Proof.Machine.execKshrS32 p d a b s
  | .kmul p d a b => Sys2Proof.Machine.execKmul p d a b s
  | .kminS32 p d a b => Sys2Proof.Machine.execKminS32 p d a b s
  | .kminZ32 p d a b => Sys2Proof.Machine.execKminZ32 p d a b s
  | .kmaxS32 p d a b => Sys2Proof.Machine.execKmaxS32 p d a b s
  | .kmaxZ32 p d a b => Sys2Proof.Machine.execKmaxZ32 p d a b s
  | .kcmpEq p d a b => Sys2Proof.Machine.execKcmpEq p d a b s
  | .kcmpNe p d a b => Sys2Proof.Machine.execKcmpNe p d a b s
  | .kcmpS32Lt p d a b => Sys2Proof.Machine.execKcmpS32Lt p d a b s
  | .kcmpZ32Lt p d a b => Sys2Proof.Machine.execKcmpZ32Lt p d a b s
  | .kcmpS32Le p d a b => Sys2Proof.Machine.execKcmpS32Le p d a b s
  | .kcmpZ32Le p d a b => Sys2Proof.Machine.execKcmpZ32Le p d a b s
  | .kmov p d a => Sys2Proof.Machine.execKmov p d a s
  | .kaddi p d a v => Sys2Proof.Machine.execKaddi p d a v s
  | .kandi p d a v => Sys2Proof.Machine.execKandi p d a v s
  | .kori p d a v => Sys2Proof.Machine.execKori p d a v s
  | .kxori p d a v => Sys2Proof.Machine.execKxori p d a v s
  | .kshli p d a v => Sys2Proof.Machine.execKshli p d a v s
  | .kshriZ32 p d a v => Sys2Proof.Machine.execKshriZ32 p d a v s
  | .kshriS32 p d a v => Sys2Proof.Machine.execKshriS32 p d a v s
  | .kmovi p d v => Sys2Proof.Machine.execKmovi p d v s
  | .wait p x v => Sys2Proof.Machine.execWait p x v s
  | .yield p => Sys2Proof.Machine.execYield p s
  | .fbar p s1 => Sys2Proof.Machine.execFbar p s1 s
  | .fstop p f => Sys2Proof.Machine.execFstop p f s
  | .fwake p f => Sys2Proof.Machine.execFwake p f s
  | .trap p v => Sys2Proof.Machine.execTrap p v s
  | .tret p => Sys2Proof.Machine.execTret p s
  | .csrr p x v => Sys2Proof.Machine.execCsrr p x v s
  | .csrw p x v => Sys2Proof.Machine.execCsrw p x v s
  | .rgrow p v => Sys2Proof.Machine.execRgrow p v s
  | .rshrink p v => Sys2Proof.Machine.execRshrink p v s
  | .ldk p d a z o r s1 => Sys2Proof.Machine.execLdk p d a z o r s1 s
  | .stk p d a z o r s1 => Sys2Proof.Machine.execStk p d a z o r s1 s
  | .setrm p m => Sys2Proof.Machine.execSetrm p m s
  | .rdflags p x => Sys2Proof.Machine.execRdflags p x s
  | .clrflags p f => Sys2Proof.Machine.execClrflags p f s
  | .rdamax p x s1 => Sys2Proof.Machine.execRdamax p x s1 s
  | .clramax p s1 => Sys2Proof.Machine.execClramax p s1 s
  | .sbind p x s1 => Sys2Proof.Machine.execSbind p x s1 s
  | .srst p s1 => Sys2Proof.Machine.execSrst p s1 s
  | .sadv p x s1 => Sys2Proof.Machine.execSadv p x s1 s
  | .sstat p x s1 => Sys2Proof.Machine.execSstat p x s1 s
  | .enq p x q => Sys2Proof.Machine.execEnq p x q s
  | .add p d a b t => Sys2Proof.Machine.execAdd p d a b t s
  | .sub p d a b t => Sys2Proof.Machine.execSub p d a b t s
  | .min p d a b t => Sys2Proof.Machine.execMin p d a b t s
  | .max p d a b t => Sys2Proof.Machine.execMax p d a b t s
  | .and p d a b => Sys2Proof.Machine.execAnd p d a b s
  | .or p d a b => Sys2Proof.Machine.execOr p d a b s
  | .xor p d a b => Sys2Proof.Machine.execXor p d a b s
  | .shl p d a b => Sys2Proof.Machine.execShl p d a b s
  | .shrS32 p d a b => Sys2Proof.Machine.execShrS32 p d a b s
  | .shrZ32 p d a b => Sys2Proof.Machine.execShrZ32 p d a b s
  | .addi p d a v => Sys2Proof.Machine.execAddi p d a v s
  | .andi p d a v => Sys2Proof.Machine.execAndi p d a v s
  | .ori p d a v => Sys2Proof.Machine.execOri p d a v s
  | .xori p d a v => Sys2Proof.Machine.execXori p d a v s
  | .shli p d a v => Sys2Proof.Machine.execShli p d a v s
  | .shriZ32 p d a v => Sys2Proof.Machine.execShriZ32 p d a v s
  | .shriS32 p d a v => Sys2Proof.Machine.execShriS32 p d a v s
  | .rsubi p d a v => Sys2Proof.Machine.execRsubi p d a v s
  | .mul p d a b => Sys2Proof.Machine.execMul p d a b s
  | .mulhi p d a b => Sys2Proof.Machine.execMulhi p d a b s
  | .mulhz p d a b => Sys2Proof.Machine.execMulhz p d a b s
  | .div p d a b => Sys2Proof.Machine.execDiv p d a b s
  | .divz p d a b => Sys2Proof.Machine.execDivz p d a b s
  | .rem p d a b => Sys2Proof.Machine.execRem p d a b s
  | .remz p d a b => Sys2Proof.Machine.execRemz p d a b s
  | .popc p d a => Sys2Proof.Machine.execPopc p d a s
  | .clz p d a => Sys2Proof.Machine.execClz p d a s
  | .brev p d a => Sys2Proof.Machine.execBrev p d a s
  | .bfeZ32 p d a b => Sys2Proof.Machine.execBfeZ32 p d a b s
  | .bfeS32 p d a b => Sys2Proof.Machine.execBfeS32 p d a b s
  | .bfi p d a b => Sys2Proof.Machine.execBfi p d a b s
  | .cmp p d a b e unsigned => Sys2Proof.Machine.execCmp p d a b e unsigned s
  | .movi p d v => Sys2Proof.Machine.execMovi p d v s
  | .mov p d a => Sys2Proof.Machine.execMov p d a s
  | .sel p d a m => Sys2Proof.Machine.execSel p d a m s
  | .faddF32 p d a b r => Sys2Proof.Machine.execFaddF32 p d a b r s
  | .fsubF32 p d a b r => Sys2Proof.Machine.execFsubF32 p d a b r s
  | .fmulF32 p d a b r => Sys2Proof.Machine.execFmulF32 p d a b r s
  | .fminF32 p d a b r => Sys2Proof.Machine.execFminF32 p d a b r s
  | .fmaxF32 p d a b r => Sys2Proof.Machine.execFmaxF32 p d a b r s
  | .fabsF32 p d a r => Sys2Proof.Machine.execFabsF32 p d a r s
  | .fnegF32 p d a r => Sys2Proof.Machine.execFnegF32 p d a r s
  | .ffmaF32 p d a b u => Sys2Proof.Machine.execFfmaF32 p d a b u s
  | .ffmsF32 p d a b u => Sys2Proof.Machine.execFfmsF32 p d a b u s
  | .fnmaF32 p d a b u => Sys2Proof.Machine.execFnmaF32 p d a b u s
  | .faddF16Bf16 p d a b t r => Sys2Proof.Machine.execFaddF16Bf16 p d a b t r s
  | .fsubF16Bf16 p d a b t r => Sys2Proof.Machine.execFsubF16Bf16 p d a b t r s
  | .fmulF16Bf16 p d a b t r => Sys2Proof.Machine.execFmulF16Bf16 p d a b t r s
  | .ffmaF16Bf16 p d a b t u => Sys2Proof.Machine.execFfmaF16Bf16 p d a b t u s
  | .ffmsF16Bf16 p d a b t u => Sys2Proof.Machine.execFfmsF16Bf16 p d a b t u s
  | .faddF64 p d a b r => Sys2Proof.Machine.execFaddF64 p d a b r s
  | .fsubF64 p d a b r => Sys2Proof.Machine.execFsubF64 p d a b r s
  | .fmulF64 p d a b r => Sys2Proof.Machine.execFmulF64 p d a b r s
  | .ffmaF64 p d a b r => Sys2Proof.Machine.execFfmaF64 p d a b r s
  | .fminF64 p d a b r => Sys2Proof.Machine.execFminF64 p d a b r s
  | .fmaxF64 p d a b r => Sys2Proof.Machine.execFmaxF64 p d a b r s
  | .rcp p d a r => Sys2Proof.Machine.execRcp p d a r s
  | .rsq p d a r => Sys2Proof.Machine.execRsq p d a r s
  | .sqrt p d a r => Sys2Proof.Machine.execSqrt p d a r s
  | .exp2 p d a r => Sys2Proof.Machine.execExp2 p d a r s
  | .log2 p d a r => Sys2Proof.Machine.execLog2 p d a r s
  | .sin p d a r => Sys2Proof.Machine.execSin p d a r s
  | .cos p d a r => Sys2Proof.Machine.execCos p d a r s
  | .cvtF32F16 p d a => Sys2Proof.Machine.execCvtF32F16 p d a s
  | .cvtF32Bf16 p d a => Sys2Proof.Machine.execCvtF32Bf16 p d a s
  | .cvtF16F32 p d a => Sys2Proof.Machine.execCvtF16F32 p d a s
  | .cvtBf16F32 p d a => Sys2Proof.Machine.execCvtBf16F32 p d a s
  | .cvtF64F32 p d a => Sys2Proof.Machine.execCvtF64F32 p d a s
  | .cvtF32F64 p d a => Sys2Proof.Machine.execCvtF32F64 p d a s
  | .cvtE4m3F32 p d a b x => Sys2Proof.Machine.execCvtE4m3F32 p d a b x s
  | .cvtE5m2F32 p d a b x => Sys2Proof.Machine.execCvtE5m2F32 p d a b x s
  | .cvtF32E4m3 p d a b => Sys2Proof.Machine.execCvtF32E4m3 p d a b s
  | .cvtF32E5m2 p d a b => Sys2Proof.Machine.execCvtF32E5m2 p d a b s
  | .cvtL8F32 p d a b x => Sys2Proof.Machine.execCvtL8F32 p d a b x s
  | .cvtL16F32 p d a b x => Sys2Proof.Machine.execCvtL16F32 p d a b x s
  | .cvtF32L8 p d a b => Sys2Proof.Machine.execCvtF32L8 p d a b s
  | .cvtF32L16 p d a b => Sys2Proof.Machine.execCvtF32L16 p d a b s
  | .cvtQ8F32 p d a b x => Sys2Proof.Machine.execCvtQ8F32 p d a b x s
  | .cvtQ4F32 p d a b x => Sys2Proof.Machine.execCvtQ4F32 p d a b x s
  | .cvtF32Q8 p d a b => Sys2Proof.Machine.execCvtF32Q8 p d a b s
  | .cvtF32Q4 p d a b => Sys2Proof.Machine.execCvtF32Q4 p d a b s
  | .cvtS32F32 p d a => Sys2Proof.Machine.execCvtS32F32 p d a s
  | .cvtS32F32Rz p d a => Sys2Proof.Machine.execCvtS32F32Rz p d a s
  | .cvtZ32F32 p d a => Sys2Proof.Machine.execCvtZ32F32 p d a s
  | .cvtF32S32 p d a => Sys2Proof.Machine.execCvtF32S32 p d a s
  | .cvtF32Z32 p d a => Sys2Proof.Machine.execCvtF32Z32 p d a s
  | .sacc p d a b e => Sys2Proof.Machine.execSacc p d a b e s
  | .shflIdx p d a b => Sys2Proof.Machine.execShflIdx p d a b s
  | .shflUp p d a b => Sys2Proof.Machine.execShflUp p d a b s
  | .shflDown p d a b => Sys2Proof.Machine.execShflDown p d a b s
  | .shflXor p d a b => Sys2Proof.Machine.execShflXor p d a b s
  | .voteAny p d a => Sys2Proof.Machine.execVoteAny p d a s
  | .voteAll p d a => Sys2Proof.Machine.execVoteAll p d a s
  | .voteUni p d a => Sys2Proof.Machine.execVoteUni p d a s
  | .ballot p d a => Sys2Proof.Machine.execBallot p d a s
  | .mpopcBelow p d a => Sys2Proof.Machine.execMpopcBelow p d a s
  | .mpopcTotal p d a => Sys2Proof.Machine.execMpopcTotal p d a s
  | .scan p d a o => Sys2Proof.Machine.execScan p d a o s
  | .red p d a o => Sys2Proof.Machine.execRed p d a o s
  | .redSeg p d a b o => Sys2Proof.Machine.execRedSeg p d a b o s
  | .scanSeg p d a b o => Sys2Proof.Machine.execScanSeg p d a b o s
  | .topk p d a b o => Sys2Proof.Machine.execTopk p d a b o s
  | .topkSeg p d a b o => Sys2Proof.Machine.execTopkSeg p d a b o s
  | .xshuf p d a b => Sys2Proof.Machine.execXshuf p d a b s
  | .regroup p d a => Sys2Proof.Machine.execRegroup p d a s
  | .lea p d a b e => Sys2Proof.Machine.execLea p d a b e s
  | .wpack p d a b e => Sys2Proof.Machine.execWpack p d a b e s
  | .wext p d a e => Sys2Proof.Machine.execWext p d a e s
  | .addD p d a b => Sys2Proof.Machine.execAddD p d a b s
  | .subD p d a b => Sys2Proof.Machine.execSubD p d a b s
  | .ld p d a z o r s1 => Sys2Proof.Machine.execLd p d a z o r s1 s
  | .st p d a z o r s1 => Sys2Proof.Machine.execSt p d a z o r s1 s
  | .ldc p d a z r s1 => Sys2Proof.Machine.execLdc p d a z r s1 s
  | .stc p d a z r s1 => Sys2Proof.Machine.execStc p d a z r s1 s
  | .lds p d a z o r s1 => Sys2Proof.Machine.execLds p d a z o r s1 s
  | .sts p d a z o r s1 => Sys2Proof.Machine.execSts p d a z o r s1 s
  | .atomAdd p d a z r s1 => Sys2Proof.Machine.execAtomAdd p d a z r s1 s
  | .atomAnd p d a z r s1 => Sys2Proof.Machine.execAtomAnd p d a z r s1 s
  | .atomOr p d a z r s1 => Sys2Proof.Machine.execAtomOr p d a z r s1 s
  | .atomXor p d a z r s1 => Sys2Proof.Machine.execAtomXor p d a z r s1 s
  | .atomMinS p d a z r s1 => Sys2Proof.Machine.execAtomMinS p d a z r s1 s
  | .atomMaxS p d a z r s1 => Sys2Proof.Machine.execAtomMaxS p d a z r s1 s
  | .atomMinZ p d a z r s1 => Sys2Proof.Machine.execAtomMinZ p d a z r s1 s
  | .atomMaxZ p d a z r s1 => Sys2Proof.Machine.execAtomMaxZ p d a z r s1 s
  | .atomExch p d a z r s1 => Sys2Proof.Machine.execAtomExch p d a z r s1 s
  | .atomCas p d a z r s1 => Sys2Proof.Machine.execAtomCas p d a z r s1 s
  | .atomFadd p d a r s1 => Sys2Proof.Machine.execAtomFadd p d a r s1 s
  | .atomXadd p d a z r s1 => Sys2Proof.Machine.execAtomXadd p d a z r s1 s
  | .barArr p x v => Sys2Proof.Machine.execBarArr p x v s
  | .barWt p x v => Sys2Proof.Machine.execBarWt p x v s
  | .barTst p x v => Sys2Proof.Machine.execBarTst p x v s
  | .fence p o s1 => Sys2Proof.Machine.execFence p o s1 s
  | .seal p x w => Sys2Proof.Machine.execSeal p x w s
  | .unseal p x w => Sys2Proof.Machine.execUnseal p x w s
  | .cwb p x w => Sys2Proof.Machine.execCwb p x w s
  | .cinv p x w => Sys2Proof.Machine.execCinv p x w s
  | .nred p x w o => Sys2Proof.Machine.execNred p x w o s
  | .nbar p w => Sys2Proof.Machine.execNbar p w s
  | .rsig p x w => Sys2Proof.Machine.execRsig p x w s
  | .axins p x w => Sys2Proof.Machine.execAxins p x w s
  | .axdel p x => Sys2Proof.Machine.execAxdel p x s
  | .axset p x w => Sys2Proof.Machine.execAxset p x w s
  | .axpub p s1 => Sys2Proof.Machine.execAxpub p s1 s
  | .axrd p x w => Sys2Proof.Machine.execAxrd p x w s
  | .thset p x w => Sys2Proof.Machine.execThset p x w s
  | .thget p x w => Sys2Proof.Machine.execThget p x w s
  | .thfill p x w => Sys2Proof.Machine.execThfill p x w s
  | .tbres p x t => Sys2Proof.Machine.execTbres p x t s
  | .tbcom p t => Sys2Proof.Machine.execTbcom p t s
  | .tbacq p x t => Sys2Proof.Machine.execTbacq p x t s
  | .tbrel p t => Sys2Proof.Machine.execTbrel p t s
  | .tbst p x t => Sys2Proof.Machine.execTbst p x t s
  | .mxgat p a b s1 k => Sys2Proof.Machine.execMxgat p a b s1 k s
  | .mxlda p a s1 k => Sys2Proof.Machine.execMxlda p a s1 k s
  | .mxmul p n => Sys2Proof.Machine.execMxmul p n s
  | .mxzero p n => Sys2Proof.Machine.execMxzero p n s
  | .mxdrn p a n f => Sys2Proof.Machine.execMxdrn p a n f s
  | .mxwait p n f => Sys2Proof.Machine.execMxwait p n f s
  | .mxmeta p a n s1 f => Sys2Proof.Machine.execMxmeta p a n s1 f s
  | .packetFetch a => Sys2Proof.Machine.execPacketFetch a s
  | .watchdog a => Sys2Proof.Machine.execWatchdog a s
  | .breakpoint a => Sys2Proof.Machine.execBreakpoint a s
  | .dataWatchpoint a lanes va => Sys2Proof.Machine.execDataWatchpoint a lanes va s
  | .singleStep a => Sys2Proof.Machine.execSingleStep a s
  | .releaseEnd cluster => Sys2Proof.Machine.execReleaseEnd cluster s
  | .releaseReturn cluster => Sys2Proof.Machine.execReleaseReturn cluster s
  | .registerWrite r v => Sys2Proof.Machine.execRegisterWrite r v s
  | .readClear r => Sys2Proof.Machine.execReadClear r s
  | .stagingStore a reg v => Sys2Proof.Machine.execStagingStore a reg v s
  | .go a => Sys2Proof.Machine.execGo a s
  | .goAccept cluster => Sys2Proof.Machine.execGoAccept cluster s
  | .copyCommandStart cluster => Sys2Proof.Machine.execCopyCommandStart cluster s
  | .copyLineTransfer cluster => Sys2Proof.Machine.execCopyLineTransfer cluster s
  | .copyCommandComplete cluster => Sys2Proof.Machine.execCopyCommandComplete cluster s
  | .copyCommandFault cluster cause sub => Sys2Proof.Machine.execCopyCommandFault cluster cause sub s
  | .copyFaultDelivery a => Sys2Proof.Machine.execCopyFaultDelivery a s
  | .fstart a v => Sys2Proof.Machine.execFstart a v s
  | .frondStreamStart cluster => Sys2Proof.Machine.execFrondStreamStart cluster s
  | .frondStreamEnd cluster => Sys2Proof.Machine.execFrondStreamEnd cluster s
  | .mxLoadComplete cluster => Sys2Proof.Machine.execMxLoadComplete cluster s
  | .mxOperationComplete cluster => Sys2Proof.Machine.execMxOperationComplete cluster s
  | .mxDrainComplete cluster => Sys2Proof.Machine.execMxDrainComplete cluster s
  | .loadDataReturn a => Sys2Proof.Machine.execLoadDataReturn a s
  | .storePerformed a => Sys2Proof.Machine.execStorePerformed a s
  | .slicePassGrant cluster => Sys2Proof.Machine.execSlicePassGrant cluster s
  | .scratchpadWriteRefused a va lanes => Sys2Proof.Machine.execScratchpadWriteRefused a va lanes s
  | .acknowledgementReturn unit launch => Sys2Proof.Machine.execAcknowledgementReturn unit launch s
  | .barrierArrival launch g v c a => Sys2Proof.Machine.execBarrierArrival launch g v c a s
  | .rsigRefusal a sig => Sys2Proof.Machine.execRsigRefusal a sig s
  | .exchangeMessageArrival cluster => Sys2Proof.Machine.execExchangeMessageArrival cluster s
  | .exchangeTimeout a => Sys2Proof.Machine.execExchangeTimeout a s
  | .regroupMove launch g f => Sys2Proof.Machine.execRegroupMove launch g f s
  | .reductionResult launch j bar => Sys2Proof.Machine.execReductionResult launch j bar s
  | .reductionTimeout launch j bar => Sys2Proof.Machine.execReductionTimeout launch j bar s
  | .networkFailureDelivery a cause lanes va => Sys2Proof.Machine.execNetworkFailureDelivery a cause lanes va s
  | .axpubComplete a => Sys2Proof.Machine.execAxpubComplete a s
  | .sealComplete a => Sys2Proof.Machine.execSealComplete a s
  | .unsealComplete a => Sys2Proof.Machine.execUnsealComplete a s
  | .cacheMaintenanceComplete a => Sys2Proof.Machine.execCacheMaintenanceComplete a s
  | .streamFetch a s1 => Sys2Proof.Machine.execStreamFetch a s1 s
  | .tileBufferApply cluster => Sys2Proof.Machine.execTileBufferApply cluster s
  | .rgrowGrant core => Sys2Proof.Machine.execRgrowGrant core s
  | .registerGrowEviction core => Sys2Proof.Machine.execRegisterGrowEviction core s
  | .evictedSlotRestore core => Sys2Proof.Machine.execEvictedSlotRestore core s
  | .workgroupPlacement launch => Sys2Proof.Machine.execWorkgroupPlacement launch s
  | .warpRetire warp => Sys2Proof.Machine.execWarpRetire warp s
  | .taskNotCreated launch => Sys2Proof.Machine.execTaskNotCreated launch s
  | .launchCompletion comp => Sys2Proof.Machine.execLaunchCompletion comp s
  | .qtail q t => Sys2Proof.Machine.execQtail q t s
  | .signal q => Sys2Proof.Machine.execSignal q s
  | .waitPacket q => Sys2Proof.Machine.execWaitPacket q s
  | .waitPacketPoll q => Sys2Proof.Machine.execWaitPacketPoll q s
  | .launch q => Sys2Proof.Machine.execLaunch q s
  | .launchIndirect q => Sys2Proof.Machine.execLaunchIndirect q s
  | .prologueStepLimit q => Sys2Proof.Machine.execPrologueStepLimit q s
  | .nopPacket q => Sys2Proof.Machine.execNopPacket q s
  | .reservedPacket q => Sys2Proof.Machine.execReservedPacket q s
  | .overflowDrain q => Sys2Proof.Machine.execOverflowDrain q s
  | .timeTriggeredSlot v => Sys2Proof.Machine.execTimeTriggeredSlot v s
  | .timeTriggeredEntryWrite i0 w v => Sys2Proof.Machine.execTimeTriggeredEntryWrite i0 w v s
  | .clusterReassignment part => Sys2Proof.Machine.execClusterReassignment part s
  | .batchStart launch => Sys2Proof.Machine.execBatchStart launch s
  | .tokenRefill => Sys2Proof.Machine.execTokenRefill s
  | .portAdmission cluster => Sys2Proof.Machine.execPortAdmission cluster s
  | .throttlePeriod core => Sys2Proof.Machine.execThrottlePeriod core s
  | .congestionRefresh => Sys2Proof.Machine.execCongestionRefresh s
  | .drain part => Sys2Proof.Machine.execDrain part s
  | .forced part => Sys2Proof.Machine.execForced part s
  | .restore part => Sys2Proof.Machine.execRestore part s
  | .evict part => Sys2Proof.Machine.execEvict part s
  | .savedArrivalApply part => Sys2Proof.Machine.execSavedArrivalApply part s
  | .attestationGo => Sys2Proof.Machine.execAttestationGo s
  | .attestationDone => Sys2Proof.Machine.execAttestationDone s
  | .contextEnable i0 v => Sys2Proof.Machine.execContextEnable i0 v s
  | .contextDisable v => Sys2Proof.Machine.execContextDisable v s
  | .cpartWrite cluster v => Sys2Proof.Machine.execCpartWrite cluster v s
  | .cpartTakesEffect cluster => Sys2Proof.Machine.execCpartTakesEffect cluster s
  | .pmemWrite part j v => Sys2Proof.Machine.execPmemWrite part j v s
  | .accwWrite hi v => Sys2Proof.Machine.execAccwWrite hi v s
  | .bar2Access write off size v => Sys2Proof.Machine.execBar2Access write off size v s
  | .peerRequest r => Sys2Proof.Machine.execPeerRequest r s
  | .flitForward router input => Sys2Proof.Machine.execFlitForward router input s
  | .linkReplay link => Sys2Proof.Machine.execLinkReplay link s
  | .linkDown link => Sys2Proof.Machine.execLinkDown link s
  | .routerGate router => Sys2Proof.Machine.execRouterGate router s
  | .routerWake router pkt => Sys2Proof.Machine.execRouterWake router pkt s
  | .powerGood fcode => Sys2Proof.Machine.execPowerGood fcode s
  | .powerLoss => Sys2Proof.Machine.execPowerLoss s
  | .conventionalReset => Sys2Proof.Machine.execConventionalReset s
  | .functionLevelReset => Sys2Proof.Machine.execFunctionLevelReset s
  | .thermalReport die celsius => Sys2Proof.Machine.execThermalReport die celsius s
  | .statisticsSample => Sys2Proof.Machine.execStatisticsSample s
  | .errorRecord kind unit pa => Sys2Proof.Machine.execErrorRecord kind unit pa s
  | .scrub cluster => Sys2Proof.Machine.execScrub cluster s
  | .lpddr6Refresh channel bank => Sys2Proof.Machine.execLpddr6Refresh channel bank s
  | .timeCorrection ahead ns => Sys2Proof.Machine.execTimeCorrection ahead ns s
  | .linkUp link => Sys2Proof.Machine.execLinkUp link s
  | .launchCancellation comp => Sys2Proof.Machine.execLaunchCancellation comp s

end Sys2Proof.Machine
end

