-- ==== Sys2Proof/Machine/Group.lean ====
section
/-! DEFINITION. Issuing the chain group at the executing split (04 R65, R66, R78). -/

namespace Sys2Proof.Machine

/-- Words of a group in the order in which they take effect: `clramax` first (08 R152), the words that rebind or move a
stream last, so that the others read its elements as they stood before the group (04 R65; log 69), else by slot. -/
def effectOrder (l : List (Nat × Instr)) : List (Nat × Instr) :=
  let rank := fun (p : Nat × Instr) => match p.2 with
    | .clramax .. => 0
    | .sbind .. | .srst .. | .sadv .. => 2
    | _ => 1
  l.filter (rank · == 0) ++ l.filter (rank · == 1) ++ l.filter (rank · == 2)
/-- The words of a group run one after another against what the group reads. -/
def runWords (s : State) : List (Nat × Instr) → Host.Outcome State Fault Refusal
  | [] => .next s
  | (slot, i) :: r =>
    match exec i (atSlot s slot) with
    | .next t => runWords t r
    | .fault x => .fault x
    | .refused x => .refused x
/-- A group of several words. -/
def runGroup (s : State) (ws : List Word) (l : List Instr) : Host.Outcome State Fault Refusal :=
  let slot := s.f.sp.pos.slot
  match runWords (startGroup s ws) (effectOrder ((List.range l.length).zip l |>.map fun p => (slot + p.1, p.2))) with
  | .next t => .next (finishGroup s t)
  | .fault x => .fault x
  | .refused x => .refused x
/-- The group whose packet has been fetched. -/
def issueWords (s : State) (ws : List Word) : Host.Outcome State Fault Refusal :=
  let slot := s.f.sp.pos.slot
  let g := groupWords (ws.drop slot) (2 - slot)
  match checkGroup s slot g with
  | .error (c, n) =>
    .next (trapHead s c (slot + n) (g.getD n 0) (some (Pos.next ⟨s.f.sp.pos.pkt, slot + (g.length - 1)⟩)))
  | .ok [i] => exec i s
  | .ok l => runGroup s g l
/-- The executing split of the current agent issues its group. -/
def issueGroup (s : State) : Host.Outcome State Fault Refusal :=
  match fetchPacket s with
  | .error c => .next (trapHead s c 0 0 none)
  | .ok (t, ws) => issueWords t ws

end Sys2Proof.Machine
end

