-- ==== Sys2Proof/Machine/Pick.lean ====
section
/-! DEFINITION. What runs next: the fibre a slot selects (02 R32, R33, 10 Table 10.3), the frond streams, the prologues,
the pending events, in the environment's order or by default (log 3). -/

namespace Sys2Proof.Machine

/-- A condition is met for the current fibre (02 Table 2.3); those that an event ends are not met here. -/
def condMet (s : State) (c : Cond2) : Bool :=
  match c with
  | .counter i limit => decide (cntOf s.f i ≤ limit)
  | .barrier i phase => barPhase (curBar s i) != phase
  | .fbar _ | .tbacq .. | .nred .. | .nbar _ | .xshuf .. | .regroup .. | .lands .. | .stop | .held .. => false
/-- The conditions of the current fibre that are met end. -/
def wakeEval (s : State) : State :=
  if s.f.saved then s
  else
    let t := serveCur (landStream (matchXshuf s))
    let met := (waitsOf t.f).filter (condMet t)
    let u := met.foldl (fun u c => match c with
      | .barrier i _ => noteBar u i
      | .counter 2 _ => noteCe u
      | _ => u) t
    let v := { u with f := endWait t.f (condMet t) }
    match v.cur, fbarSet v.f with
    | .vec k, some _ => fbarRelease v (k / 4)
    | _, _ => v
/-- A fibre that may issue: Ready or Issuing, Trapped or not, not Saved. -/
def mayIssue (f : Fibre) : Bool := !f.saved && (f.st == .ready || f.st == .issuing) && f.sp.runs
/-- The current fibre is selected (R33): a held failure is delivered first, a pending stop taken; latches go at a change
of fibre (R35). -/
def selectCur (s : State) : State :=
  let t := deliverNext s
  let f0 := stopAtBoundary t.f
  let f1 := if 256 ≤ f0.run then switchSplit f0 else f0
  let u := match f1.st with
    | .ready => { t with f := { dropLatches f1 with st := .issuing } }
    | .absent | .issuing | .waiting _ | .ended => { t with f := f1 }
  if f1.cs = f0.cs then u else perfCur u 0x27 1
/-- A vector fibre takes its slot. -/
def takeSlot (s : State) (f : Nat) : State :=
  let s1 := { s with w := { s.w with fresh := false } }
  let t := if s1.w.fib = f then s1 else perfCur { s1 with w := { s1.w with fib := f, stall := 0 } } 0x26 1
  selectCur t
/-- What a unit does at its turn: it issues (`true`), or a failure or a stop takes its fibre out of issue (`false`). -/
abbrev Turn := Option (Bool × State)
/-- A unit's fibre before its turn: waits that are met end, a held failure is delivered. -/
def readyCur (s : State) : State := deliverNext (wakeEval s)
/-- The fibre of a turn that did not issue, if the delivery of a failure changed it. -/
def changed (s t : State) : Turn := if t.f = (wakeEval s).f then none else some (false, t)
/-- Fibre f of a slot at its turn. -/
def tryFibre (s : State) (slot f : Nat) : Turn :=
  let t := checkOut s (.vec (4 * slot + f))
  let d := readyCur t
  if mayIssue d.f then
    let v := takeSlot d f
    some (mayIssue v.f, v)
  else changed t d
/-- Who issues next in a slot (R33): the Issuing fibre, else the next one in round robin; fibre 0 first (R25). -/
def pickSlot (s : State) (slot : Nat) : Turn :=
  let w := getW s slot
  if !w.live || w.resv == 0 then none
  else
    let cur := getF s (4 * slot + w.fib)
    if cur.st == .issuing && !cur.saved then tryFibre s slot w.fib
    else
      (if w.fresh then [0, 1, 2, 3] else [1, 2, 3, 4]).findSome? fun i => tryFibre s slot ((w.fib + i) % 4)
/-- A stream or prologue at its turn; `ok`: nothing keeps it from issuing. -/
def tryOne (s : State) (a : Agent) (ok : Bool) : Turn :=
  let t := checkOut s a
  let d := readyCur t
  if mayIssue d.f then (if ok then some (true, selectCur d) else none) else changed t d
/-- A prologue has a group to issue. -/
def prolReady (s : State) (q : Nat) : Bool := mayIssue (getF s (fibKey (.prol q)))
/-- The lanes whose prologues have a group to issue, in the order of their turns (22 R370): the lowest, with those that stand at its
address, then the others likewise. -/
def prolOrder (s : State) : Nat → List Nat → List Nat
  | 0, _ => []
  | _ + 1, [] => []
  | n + 1, q :: r =>
    let same := fun (x : Nat) => (getF s (fibKey (.prol x))).sp.pos == (getF s (fibKey (.prol q))).sp.pos
    q :: r.filter same ++ prolOrder s n (r.filter fun x => !same x)
/-- Turns of prologues still to come, a new pass where none is left. -/
def prolQueue (s : State) : List Nat :=
  let l := s.prolTurn.filter (prolReady s)
  if l.isEmpty then let a := (prolLanes s).filter (prolReady s); prolOrder s a.length a else l
/-- Who issues next of a unit. -/
def pickAgent (s : State) (a : Agent) : Turn :=
  match a with
  | .vec k => pickSlot s (k / 4)
  | .frond c => tryOne s a (getCl s c).load.isNone
  | .prol q =>
    match prolQueue s with
    | [] => tryOne s a true
    | x :: r => if x = q then tryOne { s with prolTurn := r } a true else tryOne s a false
  | .none => none

/-- Keys of the records that hold a fibre, the current one's among them. -/
def agentKeys (s : State) : List Nat :=
  let l := s.fibs.map (·.1)
  if s.cur = .none || l.contains (curKey s) then l else l ++ [curKey s]
/-- The agents by turn: those after the current one first. -/
def turnOrder (s : State) : List Agent :=
  let l := agentKeys s
  ((l.filter fun k => decide (curKey s < k)) ++ l.filter fun k => decide (k ≤ curKey s)).map agentOf

/-- What a step does: a group issues, a pending event takes place, or neither. -/
inductive Pick where
  | run (t : State)
  | ev (e : Ev) (t : State)
  | idle (t : State)

/-- A core on which a slot must be evicted. -/
def evictCore (s : State) : Option Nat := (s.warps.map fun x => x.1 / 16).find? (evictable s)
/-- A periodic activity that something waits for: a refill (21 R356), an eviction (10 R188), a reassignment (23 R393). -/
def periodic (s : State) : Option Ev :=
  match s.tick / 64 % 3, evictCore s with
  | 0, _ => if s.clusters.any fun x => !x.2.portq.isEmpty then some .refill else none
  | 1, some c => some (.evict c)
  | 1, none => none
  | _, _ => if s.pipes.isEmpty then none else some .reassign
/-- A lane whose head packet is not held, where no round is still open (22 R367). -/
def laneReady (s : State) : Bool :=
  !prolRuns s && s.queues.any fun x => match headPkt s x.1 with
    | some (_, p) => notHeld s x.1 p
    | none => false
/-- Entries with a slot that has passed, by the slot's time, then by number (19 R342). -/
def slotOrder (s : State) : List Nat :=
  let due := s.tt.filterMap fun x => (ttDue s x.2).map fun k => (x.2.phase.toNat + k * x.2.period.toNat, x.1, 0)
  (due.foldl (fun l x => insertItem x l) []).map (·.2.1)
/-- Time-triggered slots that have passed (19 R342); a round for lanes whose head packet is no longer held (22 R365, R366). -/
def pollLanes (s : State) : State :=
  let t := (slotOrder s).foldl ttSlot s
  if laneReady t then postNew t [.round] else t

/-- A turn as a step. -/
def ofTurn : Bool × State → Pick
  | (true, t) => .run t
  | (false, t) => .idle t
/-- The next turn in turn order. -/
def nextTurn (s : State) : Turn := (turnOrder s).findSome? (pickAgent s)
/-- Pending events, then turns. -/
def eventsFirst (s : State) : Pick :=
  match s.evq with
  | e :: r => .ev e { s with evq := r }
  | [] => match nextTurn s with
    | some x => ofTurn x
    | none => .idle s
/-- The default order: pending events before turns, but at every fourth step a turn first; at every 64th a periodic
activity. -/
def pickDefault (s : State) : Pick :=
  match (if s.tick % 64 = 63 then periodic s else none), (if s.tick % 4 = 2 then nextTurn s else none) with
  | some e, _ => .ev e s
  | none, some x => ofTurn x
  | none, none => eventsFirst s
/-- A state whose history is permitted, else the one before. -/
def ifPermitted (s t : State) : State := if permitted t.hist then t else s
/-- What the memory system does (15 R267, R276, R279; log 4). -/
def memoryDoes (s : State) (m : MemChoice) : State :=
  match m with
  | .move i j => moveUnit s i j
  | .again i => repeatUnit s i
  | .copyOld cl ages idx => ifPermitted s (copyLine s cl ages idx)
  | .streamOld a st ages => ifPermitted s (onAgent s a fun s => fetchStep s st.val ages)
  | .loadOld cl ages => ifPermitted s (loadAged s cl ages)
/-- The environment's choice where one stands, else the default. -/
def pickNow (s : State) : Pick :=
  match s.sched with
  | [] => pickDefault s
  | .issue a :: r =>
    match pickAgent { s with sched := r } a with
    | some x => ofTurn x
    | none => pickDefault { s with sched := r }
  | .event n :: r =>
    match s.evq[n]? with
    | some e => .ev e { s with sched := r, evq := s.evq.eraseIdx n }
    | none => pickDefault { s with sched := r }
  | .memory m :: r => .idle (memoryDoes { s with sched := r } m)
/-- A regroup whose participants have all arrived: nothing comes between the last arrival and the move, so that what another
fibre writes to a moved row stands at the lane position it names (09 R169). -/
def dueRegroup (s : State) : Option Ev :=
  s.evq.find? fun e => match e with
    | .regroup l g f => allArrived s l g f
    | _ => false
/-- What the next step does. -/
def pick (s : State) : Pick :=
  match dueRegroup s with
  | some e => .ev e { s with evq := s.evq.erase e }
  | none => pickNow (pollLanes s)

/-- A pending event takes place. -/
def runEv (e : Ev) (s : State) : Host.Outcome State Fault Refusal :=
  match e with
  | .env i => exec i s
  | .goAccept c => execGoAccept c s
  | .copyStart c => execCopyCommandStart c s
  | .copyLine c => execCopyLineTransfer c s
  | .copyDone c => execCopyCommandComplete c s
  | .frondStart c => execFrondStreamStart c s
  | .frondEnd c => execFrondStreamEnd c s
  | .mxLoad c => execMxLoadComplete c s
  | .mxOp c => execMxOperationComplete c s
  | .mxDrain c => execMxDrainComplete c s
  | .loadReturn a => execLoadDataReturn a s
  | .storeDone a => execStorePerformed a s
  | .pass c => execSlicePassGrant c s
  | .ack u l => execAcknowledgementReturn u l s
  | .arrival l g i c a => execBarrierArrival l g i c a s
  | .exchange c => execExchangeMessageArrival c s
  | .reduction l j b => execReductionResult l j b s
  | .published a => execAxpubComplete a s
  | .sealDone a => execSealComplete a s
  | .unsealDone a => execUnsealComplete a s
  | .cacheDone a => execCacheMaintenanceComplete a s
  | .fetch a n => execStreamFetch a n s
  | .tbApply c => execTileBufferApply c s
  | .regroup l g f => execRegroupMove l g f s
  | .rgrow c => execRgrowGrant c s
  | .evict c => execRegisterGrowEviction c s
  | .restoreSlot c => execEvictedSlotRestore c s
  | .place l => execWorkgroupPlacement l s
  | .retire k => execWarpRetire k s
  | .retireWg k => .next (retireWg s k)
  | .notCreated l => execTaskNotCreated l s
  | .complete c => execLaunchCompletion c s
  | .indirect q => .next (finishProl s q)
  | .drainOvf q => execOverflowDrain q s
  | .port c => execPortAdmission c s
  | .batch l => execBatchStart l s
  | .savedArrival p => execSavedArrivalApply p s
  | .saved p => .next (endSave s p)
  | .restored p => .next (endRestore s p)
  | .refill => execTokenRefill s
  | .reassign => .next ((List.range 16).foldl reassignPart s)
  | .round => .next (runRound s)
  | .cpart c => execCpartTakesEffect c s
  | .enqDone a => .next (onAgent s a finishEnq)
  | .message l g g2 i f n r => .next (deliverMsg s ⟨l, g, g2, i, f, n, r⟩)
  | .result a l j b v => .next (sendResult s a l j b v)
  | .watchdog a => execWatchdog a s
  | .inject r p => .next (injectPkt s r p)
  | .softError k u p => .next (correctable s k u p)

/-- Time passes (log 5). -/
def passTime (s : State) : State :=
  { s with
    tick := s.tick + 1, cyc := s.cyc + BitVec.ofNat 64 (Config.acPerStep s.tick)
    timens := s.timens + BitVec.ofNat 64 (Config.nsPerStep s.tick) }
/-- The event brings power-good. -/
def isPower (e : Ev) : Bool :=
  match e with
  | .env (.powerGood _) => true
  | _ => false
/-- Without power-good only its return takes place (27 R432). -/
def powerStep (s : State) : Host.Outcome State Fault Refusal :=
  match s.evq.find? isPower with
  | some (.env i) => exec i { s with evq := s.evq.erase (.env i) }
  | _ => .fault .noPower

end Sys2Proof.Machine
end

