-- ==== Sys2Proof/Machine/Step.lean ====
section
/-! DEFINITION. One step: what runs next is chosen by the environment's plain data or by default order, it runs, time
passes (log 3, log 5). -/

namespace Sys2Proof.Machine

/-- Time passes after what a step did. -/
def afterStep : Host.Outcome State Fault Refusal → Host.Outcome State Fault Refusal
  | .next s => .next (passTime s)
  | .fault x => .fault x
  | .refused x => .refused x

/-- One step. -/
def step (s : State) : Host.Outcome State Fault Refusal :=
  if s.power then
    match pick s with
    | .run t => afterStep (issueGroup t)
    | .ev e t => afterStep (runEv e t)
    | .idle t => afterStep (.next t)
  else powerStep s

/-- The launch a program is placed for: one fibre with a window of 32 rows, all features accepted. -/
def placedHeader : BitVec 2048 :=
  BitVec.ofNat 2048
    (1 * 2 ^ 32 + 5 * 2 ^ 64 + 1 * 2 ^ 106 + 31 * 2 ^ 128 + 32 * 2 ^ 192 + 1 * 2 ^ 200 + 1 * 2 ^ 208 + 1 * 2 ^ 224 +
      1 * 2 ^ 232 + 2 ^ 256 * (32 * 2 ^ 135 + 2 ^ 256 * (1 + 2 ^ 16)))
/-- The bytes of a packet that holds a word in slot 0 and `nop` after it. -/
def placeWord (m : Tab Byte) (a w : Nat) : Tab Byte := wrBytes m a (w % 2 ^ 32) 12
/-- Who runs the placed word: the frond stream of cluster 0 where its major is the log array's, else fibre 0 of slot 0. -/
def placedAgent (w : Nat) : Agent := if 0x3B ≤ w / 2 ^ 24 % 2 ^ 6 ∧ w / 2 ^ 24 % 2 ^ 6 ≤ 0x3D then .frond 0 else .vec 0
/-- The fibre that runs it: k0 to k15 zero, one split at packet 0 with lane 0. -/
def placedFibre : Fibre :=
  { Fibre.none with
    st := .issuing, live := 1, fmode := 1
    sp := { Split.none with live := true, mask := 1 } }
/-- Its warp: 32 rows at their start. -/
def placedWarp : Warp :=
  { Warp.none with
    live := true, launch := 1, nfib := 1, resv := 32
    rows := startRows 32 (widsOf placedHeader 0 0), wid := widsOf placedHeader 0 0 }
/-- The machine with one instruction where the next step fetches (log 2): an accepted launch of one work item is placed on
cluster 0, its code handle maps packet 0 to the start of device memory, and the word stands there. -/
def State.withFetchWord (s : State) (nbits w : Nat) : State :=
  let v := w % 2 ^ nbits
  let a := placedAgent v
  let wg : Wg :=
    { Wg.none with
      live := true, launch := 1, len := 512, warps := [0]
      tbufs := [⟨256, 1, 128, [SlotSt.empty], 0, 0⟩] }
  let l : Launch := { Launch.none with live := true, hdr := placedHeader, nextG := 1, comp := 1, clusters := [0] }
  let axis : Axis := { Axis.none with extm1 := 0xFFFFFFFF, width := 32, cap := 1, count := 1, wcount := 1 }
  let code : Desc := { descOf 0 with valid := true, rank := 1, axes := [axis] }
  let part : Part := { Part.reset with pmem := [BitVec.ofNat 64 (2 ^ 20 + 1023 * 2 ^ 10), 0, 0, 0] }
  let t := checkIn s
  let u := { t with
    ctxs := tset Ctx.reset t.ctxs 0 { Ctx.reset with en := true, hbase := 2 ^ 30, tbase := 2 ^ 31, tsize := 1 }
    mem := placeWord t.mem 0 v }
  let t := setEntries (setDesc u 0 1 code) 0 0 [⟨0, 0xFFFFFFFF, 0, 0, 1⟩]
  { t with
    cur := a, f := placedFibre, w := placedWarp, grp := none, evq := [], sched := [.issue a], power := true
    hist := []
    launches := tset Launch.none t.launches 1 l
    wgs := tset Wg.none t.wgs (wgKey 1 0) wg
    parts := tset Part.reset t.parts 0 part
    capw := 0x1FFFFF#128, accw := 0x1FFFFF#128
    clusters := tset Cluster.reset t.clusters 0 { getCl t 0 with frondWg := some (wgKey 1 0), load := none, fbuf := [] } }

end Sys2Proof.Machine
end

