-- ==== Sys2Proof/Safety/Words.lean ====
section
/-! DEFINITION. Terms that statements about words use: when a word of a group may run, and what the integer words
compute, written as the spec writes it, on integers (spec/07). -/

namespace Sys2Proof.Machine

/-- A word of the group being executed may run: no check of 04 Table 4.10 refuses it and its pipe takes it. -/
def Enabled (s : State) (i : Instr) : Prop :=
  s.grp.isSome = true ∧ illegal s i = none ∧ (pipeOf (major i) = some 2 → throttled s = false)
/-- k i can be read: no load still writes it and it is not poisoned (07 R126, 10 R182). -/
def KReady (s : State) (i : KReg) : Prop := kBusy s i.val = false ∧ kBad (rF s) i.val = false
/-- k i as the group reads it. -/
def kNow (s : State) (i : KReg) : Word := kGet (rF s) i.val

/-- A word's value, signed or unsigned. -/
def intVal (signed : Bool) {n : Nat} (x : BitVec n) : Int := if signed then x.toInt else (x.toNat : Int)
/-- The type reads signed values. -/
def typeSigned : IType → Bool
  | .s32 | .s16 => true
  | .z32 | .z16 => false
/-- The type has two elements in a word (05 R79). -/
def typeHalves : IType → Bool
  | .s16 | .z16 => true
  | .s32 | .z32 => false
/-- An operation on each element of a type, wrapping. -/
def byType (t : IType) (f : Int → Int → Int) (x y : Word) : Word :=
  if typeHalves t then
    BitVec.ofInt 16 (f (intVal (typeSigned t) (x.extractLsb' 16 16)) (intVal (typeSigned t) (y.extractLsb' 16 16))) ++
    BitVec.ofInt 16 (f (intVal (typeSigned t) (x.extractLsb' 0 16)) (intVal (typeSigned t) (y.extractLsb' 0 16)))
  else BitVec.ofInt 32 (f (intVal (typeSigned t) x) (intVal (typeSigned t) y))

/-- a << count. -/
def shiftLeft (x : Word) (n : Nat) : Word := BitVec.ofNat 32 (x.toNat * 2 ^ n)
/-- a >> count with zero fill. -/
def shiftZero (x : Word) (n : Nat) : Word := BitVec.ofNat 32 (x.toNat / 2 ^ n)
/-- a >> count with sign fill. -/
def shiftSign (x : Word) (n : Nat) : Word := BitVec.ofInt 32 (x.toInt / 2 ^ n)
/-- An immediate of nine bits, sign-extended (04 R69). -/
def imm9 (i : BitVec 9) : Word := BitVec.ofInt 32 i.toInt
/-- A condition of `cmp` and `kcmp` between two values (07 R124, R131). -/
def ccHolds (e : CmpOp) (x y : Int) : Bool :=
  match e with
  | .eq => decide (x = y)
  | .ne => decide (x ≠ y)
  | .lt => decide (x < y)
  | .le => decide (x ≤ y)
  | .gt => decide (y < x)
  | .ge => decide (y ≤ x)

/-- Table 7.7 without the comparisons: destination, sources, result. -/
def scalarTwo : Instr → Option (KReg × KReg × KReg × (Word → Word → Word))
  | .kadd _ d a b => some (d, a, b, fun x y => BitVec.ofNat 32 (x.toNat + y.toNat))
  | .ksub _ d a b => some (d, a, b, fun x y => BitVec.ofInt 32 (x.toInt - y.toInt))
  | .kand _ d a b => some (d, a, b, fun x y => x &&& y)
  | .kor _ d a b => some (d, a, b, fun x y => x ||| y)
  | .kxor _ d a b => some (d, a, b, fun x y => x ^^^ y)
  | .kshl _ d a b => some (d, a, b, fun x y => shiftLeft x (y.toNat % 32))
  | .kshrZ32 _ d a b => some (d, a, b, fun x y => shiftZero x (y.toNat % 32))
  | .kshrS32 _ d a b => some (d, a, b, fun x y => shiftSign x (y.toNat % 32))
  | .kmul _ d a b => some (d, a, b, fun x y => BitVec.ofNat 32 (x.toNat * y.toNat))
  | .kminS32 _ d a b => some (d, a, b, fun x y => BitVec.ofInt 32 (min x.toInt y.toInt))
  | .kminZ32 _ d a b => some (d, a, b, fun x y => BitVec.ofNat 32 (min x.toNat y.toNat))
  | .kmaxS32 _ d a b => some (d, a, b, fun x y => BitVec.ofInt 32 (max x.toInt y.toInt))
  | .kmaxZ32 _ d a b => some (d, a, b, fun x y => BitVec.ofNat 32 (max x.toNat y.toNat))
  | _ => none
/-- The comparisons of Table 7.7. -/
def scalarCompare : Instr → Option (KReg × KReg × KReg × (Word → Word → Bool))
  | .kcmpEq _ d a b => some (d, a, b, fun x y => ccHolds .eq x.toNat y.toNat)
  | .kcmpNe _ d a b => some (d, a, b, fun x y => ccHolds .ne x.toNat y.toNat)
  | .kcmpS32Lt _ d a b => some (d, a, b, fun x y => ccHolds .lt x.toInt y.toInt)
  | .kcmpZ32Lt _ d a b => some (d, a, b, fun x y => ccHolds .lt x.toNat y.toNat)
  | .kcmpS32Le _ d a b => some (d, a, b, fun x y => ccHolds .le x.toInt y.toInt)
  | .kcmpZ32Le _ d a b => some (d, a, b, fun x y => ccHolds .le x.toNat y.toNat)
  | _ => none
/-- `kmov` and 07 R125 but `kmovi`. -/
def scalarOne : Instr → Option (KReg × KReg × (Word → Word))
  | .kmov _ d a => some (d, a, fun x => x)
  | .kaddi _ d a i => some (d, a, fun x => BitVec.ofInt 32 (x.toInt + i.toInt))
  | .kandi _ d a i => some (d, a, fun x => x &&& imm9 i)
  | .kori _ d a i => some (d, a, fun x => x ||| imm9 i)
  | .kxori _ d a i => some (d, a, fun x => x ^^^ imm9 i)
  | .kshli _ d a i => some (d, a, fun x => shiftLeft x i.val)
  | .kshriZ32 _ d a i => some (d, a, fun x => shiftZero x i.val)
  | .kshriS32 _ d a i => some (d, a, fun x => shiftSign x i.val)
  | _ => none

/-- Majors 0x10 and 0x12 without the divisions, and the bit fields of two sources: destination, sources, result. -/
def vectorTwo : Instr → Option (Dst × Src × Src × (Word → Word → Word))
  | .add _ d a b t => some (d, a, b, byType t (· + ·))
  | .sub _ d a b t => some (d, a, b, byType t (· - ·))
  | .min _ d a b t => some (d, a, b, byType t min)
  | .max _ d a b t => some (d, a, b, byType t max)
  | .and _ d a b => some (d, a, b, fun x y => x &&& y)
  | .or _ d a b => some (d, a, b, fun x y => x ||| y)
  | .xor _ d a b => some (d, a, b, fun x y => x ^^^ y)
  | .shl _ d a b => some (d, a, b, fun x y => shiftLeft x (y.toNat % 32))
  | .shrS32 _ d a b => some (d, a, b, fun x y => shiftSign x (y.toNat % 32))
  | .shrZ32 _ d a b => some (d, a, b, fun x y => shiftZero x (y.toNat % 32))
  | .mul _ d a b => some (d, a, b, fun x y => BitVec.ofNat 32 (x.toNat * y.toNat))
  | .mulhi _ d a b => some (d, a, b, fun x y => BitVec.ofInt 32 (x.toInt * y.toInt / 2 ^ 32))
  | .mulhz _ d a b => some (d, a, b, fun x y => BitVec.ofNat 32 (x.toNat * y.toNat / 2 ^ 32))
  | .bfeZ32 _ d a b => some (d, a, b, fun x y =>
      let pos := y.toNat % 32
      BitVec.ofNat 32 (x.toNat / 2 ^ pos % 2 ^ min (y.toNat / 256 % 32) (32 - pos)))
  | .bfeS32 _ d a b => some (d, a, b, fun x y =>
      let pos := y.toNat % 32
      BitVec.ofInt 32 (Int.bmod (x.toNat / 2 ^ pos : Nat) (2 ^ min (y.toNat / 256 % 32) (32 - pos))))
  | _ => none
/-- Majors 0x11, the bit counts of 0x13, and `mov`: destination, source, result. -/
def vectorOne : Instr → Option (Dst × Src × (Word → Word))
  | .addi _ d a i => some (d, a, fun x => BitVec.ofInt 32 (x.toInt + i.toInt))
  | .andi _ d a i => some (d, a, fun x => x &&& imm9 i)
  | .ori _ d a i => some (d, a, fun x => x ||| imm9 i)
  | .xori _ d a i => some (d, a, fun x => x ^^^ imm9 i)
  | .shli _ d a i => some (d, a, fun x => shiftLeft x i.val)
  | .shriZ32 _ d a i => some (d, a, fun x => shiftZero x i.val)
  | .shriS32 _ d a i => some (d, a, fun x => shiftSign x i.val)
  | .rsubi _ d a i => some (d, a, fun x => BitVec.ofInt 32 (i.toInt - x.toInt))
  | .popc _ d a => some (d, a, fun x => BitVec.ofNat 32 ((List.range 32).countP fun k => x.getLsbD k))
  | .clz _ d a => some (d, a, fun x => BitVec.ofNat 32 ((List.range 32).takeWhile fun k => !x.getLsbD (31 - k)).length)
  | .brev _ d a => some (d, a, fun x => x.reverse)
  | .mov _ d a => some (d, a, fun x => x)
  | _ => none
/-- The divisions of 07 R129: destination, sources, result, anomaly. -/
def division : Instr → Option (Dst × Src × Src × (Word → Word → Word × Bool))
  | .div _ d a b => some (d, a, b, fun x y =>
      if y.toInt = 0 then (if 0 ≤ x.toInt then 0x7FFFFFFF#32 else 0x80000000#32, true)
      else if x.toInt = -2 ^ 31 ∧ y.toInt = -1 then (x, true) else (BitVec.ofInt 32 (x.toInt.tdiv y.toInt), false))
  | .rem _ d a b => some (d, a, b, fun x y =>
      if y.toInt = 0 then (x, true)
      else if x.toInt = -2 ^ 31 ∧ y.toInt = -1 then (0#32, true)
      else (BitVec.ofInt 32 (x.toInt - x.toInt.tdiv y.toInt * y.toInt), false))
  | .divz _ d a b => some (d, a, b, fun x y =>
      if y.toNat = 0 then (0x7FFFFFFF#32, true) else (BitVec.ofNat 32 (x.toNat / y.toNat), false))
  | .remz _ d a b => some (d, a, b, fun x y =>
      if y.toNat = 0 then (x, true) else (BitVec.ofNat 32 (x.toNat - x.toNat / y.toNat * y.toNat), false))
  | _ => none
/-- Field i of a launch's cut (02 R18): its low bit and its width. -/
def cutField (s : State) (i : Nat) : Nat × Nat := (hFieldLo (curL s).hdr i, hWidth (curL s).hdr i)
/-- Words of major 0x21 with two pairs: destination, sources, result. -/
def pairTwo (s : State) : Instr → Option (NReg × PSrc × PSrc × (Word64 → Word64 → Word64))
  | .addD _ d a b => some (d, a, b, fun x y => BitVec.ofNat 64 (x.toNat + y.toNat))
  | .subD _ d a b => some (d, a, b, fun x y => BitVec.ofInt 64 ((x.toNat : Int) - y.toNat))
  | .wpack _ d a b i => some (d, a, b, fun x y =>
      let f := cutField s i.val
      BitVec.ofNat 64 (x.toNat % 2 ^ f.1 + y.toNat % 2 ^ f.2 * 2 ^ f.1 + x.toNat / 2 ^ (f.1 + f.2) * 2 ^ (f.1 + f.2)))
  | _ => none

/-- 04 Table 4.5: a branch condition, evaluated once for the executing split. -/
def branchTaken (s : State) (c : Cond) : Bool :=
  let eod := fun (i : Nat) =>
    match (preF s).streams[i]? with
    | some x => x.bound && x.eod.getLsbD (bf x.desc.toNat 59 2)
    | none => false
  match c with
  | .al => true
  | .kt => kcGet (rF s)
  | .kf => !kcGet (rF s)
  | .any => (List.range 32).any fun l => (act s).getLsbD l && (readM s 0).getLsbD l
  | .all => (List.range 32).all fun l => !(act s).getLsbD l || (readM s 0).getLsbD l
  | .none => (List.range 32).all fun l => !((act s).getLsbD l && (readM s 0).getLsbD l)
  | .eod i => eod i.val
  | .neod i => !eod i.val

end Sys2Proof.Machine
end

