-- ==== Sys2Proof/Safety/Cross.lean ====
section
/-! DEFINITION. What the cross-lane words compute, written as spec/09 writes it: lane by lane, segment by segment. -/

namespace Sys2Proof.Machine

/-- R157: the source lane of a shuffle, by b's element; outside 0 to 31 the lane keeps its own. -/
def shuffleWord : Instr → Option (Dst × Src × Src × (Nat → Word → Int))
  | .shflIdx _ d a b => some (d, a, b, fun _ v => ((v.toNat % 32 : Nat) : Int))
  | .shflUp _ d a b => some (d, a, b, fun l v => (l : Int) - (v.toNat % 64 : Nat))
  | .shflDown _ d a b => some (d, a, b, fun l v => (l : Int) + (v.toNat % 64 : Nat))
  | .shflXor _ d a b => some (d, a, b, fun l v => ((l ^^^ (v.toNat % 32) : Nat) : Int))
  | _ => none
/-- R158: the votes, over the active lanes. -/
def voteWord (s : State) : Instr → Option (MReg × Bool)
  | .voteAny _ d a => some (d, (List.range 32).any fun l => (act s).getLsbD l && (readM s a).getLsbD l)
  | .voteAll _ d a => some (d, (List.range 32).all fun l => !(act s).getLsbD l || (readM s a).getLsbD l)
  | .voteUni _ d a => some (d,
      ((List.range 32).all fun l => !(act s).getLsbD l || (readM s a).getLsbD l) ||
      ((List.range 32).all fun l => !(act s).getLsbD l || !(readM s a).getLsbD l))
  | _ => none
/-- Number of lanes below n that are active and set in a mask. -/
def countBelow (s : State) (m : LaneSet) (n : Nat) : Nat :=
  (List.range n).countP fun l => (act s).getLsbD l && m.getLsbD l
/-- Scans and reductions: destination, source, mask of heads, operation, whether a reduction. -/
def foldWord (s : State) : Instr → Option (Dst × Src × LaneSet × RedOp × Bool)
  | .scan _ d a o => some (d, a, 0#32, o, false)
  | .red _ d a o => some (d, a, 0#32, o, true)
  | .scanSeg _ d a b o => some (d, a, readM s b, o, false)
  | .redSeg _ d a b o => some (d, a, readM s b, o, true)
  | _ => none

/-- R159: the lane that begins active lane l's segment: the last active lane up to l that is the lowest active one or is
set in the mask. -/
def segBegin (act m : LaneSet) : Nat → Nat
  | 0 => 0
  | l + 1 =>
    if act.getLsbD (l + 1) && (m.getLsbD (l + 1) || (List.range (l + 1)).all fun j => !act.getLsbD j) then l + 1
    else segBegin act m l
/-- R160: the inclusive fold of active lane l's segment up to l, in increasing lane order. -/
def scanAt (o : RedOp) (md : RMode) (fi fo : Bool) (act m : LaneSet) (a : Row) (l : Nat) : Word :=
  match (List.range (l + 1)).filter fun j => act.getLsbD j && decide (segBegin act m l ≤ j) with
  | [] => 0#32
  | j :: r => r.foldl (fun t k => (o.combine md fo t (o.read fi (lane a k))).1) (o.read fi (lane a j))
/-- R161: node(level, i) of the tree over lane positions, of the lanes of a segment. -/
def treeNode (o : RedOp) (md : RMode) (fi fo : Bool) (seg : LaneSet) (a : Row) : Nat → Nat → Option Word
  | 0, i => if seg.getLsbD i then some (o.read fi (lane a i)) else none
  | l + 1, i =>
    match treeNode o md fi fo seg a l (2 * i), treeNode o md fi fo seg a l (2 * i + 1) with
    | some x, some y => some (o.combine md fo x y).1
    | some x, none => some x
    | none, y => y
/-- R162: x ranks above y in the order of a ranking: descending by type; for FP32 a total order with NaN lowest and −0
below +0. -/
def ranksAbove (o : TopOp) (x y : Word) : Bool :=
  match o with
  | .maxS32 => decide (y.toInt < x.toInt)
  | .maxZ32 => decide (y.toNat < x.toNat)
  | .maxF32 =>
    let p := fmt32.decode x.toNat
    let q := fmt32.decode y.toNat
    !p.isNan && (q.isNan || vLt q p)

end Sys2Proof.Machine
end

