-- ==== Sys2Proof/Safety/Memory.lean ====
section
/-! DEFINITION. Terms that statements about memory words use: the four memories, the bytes a place reaches, what a load, a
store and an atomic leave behind (spec/13), and the canonical form of every memory. -/

namespace Sys2Proof.Machine

/-- The memories: 0 the device's, 1 the slices, 2 the host's, 3 the peers'. -/
def memOf (s : State) : Nat → Tab Byte
  | 0 => s.mem
  | 1 => s.slices
  | 2 => s.hostMem
  | _ => s.peerMem
/-- The memory and address that a write to a place reaches; none where nothing is written (fill values, out of bounds,
registers, a write the device's own window refuses). -/
def placeOf (s : State) (atom : Bool) : Loc → Option (Nat × Nat)
  | .dev pa => some (0, pa)
  | .slice c o => some (1, c * 2 ^ 20 + o)
  | .host a => some (2, a)
  | .peer id o => some (3, id * 2 ^ 30 + o)
  | .own o => (ownWindow s o true atom).map fun pa => (0, pa)
  | .fill _ => none
  | .oob _ => none
  | .reg _ => none
/-- The memories' canonical form (12 R218). -/
def MemoriesWf (s : State) : Prop :=
  Memory.wf s.mem = true ∧ Memory.wf s.slices = true ∧ Memory.wf s.hostMem = true ∧ Memory.wf s.peerMem = true
/-- No uncorrectable word stands in device memory or in a slice (14 R263, 26 R427). -/
def NoErrors (s : State) : Prop := s.memBad = [] ∧ ∀ x ∈ s.clusters, x.2.bad = []
/-- No link is down, so every request reaches its place (25 R411). -/
def NoLinkDown (s : State) : Prop := s.linksDown = []
/-- Nothing that the current fibre did before holds an access of it back: its counter c has room, no fence holds it (13
R246), and, where it releases, nothing of its own that takes effect later is still to be performed (13 R231). -/
def MayAccess (s : State) (c : Nat) (writes rel : Bool) : Prop :=
  cntOf s.f c < 255 ∧ fenceHolds s writes = false ∧ (rel = true → arrivalsOf (rW s) (fidOf s) = false ∧ tbWaits s (curKey s) = false)

/-- Lanes' values stored, lowest lane first (13 R232): memory k afterwards. -/
def storesTo (s : State) (k size : Nat) (val : Nat → Nat) : List (Nat × Loc) → Tab Byte → Tab Byte
  | [], m => m
  | (l, p) :: r, m =>
    storesTo s k size val r (match placeOf s false p with
      | some (j, a) => if j = k then wrBytes m a (val l) size else m
      | none => m)
/-- Lanes' steps of an atomic in lane order (13 R239): the memories afterwards, and what each lane read. -/
def atomsOn (s : State) (size : Nat) (f : Nat → Nat → Nat) :
    List (Nat × Loc) → (Nat → Tab Byte) → (Nat → Tab Byte) × List (Nat × Nat)
  | [], m => (m, [])
  | (l, p) :: r, m =>
    match placeOf s true p with
    | some (k, a) =>
      let old := rdBytes (m k) a size
      let t := atomsOn s size f r fun j => if j = k then wrBytes (m k) a (f l old) size else m j
      (t.1, (l, old) :: t.2)
    | none =>
      let t := atomsOn s size f r m
      (t.1, (l, match p with
        | .fill v | .oob v => v.toNat % 2 ^ (8 * size)
        | .dev _ | .slice .. | .host _ | .peer .. | .own _ | .reg _ => 0) :: t.2)

/-- `ld`, `ldc`, `lds`: first register, registers, size, addresses of the lanes, their places, word 0 of a value. -/
def loadForm (s : State) : Instr → Option (Nat × Nat × Nat × R (List (Nat × Word64)) ×
    (List (Nat × Word64) → R (List (Nat × Loc))) × (Nat → Word))
  | .ld _ d a z o _ _ => some (d.val, ldRegs z, ldBytes z, readAddrs s a (o.val * ldBytes z),
      fun l => locWord s .ld l (ldBytes z), ldExtend z)
  | .ldc _ d a z _ _ => some (d.val, kRegs z, kBytes z, readAddrs s a 0, fun l => locWord s .ldc l (kBytes z), BitVec.ofNat 32)
  | .lds _ d a z o _ _ => some (d.val, sRegs z, sBytes z, shortAddrs s a (o.val * sBytes z),
      fun l => locShort s .ld l (sBytes z), BitVec.ofNat 32)
  | _ => none
/-- `st`, `stc`, `sts`: first register, registers, size, addresses, places. -/
def storeForm (s : State) : Instr → Option (Nat × Nat × Nat × R (List (Nat × Word64)) ×
    (List (Nat × Word64) → R (List (Nat × Loc))))
  | .st _ d a z o _ _ => some (d.val, stRegs z, stBytes z, readAddrs s a (o.val * stBytes z), fun l => locWord s .st l (stBytes z))
  | .stc _ d a z _ _ => some (d.val, kRegs z, kBytes z, readAddrs s a 0, fun l => locWord s .stc l (kBytes z))
  | .sts _ d a z o _ _ => some (d.val, sRegs z, sBytes z, shortAddrs s a (o.val * sBytes z), fun l => locShort s .st l (sBytes z))
  | _ => none
/-- Atomics with one operand (13 Table 13.5): d, address pair, size, the new value from the old one and the operand. -/
def atomForm : Instr → Option (NReg × NReg × ASize × (Nat → Nat → Nat))
  | .atomAdd _ d a z _ _ => some (d, a, z, fun x y => x + y)
  | .atomAnd _ d a z _ _ => some (d, a, z, fun x y => x &&& y)
  | .atomOr _ d a z _ _ => some (d, a, z, fun x y => x ||| y)
  | .atomXor _ d a z _ _ => some (d, a, z, fun x y => x ^^^ y)
  | .atomMinS _ d a z _ _ => some (d, a, z, fun x y => if signedOf (aBytes z) y < signedOf (aBytes z) x then y else x)
  | .atomMaxS _ d a z _ _ => some (d, a, z, fun x y => if signedOf (aBytes z) x < signedOf (aBytes z) y then y else x)
  | .atomMinZ _ d a z _ _ => some (d, a, z, fun x y => min x y)
  | .atomMaxZ _ d a z _ _ => some (d, a, z, fun x y => max x y)
  | .atomExch _ d a z _ _ => some (d, a, z, fun _ y => y)
  | .atomFadd _ d a _ _ => some (d, a, .b32, fun x y => (fAdd fmt32 .rn false false x y).1)
  | _ => none

/-- The ordering of a load, store or atomic (13 Table 13.2). -/
def orderOf : Instr → MOrd
  | .ld _ _ _ _ _ r _ | .st _ _ _ _ _ r _ | .ldc _ _ _ _ r _ | .stc _ _ _ _ r _ | .lds _ _ _ _ _ r _ | .sts _ _ _ _ _ r _
  | .ldk _ _ _ _ _ r _ | .stk _ _ _ _ _ r _ | .atomAdd _ _ _ _ r _ | .atomAnd _ _ _ _ r _ | .atomOr _ _ _ _ r _
  | .atomXor _ _ _ _ r _ | .atomMinS _ _ _ _ r _ | .atomMaxS _ _ _ _ r _ | .atomMinZ _ _ _ _ r _ | .atomMaxZ _ _ _ _ r _
  | .atomExch _ _ _ _ r _ | .atomCas _ _ _ _ r _ | .atomFadd _ _ _ r _ | .atomXadd _ _ _ _ r _ => r
  | _ => .weak
/-- The word is an `unseal`. -/
def isUnseal : Instr → Bool
  | .unseal .. => true
  | _ => false
/-- An atomic of the current vector fibre of a given ordering has everything it needs: nothing holds it back, its unit's
counter has room, no link is down and no word of memory is uncorrectable. -/
def AtomicsReady (s : State) (r : MOrd) (v : Nat) : Prop :=
  s.cur = .vec v ∧ MayAccess s 0 true (r == .rel) ∧ unitHasRoom s = true ∧ NoLinkDown s ∧ NoErrors s

/-- What no memory word changes: masks, mode, flags, trap registers, streams, rows. -/
def MemFrame (s t : State) : Prop :=
  t.cur = s.cur ∧ t.f.k = s.f.k ∧ t.f.kc = s.f.kc ∧ t.f.m = s.f.m ∧ t.f.fmode = s.f.fmode ∧ t.f.fflags = s.f.fflags ∧
  t.f.amax = s.f.amax ∧ t.f.trap = s.f.trap ∧ t.f.hnd = s.f.hnd ∧ t.f.streams = s.f.streams ∧ t.f.st = s.f.st ∧
  t.f.sp = s.f.sp ∧ t.w.rows = s.w.rows ∧ t.w.pois = s.w.pois ∧ t.w.wid = s.w.wid ∧ t.ctxs = s.ctxs ∧
  t.launches = s.launches ∧ t.sealMap = s.sealMap
/-- A later result is in flight: the access q, one more counted, the entry and the latch of the memory pipe waiting for it,
rows that it will write no longer written by earlier accesses. -/
def InFlight (s t : State) (rows : List Nat) (q : Pend) : Prop :=
  t.w.pend = (claimRows s (act s) rows).w.pend ++ [q] ∧ q.kind = .load ∧ q.fib = fidOf s ∧ q.seq = s.f.seq ∧
  q.lanes = act s ∧ q.rows = rows.map (fun r => (r, act s)) ∧ q.ks = [] ∧
  t.f.cnt = s.f.cnt.set 0 (cntOf s.f 0 + 1) ∧ t.f.seq = s.f.seq + 1 ∧
  t.f.q = (⟨zeroRow, act s, 0#32, q.seq + 1⟩ :: s.f.q).take 16 ∧
  t.f.b = s.f.b.set 2 ⟨true, zeroRow, 0#32, some (q.seq + 1)⟩
/-- An atomic left the memories as its lanes' steps in order leave them, and what each lane read is on its way to d. -/
def AtomDone (s t : State) (locs : List (Nat × Loc)) (size d n : Nat) (f : Nat → Nat → Nat) : Prop :=
  MemFrame s t ∧ (∀ k, k < 4 → memOf t k = (atomsOn s size f locs (memOf s)).1 k) ∧
  ∃ q, InFlight s t ((List.range n).map fun j => rowOf s (d + j)) q ∧
    ∀ x ∈ (atomsOn s size f locs (memOf s)).2, ∀ j, j < n → lane (q.data.getD j zeroRow) x.1 = BitVec.ofNat 32 (x.2 / 2 ^ (32 * j))

/-- Words of 13 R247: address, number of units, bytes of a unit, bytes of a part, path, what completes. -/
def regionForm (va : Word64) : Instr → Option (KReg × KReg × Nat × Nat × Bool × (List Nat → PKind))
  | .seal _ x w => some (x, w, 4096, 256, decide (va.toNat / 2 ^ 50 % 16 = 0), fun l => .seal (distinct (l.map (· / 4096))))
  | .unseal _ x w => some (x, w, 4096, 256, decide (va.toNat / 2 ^ 50 % 16 = 0), fun l => .unseal (distinct (l.map (· / 4096))))
  | .cwb _ x w => some (x, w, 128, if va.toNat / 2 ^ 50 % 16 = 8 then 16 else 128,
      decide (va.toNat / 2 ^ 50 % 16 = 0 ∨ va.toNat / 2 ^ 50 % 16 = 8), fun _ => .cacheOp [])
  | .cinv _ x w =>
    if va.toNat / 2 ^ 50 % 16 = 8 then
      some (x, w, 128, 16, true, fun l => .cacheOp (distinct (l.flatMap fun a => [a / 128, (a + 11) / 128])))
    else some (x, w, 128, 128, decide (va.toNat / 2 ^ 50 % 16 = 0), fun l => .cacheOp (distinct (l.flatMap fun a => [a / 128])))
  | _ => none
/-- An access of kind k is in flight, one more counted by counter c, nothing else of the fibre, its warp or memory
changed. -/
def Sent (s t : State) (c : Nat) (k : PKind) : Prop :=
  MemFrame s t ∧ (∀ j, j < 4 → memOf t j = memOf s j) ∧ t.f.q = s.f.q ∧ t.f.b = s.f.b ∧
  t.f.cnt = s.f.cnt.set c (cntOf s.f c + 1) ∧ t.grp = s.grp ∧
  ∃ q, t.w.pend = s.w.pend ++ [q] ∧ q.kind = k ∧ q.fib = fidOf s ∧ q.seq = s.f.seq

end Sys2Proof.Machine
end

