-- ==== Sys2Proof/Safety/Units.lean ====
section
/-! DEFINITION. Terms that statements about tables, tile buffers and the log array use (spec/11, 17, 23). -/

namespace Sys2Proof.Machine

/-- Nothing of the fibre but its counters and number of accesses, nothing of the warp but its accesses in flight, and no
memory but the device's changed. -/
def UnitFrame (s t : State) : Prop :=
  t.cur = s.cur ∧ t.f = { s.f with cnt := t.f.cnt, seq := t.f.seq } ∧ t.w = { s.w with pend := t.w.pend } ∧
  t.slices = s.slices ∧ t.hostMem = s.hostMem ∧ t.peerMem = s.peerMem ∧ t.ctxs = s.ctxs ∧ t.grp = s.grp
/-- Of device memory only the n bytes from address a may have changed; the other memories stand. -/
def OnlyBytes (s t : State) (a n : Nat) : Prop :=
  t.slices = s.slices ∧ t.hostMem = s.hostMem ∧ t.peerMem = s.peerMem ∧
  ∀ x, (x < a ∨ a + n ≤ x) → rdByte t.mem x = rdByte s.mem x
/-- 17 R300: the entries of a table stand in order, without overlap, inside 2^32 units. -/
def Ordered : List AxEntry → Prop
  | [] => True
  | e :: r => 1 ≤ e.len ∧ e.ls + e.len ≤ 2 ^ 32 ∧ (∀ x ∈ r, e.ls + e.len ≤ x.ls) ∧ Ordered r
/-- k[x] names handle h, axis i and index j (17 R312), and the valid descriptor has a for that axis. -/
def NamesAxis (s : State) (x : KReg) (h i j : Nat) (a : Axis) : Prop :=
  ∃ v, readK s x = .ok v ∧ v.toNat / 2 ^ 15 % 2 = 0 ∧ h = v.toNat % 2 ^ 12 ∧ i = v.toNat / 2 ^ 12 % 8 ∧ j = v.toNat / 2 ^ 16 ∧
    (getDesc s (curCtx s) h).valid = true ∧ i < (getDesc s (curCtx s) h).rank ∧ i < 6 ∧
    a = axisAt (getDesc s (curCtx s) h) i
/-- An edit of that axis by the current fibre is allowed: no other fibre holds it (17 R306, R307). -/
def MayEdit (s : State) (x : KReg) (h i j : Nat) (a : Axis) : Prop :=
  NamesAxis s x h i j a ∧ (a.owner = none ∨ a.owner = some (curKey s))
/-- The handle area and the table area of the current context lie apart in a device memory of canonical form (17 R295). -/
def AreasApart (s : State) : Prop :=
  let c := getCtx s (curCtx s)
  c.en = true ∧ Memory.wf s.mem = true ∧ (c.hbase + 2 ^ 20 ≤ c.tbase ∨ c.tbase + c.tsize * 4096 ≤ c.hbase)
/-- The space of an axis (17 R297) lies inside the table area and holds both its copies. -/
def SpaceFits (s : State) (a : Axis) : Prop :=
  a.count ≤ a.cap ∧ a.wcount ≤ a.cap ∧ a.toff + 32 * a.cap ≤ tableArea s (curCtx s)
/-- The edit made (17 R306): the axis record says that the current fibre holds the axis, with `w.length` working entries; the
working copy of the table area holds the entries w; no other byte of any memory changed, so the published copy stands where
it does not overlap them; nothing of the fibre or its warp changed; what it read of the image stands in the history of accesses. -/
def Edited (s t : State) (h i : Nat) (a : Axis) (w : List AxEntry) : Prop :=
  t = { s with mem := t.mem, memBad := t.memBad, cacheBad := t.cacheBad, hist := t.hist } ∧
  (∃ l, t.hist = l ++ s.hist ∧ ∀ u ∈ l, u.rd = true ∧ u.wr = false ∧ u.ag = curKey s) ∧
  let c := getCtx s (curCtx s)
  let rec_ := descAddr c h + 32 + 32 * i
  let work := c.tbase + workStart a
  ∀ x, rdByte t.mem x =
    if rec_ ≤ x ∧ x < rec_ + 32 then
      BitVec.ofNat 8 (axisBits { a with owner := some (curKey s), wcount := w.length } / 2 ^ (8 * (x - rec_)))
    else if work ≤ x ∧ x < work + 16 * w.length then
      BitVec.ofNat 8 (entryBits (w.getD ((x - work) / 16) ⟨0, 0, 0, 0, 0⟩) / 2 ^ (8 * ((x - work) % 16)))
    else rdByte s.mem x
/-- A declared in-kernel buffer of the current workgroup. -/
def HasBuf (s : State) (t : Nat) (b : TBuf) : Prop :=
  t < 16 ∧ t < hNtb (curL s).hdr ∧ (getWg s (curWg s)).tbufs[t]? = some b
/-- A buffer of the pipeline of the current launch. -/
def HasPipe (s : State) (t : Nat) (b : PBuf) : Prop :=
  16 ≤ t ∧ ∃ p, (curL s).pipe = some p ∧ t - 16 < pNtb (getP s p).desc ∧ b = (getP s p).bufs.getD (t - 16) PBuf.none ∧
    b = getPb s s.w.launch (t - 16)
/-- The slot word of an in-kernel slot (23 R381). -/
def slotAddr (s : State) (b : TBuf) (i : Nat) : Word := BitVec.ofNat 32 (curCl s * 2 ^ 20 + b.start + i * b.size)
/-- The slot word of the current task's slot of a pipeline buffer (23 R390). -/
def taskAddr (s : State) (b : PBuf) : Word := BitVec.ofNat 32 (b.home * 2 ^ 20 + b.start + s.w.g % max b.depth 1 * b.size)

/-- The checks of a load of the log array pass (11 R204, R205): descriptor, format, role, extent, and it is ready. -/
def LoadReady (s : State) (v : Word64) (sd : Side) (k ioff n : Nat) (indexed : Bool) : Prop :=
  descReserved v (hNtb (curL s).hdr) false = false ∧ dFmt v < 4 ∧ descFeature s v = false ∧ descKind v k ioff = none ∧
  needRole s v false = .ok () ∧ dOff v + n * rowPitch (dFmt v) (dSp v) k ≤ (descSpace s v false).2 ∧
  dSoff v + n * rowScales (dFmt v) (dBlk v) k * scaleBytes (dFmt v) ≤ (descSpace s v false).2 ∧
  (indexed = true → ioff + 2 * shapeRows (dShape v) ≤ hScr (curL s).hdr) ∧
  bankBusy (getCl s (curCl s)) sd = false ∧ slotReady s v false = .ok () ∧ cntOf s.f 1 < 255
/-- A row of a sparse load that a side names has a header with no more bits than values (11 R203). -/
def RowsReadable (s : State) (v : Word64) (k base : Nat) (src : List (Option Nat)) : Prop :=
  ∀ e, some e ∈ src → (rowCodes s (dFmt v) (dSp v) k (base + dOff v + e * rowPitch (dFmt v) (dSp v) k)).isSome = true
/-- A bank holds rows of a slice: row n the one that `src` names, or zero codes and scales (11 R202, R203, R205). -/
def HoldsRows (s : State) (v : Word64) (k base : Nat) (src : List (Option Nat)) (b : Bank) : Prop :=
  b.codes.length = src.length ∧ b.scales.length = src.length ∧
  ∀ (n : Nat) (r : Option Nat), src[n]? = some r →
    (r = none → b.codes[n]? = some (List.replicate k (zeroCode (dFmt v))) ∧
      b.scales[n]? = some (List.replicate (rowScales (dFmt v) (dBlk v) k) 0)) ∧
    ∀ e, r = some e →
      b.codes[n]? = rowCodes s (dFmt v) (dSp v) k (base + dOff v + e * rowPitch (dFmt v) (dSp v) k) ∧
      b.scales[n]? = some (rowScaleVals s (dFmt v) (dBlk v) k (base + dSoff v) e)
/-- A load of a side is in progress: its bank holds the rows of the slice named by `src` (none: a row of zero codes and
scales), ml has risen, the slot of a tile buffer is taken. -/
def LoadStarted (s t : State) (v : Word64) (sd : Side) (k : Nat) (src : List (Option Nat)) : Prop :=
  ∃ l, (getCl t (curCl s)).load = some l ∧ l.side = sd ∧ l.bank.loaded = true ∧ l.bank.fmt = dFmt v ∧
    l.bank.shape = dShape v ∧ l.bank.kk = k ∧ l.bank.blk = dBlk v ∧ l.bank.sp = dSp v ∧
    HoldsRows s v k (descSpace s v false).1 src l.bank ∧ l.rel = relSlot s v false ∧
    t.f = { s.f with cnt := s.f.cnt.set 1 (cntOf s.f 1 + 1) } ∧ t.w = s.w ∧ (∀ j, j < 4 → memOf t j = memOf s j)
/-- An operation stands last in the sequencer, counted by counter c (11 R214). -/
def OpIssued (s t : State) (o : MxOp) (c : Nat) : Prop :=
  (getCl t (curCl s)).ops = (getCl s (curCl s)).ops ++ [o] ∧ (getCl t (curCl s)).accs = (getCl s (curCl s)).accs ∧
  (getCl t (curCl s)).sideA = (getCl s (curCl s)).sideA ∧ (getCl t (curCl s)).sideB = (getCl s (curCl s)).sideB ∧
  t.f = { s.f with cnt := s.f.cnt.set c (cntOf s.f c + 1) } ∧ t.w = s.w ∧ (∀ j, j < 4 → memOf t j = memOf s j)

end Sys2Proof.Machine
end

