-- ==== Sys2Proof/Safety/Events.lean ====
section
/-! DEFINITION. Terms that statements about events use. -/

namespace Sys2Proof.Machine

/-- Events of an agent, by the agent. -/
def agentOfEvent : Instr → Option Agent
  | .packetFetch a => some a
  | .watchdog a => some a
  | .breakpoint a => some a
  | .singleStep a => some a
  | .dataWatchpoint a _ _ => some a
  | .scratchpadWriteRefused a _ _ => some a
  | .rsigRefusal a _ => some a
  | .networkFailureDelivery a _ _ _ => some a
  | .loadDataReturn a => some a
  | .storePerformed a => some a
  | .sealComplete a => some a
  | .unsealComplete a => some a
  | .cacheMaintenanceComplete a => some a
  | .axpubComplete a => some a
  | .exchangeTimeout a => some a
  | .streamFetch a _ => some a
  | .stagingStore a _ _ => some a
  | .go a => some a
  | .copyFaultDelivery a => some a
  | .fstart a _ => some a
  | _ => none
/-- Events that deliver a failure held for the current fibre (10 R178, R191, 14 R263, 13 R251): which. -/
def delivers (s : State) : Instr → Option (HeldFail → Bool)
  | .breakpoint a => if a = s.cur then some fun h => h.cause == 0x1E1 else none
  | .singleStep a => if a = s.cur then some fun h => h.cause == 0x1E3 else none
  | .dataWatchpoint a l v => if a = s.cur then some fun h => h.cause == 0x1E4 && h.lanes == l && h.addr == v else none
  | .scratchpadWriteRefused a v l =>
    if a = s.cur then some fun h => h.cause == 0x1F2 && h.lanes == l && h.addr == v else none
  | .rsigRefusal a v =>
    if a = s.cur then some fun h => h.cause == 0x1C5 && h.addr == v else none
  | _ => none
/-- The current fibre can take a failure now; it waits for nothing, neither for a result nor for a signal's arrival. -/
def Interruptible (s : State) : Prop :=
  (s.f.st = .ready ∨ s.f.st = .issuing) ∧ s.f.trapped = false ∧ s.f.saved = false ∧ 
  ∀ p ∈ s.w.pend, p.kind ≠ .result ∧ ∀ g j c, p.kind ≠ .rsig g j c
/-- The current agent's access p is performed: it is no longer in flight, its counter has fallen, unless another access of its
word is in flight (13 R229), no memory changed. -/
def Performed (s t : State) (p : Pend) : Prop :=
  t.w = { s.w with pend := s.w.pend.filter fun x => !(x.fib == p.fib && x.seq == p.seq) } ∧
  t.f = { s.f with cnt := t.f.cnt } ∧
  (∀ c, counterOf s.cur p.kind = some c →
    t.f.cnt = if jointLeft s.w p then s.f.cnt else s.f.cnt.set c (cntOf s.f c - 1)) ∧
  (∀ j, j < 4 → memOf t j = memOf s j)

end Sys2Proof.Machine
end

