-- ==== Sys2Proof/Safety/Floats.lean ====
section
/-! DEFINITION. Terms that statements about floating-point words use: the rational value of a code, and which
operation each word of majors 0x16 to 0x1D makes (spec/05, 08). -/

namespace Sys2Proof.Machine

/-- 2^e. -/
def twoTo (e : Int) : Rat := if 0 ≤ e then 2 ^ e.toNat else 1 / 2 ^ (-e).toNat
/-- The rational number of a finite value; 0 for the others. -/
def Val.rat : Val → Rat
  | .fin n m e => (if n then -1 else 1) * (m : Rat) * twoTo e
  | .nan _ => 0
  | .inf _ => 0
/-- A finite value. -/
def Val.finite : Val → Bool
  | .fin _ _ _ => true
  | .nan _ => false
  | .inf _ => false
/-- Code c of a format holds a finite number. -/
def Fmt.finiteCode (f : Fmt) (c : Nat) : Prop := c < 2 ^ f.width ∧ (f.decode c).finite = true
/-- The number of code c. -/
def Fmt.num (f : Fmt) (c : Nat) : Rat := (f.decode c).rat
/-- The formats of 05 Tables 5.2 and 5.4. -/
def binaryFormats : List Fmt := [fmt64, fmt32, fmtBf16, fmt16, fmtE4m3, fmtE5m2]
/-- The distance of two numbers. -/
def apart (x y : Rat) : Rat := if x ≤ y then y - x else x - y
/-- 05 Table 5.3: c is the code a mode delivers for x, among the finite codes of the format. -/
def Delivers (f : Fmt) (md : RMode) (x : Rat) (c : Nat) : Prop :=
  f.finiteCode c ∧
  match md with
  | .rn => (∀ d, f.finiteCode d → apart (f.num c) x ≤ apart (f.num d) x) ∧
      (∀ d, f.finiteCode d → f.num d ≠ f.num c → apart (f.num d) x = apart (f.num c) x → c % 2 = 0)
  | .ra => (∀ d, f.finiteCode d → apart (f.num c) x ≤ apart (f.num d) x) ∧
      (∀ d, f.finiteCode d → apart (f.num d) x = apart (f.num c) x → apart (f.num d) 0 ≤ apart (f.num c) 0)
  | .rz => apart (f.num c) 0 ≤ apart x 0 ∧
      ∀ d, f.finiteCode d → apart (f.num d) 0 ≤ apart x 0 → apart (f.num c) x ≤ apart (f.num d) x
  | .ru => x ≤ f.num c ∧ ∀ d, f.finiteCode d → x ≤ f.num d → f.num c ≤ f.num d
  | .rm => f.num c ≤ x ∧ ∀ d, f.finiteCode d → f.num d ≤ x → f.num d ≤ f.num c

/-- A lane's result and its flags. -/
abbrev LaneOp1 := Word → Word × Flags
/-- The same of two elements. -/
abbrev LaneOp2 := Word → Word → Word × Flags
/-- The same of three. -/
abbrev LaneOp3 := Word → Word → Word → Word × Flags

/-- Words with one source: pipe, destination, source, operation (08 R140, R145, R147, R148). -/
def floatOne (s : State) : Instr → Option (Nat × Dst × Src × LaneOp1)
  | .fabsF32 _ d a _ => some (1, d, a, fun x => (x &&& 0x7FFFFFFF#32, 0#8))
  | .fnegF32 _ d a _ => some (1, d, a, fun x => (x ^^^ 0x80000000#32, 0#8))
  | .rcp _ d a r => some (3, d, a, fun x => elemOf (fRcp (Rnd.mode (rF s).fmode r) (fiOf (rF s).fmode) (foOf (rF s).fmode) x.toNat))
  | .sqrt _ d a r => some (3, d, a, fun x => elemOf (fSqrt (Rnd.mode (rF s).fmode r) (fiOf (rF s).fmode) (foOf (rF s).fmode) x.toNat))
  | .rsq _ d a _ => some (3, d, a, fun x => elemOf (spRsq (fiOf (rF s).fmode) (foOf (rF s).fmode) x))
  | .exp2 _ d a _ => some (3, d, a, fun x => elemOf (spExp2 (fiOf (rF s).fmode) (foOf (rF s).fmode) x))
  | .log2 _ d a _ => some (3, d, a, fun x => elemOf (spLog2 (fiOf (rF s).fmode) (foOf (rF s).fmode) x))
  | .sin _ d a _ => some (3, d, a, fun x => elemOf (spTrig false (fiOf (rF s).fmode) (foOf (rF s).fmode) x))
  | .cos _ d a _ => some (3, d, a, fun x => elemOf (spTrig true (fiOf (rF s).fmode) (foOf (rF s).fmode) x))
  | .cvtF32F16 _ d a => some (1, d, a, fun x =>
      elemOf (convert fmt16 fmt32 .rn (fiOf (rF s).fmode) (foOf (rF s).fmode) (x.toNat % 2 ^ 16)))
  | .cvtF32Bf16 _ d a => some (1, d, a, fun x =>
      elemOf (convert fmtBf16 fmt32 .rn (fiOf (rF s).fmode) (foOf (rF s).fmode) (x.toNat % 2 ^ 16)))
  | .cvtF16F32 _ d a => some (1, d, a, fun x =>
      elemOf (convert fmt32 fmt16 (rmOf (rF s).fmode) (fiOf (rF s).fmode) (foOf (rF s).fmode) x.toNat))
  | .cvtBf16F32 _ d a => some (1, d, a, fun x =>
      elemOf (convert fmt32 fmtBf16 (rmOf (rF s).fmode) (fiOf (rF s).fmode) (foOf (rF s).fmode) x.toNat))
  | .cvtS32F32 _ d a => some (1, d, a, fun x =>
      let r := f32ToInt (rmOf (rF s).fmode) (-2 ^ 31) (2 ^ 31 - 1) x.toNat; (BitVec.ofInt 32 r.1, r.2))
  | .cvtS32F32Rz _ d a => some (1, d, a, fun x =>
      let r := f32ToInt .rz (-2 ^ 31) (2 ^ 31 - 1) x.toNat; (BitVec.ofInt 32 r.1, r.2))
  | .cvtZ32F32 _ d a => some (1, d, a, fun x =>
      let r := f32ToInt (rmOf (rF s).fmode) 0 (2 ^ 32 - 1) x.toNat; (BitVec.ofInt 32 r.1, r.2))
  | .cvtF32S32 _ d a => some (1, d, a, fun x => elemOf (intToF32 (rmOf (rF s).fmode) x.toInt))
  | .cvtF32Z32 _ d a => some (1, d, a, fun x => elemOf (intToF32 (rmOf (rF s).fmode) x.toNat))
  | _ => none

/-- An FP32 operation on two words. -/
def onF32 (s : State) (r : Rnd) (f : Fmt → RMode → Bool → Bool → Nat → Nat → Nat × Flags) : LaneOp2 := fun x y =>
  elemOf (f fmt32 (Rnd.mode (rF s).fmode r) (fiOf (rF s).fmode) (foOf (rF s).fmode) x.toNat y.toNat)
/-- The same operation on both halves of two words (08 R142). -/
def onPacked (s : State) (t : HType) (r : Rnd) (f : Fmt → RMode → Bool → Bool → Nat → Nat → Nat × Flags) : LaneOp2 :=
  fun x y =>
    let half := fun (i : Nat) => f (halfFmt t) (Rnd.mode (rF s).fmode r) (fiOf (rF s).fmode) (foOf (rF s).fmode)
      (x.toNat / 2 ^ (16 * i) % 2 ^ 16) (y.toNat / 2 ^ (16 * i) % 2 ^ 16)
    (BitVec.ofNat 16 (half 1).1 ++ BitVec.ofNat 16 (half 0).1, (half 0).2 ||| (half 1).2)
/-- A scale element: `z` stands for 1.0 where the scale is FP32 (08 R147). -/
def scaleWord (b : Src) (y : Word) : Nat := if b = .z then 0x3F800000 else y.toNat
/-- A scale's low byte, signed. -/
def scaleByte (y : Word) : Int := (y.extractLsb' 0 8).toInt

/-- Words with two sources (08 R138, R139, R142, R147). -/
def floatTwo (s : State) : Instr → Option (Dst × Src × Src × LaneOp2)
  | .faddF32 _ d a b r => some (d, a, b, onF32 s r fAdd)
  | .fsubF32 _ d a b r => some (d, a, b, onF32 s r fSub)
  | .fmulF32 _ d a b r => some (d, a, b, onF32 s r fMul)
  | .fminF32 _ d a b r => some (d, a, b, onF32 s r fun f _ fi _ => fMinMax f fi false)
  | .fmaxF32 _ d a b r => some (d, a, b, onF32 s r fun f _ fi _ => fMinMax f fi true)
  | .faddF16Bf16 _ d a b t r => some (d, a, b, onPacked s t r fAdd)
  | .fsubF16Bf16 _ d a b t r => some (d, a, b, onPacked s t r fSub)
  | .fmulF16Bf16 _ d a b t r => some (d, a, b, onPacked s t r fMul)
  | .cvtF32E4m3 _ d a b => some (d, a, b, fun x y => elemOf (scaleFrom8 fmtE4m3 (x.toNat % 2 ^ 8) (scaleWord b y)))
  | .cvtF32E5m2 _ d a b => some (d, a, b, fun x y => elemOf (scaleFrom8 fmtE5m2 (x.toNat % 2 ^ 8) (scaleWord b y)))
  | .cvtF32L8 _ d a b => some (d, a, b, fun x y => elemOf (logL8.toF32 (foOf (rF s).fmode) (x.toNat % 2 ^ 8) (scaleByte y)))
  | .cvtF32L16 _ d a b => some (d, a, b, fun x y => elemOf (logL16.toF32 (foOf (rF s).fmode) (x.toNat % 2 ^ 16) (scaleByte y)))
  | .cvtF32Q8 _ d a b => some (d, a, b, fun x y =>
      elemOf (dequantise (rmOf (rF s).fmode) (x.toNat % 2 ^ 8) (y.toNat % 2 ^ 16) (y.toNat / 2 ^ 16 % 2 ^ 8)))
  | .cvtF32Q4 _ d a b => some (d, a, b, fun x y =>
      elemOf (dequantise (rmOf (rF s).fmode) (x.toNat % 2 ^ 4) (y.toNat % 2 ^ 16) (y.toNat / 2 ^ 16 % 2 ^ 4)))
  | _ => none

/-- Conversions that fold into an amax register: destination, source, scale, register, operation (08 R147, R149). -/
def floatAmax (s : State) : Instr → Option (Dst × Src × Src × Bool × LaneOp2)
  | .cvtE4m3F32 _ d a b w => some (d, a, b, w, fun x y => elemOf (scaleTo8 fmtE4m3 (rmOf (rF s).fmode) x.toNat (scaleWord b y)))
  | .cvtE5m2F32 _ d a b w => some (d, a, b, w, fun x y => elemOf (scaleTo8 fmtE5m2 (rmOf (rF s).fmode) x.toNat (scaleWord b y)))
  | .cvtL8F32 _ d a b w => some (d, a, b, w, fun x y => elemOf (logL8.ofF32 x.toNat (scaleByte y)))
  | .cvtL16F32 _ d a b w => some (d, a, b, w, fun x y => elemOf (logL16.ofF32 x.toNat (scaleByte y)))
  | .cvtQ8F32 _ d a b w => some (d, a, b, w, fun x y =>
      elemOf (quantise (rmOf (rF s).fmode) 255 x.toNat (y.toNat % 2 ^ 16) (y.toNat / 2 ^ 16 % 2 ^ 8)))
  | .cvtQ4F32 _ d a b w => some (d, a, b, w, fun x y =>
      elemOf (quantise (rmOf (rF s).fmode) 15 x.toNat (y.toNat % 2 ^ 16) (y.toNat / 2 ^ 16 % 2 ^ 4)))
  | _ => none

/-- Words with an accumulator of n0 to n15 (08 R141, R143): ±a × b ± c with one rounding. -/
def floatThree (s : State) : Instr → Option (Dst × Src × Src × Fin 16 × LaneOp3)
  | .ffmaF32 _ d a b c => some (d, a, b, c, fun x y z => elemOf (fFma fmt32 (rmOf (rF s).fmode) (fiOf (rF s).fmode)
      (foOf (rF s).fmode) false false x.toNat y.toNat z.toNat))
  | .ffmsF32 _ d a b c => some (d, a, b, c, fun x y z => elemOf (fFma fmt32 (rmOf (rF s).fmode) (fiOf (rF s).fmode)
      (foOf (rF s).fmode) false true x.toNat y.toNat z.toNat))
  | .fnmaF32 _ d a b c => some (d, a, b, c, fun x y z => elemOf (fFma fmt32 (rmOf (rF s).fmode) (fiOf (rF s).fmode)
      (foOf (rF s).fmode) true false x.toNat y.toNat z.toNat))
  | .ffmaF16Bf16 _ d a b t c => some (d, a, b, c, packedFma t false)
  | .ffmsF16Bf16 _ d a b t c => some (d, a, b, c, packedFma t true)
  | _ => none
where
  /-- Both halves of three words. -/
  packedFma (t : HType) (neg : Bool) : LaneOp3 := fun x y z =>
    let half := fun (i : Nat) => fFma (halfFmt t) (rmOf (rF s).fmode) (fiOf (rF s).fmode) (foOf (rF s).fmode) false neg
      (x.toNat / 2 ^ (16 * i) % 2 ^ 16) (y.toNat / 2 ^ (16 * i) % 2 ^ 16) (z.toNat / 2 ^ (16 * i) % 2 ^ 16)
    (BitVec.ofNat 16 (half 1).1 ++ BitVec.ofNat 16 (half 0).1, (half 0).2 ||| (half 1).2)

/-- FP64 words on pairs (08 R144): no flush; `ffma.f64` adds d's old value. -/
def floatPair (s : State) : Instr → Option (NReg × PSrc × PSrc × (Word64 → Word64 → Nat × Flags))
  | .faddF64 _ d a b r => some (d, a, b, fun x y => fAdd fmt64 (Rnd.mode (rF s).fmode r) false false x.toNat y.toNat)
  | .fsubF64 _ d a b r => some (d, a, b, fun x y => fSub fmt64 (Rnd.mode (rF s).fmode r) false false x.toNat y.toNat)
  | .fmulF64 _ d a b r => some (d, a, b, fun x y => fMul fmt64 (Rnd.mode (rF s).fmode r) false false x.toNat y.toNat)
  | .fminF64 _ d a b _ => some (d, a, b, fun x y => fMinMax fmt64 false false x.toNat y.toNat)
  | .fmaxF64 _ d a b _ => some (d, a, b, fun x y => fMinMax fmt64 false true x.toNat y.toNat)
  | _ => none

end Sys2Proof.Machine
end

