-- ==== Sys2Proof/Safety.lean ====
section
/-! DEFINITION. What a safe run is: the invariant every step keeps, and runs of steps. -/

namespace Sys2Proof.Machine

/-- The invariant: every memory stands in its canonical form (12 R218). -/
def Inv (s : State) : Prop := MemoriesWf s
/-- t is reached from s by steps that answer a next state. -/
inductive Reaches : State → State → Prop where
  | refl (s : State) : Reaches s s
  | tail {s t u : State} (h : Reaches s t) (h1 : step t = .next u) : Reaches s u
/-- No run from s stops: the machine has power wherever it gets (`Fault.noPower` is the only stop). -/
def Safe (s : State) : Prop := ∀ t, Reaches s t → ∃ u, step t = .next u

end Sys2Proof.Machine
end

