-- ==== Sys2Proof/Certificates/Slice0/Obligations.lean ====
section
/-! DEFINITION. The statements for the provers. A word's effect is stated for a word of a group being executed
(`Enabled`); `GroupRuns`, `GroupTakesEffect` and `StepRunsDecodedWord` carry it to a step. -/

open Sys2Proof Sys2Proof.Machine

/-! Decoding. -/

/-- Words written out from the tables of spec/04, 07 and 11 decode to their instructions. -/
def Obligations.SpecWordsDecode : Prop :=
  decodeTableWord 32 0x00000000 = some (.nop ⟨false, false⟩) ∧ decodeTableWord 32 0x00000100 = some (.halt ⟨false, false⟩) ∧
  decodeTableWord 32 0x011FFFFD = some (.bra ⟨false, false⟩ .kt 0xFFFFD#20) ∧ decodeTableWord 32 0x02200003 = some (.jmp ⟨false, false⟩ 3) ∧
  decodeTableWord 32 0x03500006 = some (.mand ⟨false, false⟩ 0 1 2) ∧
  decodeTableWord 32 0x050411FF = some (.kaddi ⟨false, false⟩ 1 1 0x1FF#9) ∧
  decodeTableWord 32 0x100C1080 = some (.add ⟨false, false⟩ (.n 3) (.n 1) (.n 2) .s32) ∧
  decodeTableWord 32 0x1407D090 = some (.cmp ⟨false, false⟩ 1 .lane (.n 2) .lt false) ∧
  decodeTableWord 32 0x21138F42 = some (.lea ⟨false, false⟩ 4 (.k 0) .lane 2) ∧
  decodeTableWord 32 0x310C4400 = some (.st ⟨false, false⟩ 3 4 .b32 0 .weak .sl)
/-- Every well-formed instruction that has a word decodes from it, whatever its operands. -/
def Obligations.DecodeOfEncode : Prop :=
  ∀ (i : Instr) (w : Nat), i.wf = true → encode i = some w → w < 2 ^ 32 ∧ decode w = .ok i
/-- No bit of a word is ignored: a word that decodes is the word of its instruction, so two words never decode alike. -/
def Obligations.EncodeOfDecode : Prop :=
  ∀ (w : Nat) (i : Instr), w < 2 ^ 32 → decode w = .ok i → encode i = some w ∧ i.wf = true

/-! A step, a group, a word. -/

/-- When the agent whose turn it is has fetched its packet and the word at its slot, not chained, decodes to i and no
check made at issue refuses it, the step is `exec` of i there, and time passes. -/
def Obligations.StepRunsDecodedWord : Prop :=
  ∀ (s t u : State) (ws : List Word) (w : Word) (i : Instr), s.power = true → pick s = .run t →
    fetchPacket t = .ok (u, ws) → ws[u.f.sp.pos.slot]? = some w → wordC w = false → decode w.toNat = .ok i →
    rawCause u w.toNat = none → frondBars u.cur w.toNat = false → fibreBars u w.toNat = false → windowBars u i = false →
    step s = afterStep (exec i u)
/-- A chain group of several words runs its words against what it read, in slot order but for `clramax`, first, and words that
rebind or move a stream, last (log 69: the model's choice), and takes effect as one. A word alone is a group of one: it runs against what the group read, then the group takes effect. -/
def Obligations.GroupRuns : Prop :=
  (∀ (s t u v : State) (ws : List Word) (l : List Instr), s.power = true → pick s = .run t →
     fetchPacket t = .ok (u, ws) → l.length ≠ 1 →
     checkGroup u u.f.sp.pos.slot (groupWords (ws.drop u.f.sp.pos.slot) (2 - u.f.sp.pos.slot)) = .ok l →
     runWords (startGroup u (groupWords (ws.drop u.f.sp.pos.slot) (2 - u.f.sp.pos.slot)))
       (effectOrder ((List.range l.length).zip l |>.map fun p => (u.f.sp.pos.slot + p.1, p.2))) = .next v →
     step s = .next (passTime (finishGroup u v))) ∧
  (∀ (s t : State) (i : Instr) (w : Nat), s.grp = none → encode i = some w →
     exec i (startGroup s [BitVec.ofNat 32 w]) = .next t → exec i s = .next (finishGroup s t))

/-- A group that a check of Table 4.10 refuses traps before any word has effect: cause and word of the failing check,
nothing else of the fibre's registers, its warp or memory changes. A word that a check of Table 4.10 refuses has no
effect: the group records its cause and its slot, for every active lane. -/
def Obligations.IllegalWords : Prop :=
  (∀ (s t u : State) (ws : List Word) (c n : Nat), s.power = true → pick s = .run t → fetchPacket t = .ok (u, ws) →
     checkGroup u u.f.sp.pos.slot (groupWords (ws.drop u.f.sp.pos.slot) (2 - u.f.sp.pos.slot)) = .error (c, n) →
     u.f.trapped = false → (∃ k, u.cur = .vec k) →
     ∃ v, step s = .next v ∧ v.f.trapped = true ∧ v.f.trap.cause = c ∧ v.f.trap.wslot = u.f.sp.pos.slot + n ∧
       v.f.trap.tepc = u.f.sp.pos.pkt ∧ v.f.trap.tlanes = act u ∧ v.f.trap.resume = false ∧
       v.f.k = u.f.k ∧ v.f.m = u.f.m ∧ v.f.q = u.f.q ∧ v.f.fflags = u.f.fflags ∧ v.w = { u.w with stall := 0 } ∧ v.mem = u.mem) ∧
  (∀ (s : State) (g : Grp) (i : Instr) (c : Nat), s.grp = some g → g.fault = none → illegal s i = some c →
     exec i s = .next { s with grp := some { g with fault := some (c, g.slot, act s, 0#64), keep := false } })

/-- 04 R66, R67: a group that meets no fault, is ready and raises no enabled flag takes effect: what its words wrote
stands, its flags are set, and without a transfer or a wait the split goes to the next slot, or where the word sent it.
Registers, rows, memories and the counters of its waits are what its words left. -/
def Obligations.GroupTakesEffect : Prop :=
  ∀ (s t : State) (g : Grp), t.grp = some g → g.stalled = false → g.fault = none → arithTrap (teNow s.f) g.flags = none →
    g.xfer ≠ .halt → g.xfer ≠ .tret → t.f.st ≠ .ended →
    let r := finishGroup s t
    r.grp = none ∧ r.cur = t.cur ∧ r.w = { t.w with stall := 0, images := r.w.images } ∧ (g.waits = [] → r.w.images = t.w.images) ∧ r.mem = t.mem ∧ r.slices = t.slices ∧
    r.hostMem = t.hostMem ∧ r.peerMem = t.peerMem ∧ r.ctxs = t.ctxs ∧
    r.f.k = t.f.k ∧ r.f.kc = t.f.kc ∧ r.f.m = t.f.m ∧ r.f.q = t.f.q ∧ r.f.streams = t.f.streams ∧ r.f.amax = t.f.amax ∧
    r.f.fmode = t.f.fmode ∧ r.f.trap = t.f.trap ∧ r.f.hnd = t.f.hnd ∧ r.f.cnt = t.f.cnt ∧ r.f.trapped = t.f.trapped ∧
    r.f.fflags = t.f.fflags ||| (orFlags g.flags).setWidth 32 ∧ r.f.gpos = g.base ∧
    (t.f.run < 255 → g.xfer = .next → r.f.cs = t.f.cs ∧ r.f.sp = { t.f.sp with pos := afterPos g }) ∧
    (∀ p, t.f.run < 255 → g.xfer = .jump p → r.f.cs = t.f.cs ∧ r.f.sp = { t.f.sp with pos := p })
/-- 04 R66, 10 R178, R193: a group that faults, or that sets an enabled flag, has none of its effects but its flags: the
fibre's registers, its warp and memory are as before the group, and the trap registers say why and where; resume is 1 for
the causes Table 10.6 says, but a word's own 0x1F2 replays (11 R216). Where the enabled flag XO is set, the adds of its
`atom.xadd` stand (13 R241). 10 R193, Table 10.6: the lowest flag that is set and enabled names the cause, 0x100 + 8 × flag
+ pipe, by the first word of the group that set it. -/
def Obligations.GroupTraps : Prop :=
  (∀ (s t : State) (g : Grp) (k cause slot : Nat), s.cur = .vec k → s.f.trapped = false → t.grp = some g →
     g.stalled = false → (g.fault.isSome = true → g.keep = false) →
     ((∃ lanes addr, g.fault = some (cause, slot, lanes, addr)) ∨
       (g.fault = none ∧ arithTrap (teNow s.f) g.flags = some (cause, slot))) →
     let r := finishGroup s t
     r.f.trapped = true ∧ r.f.trap.cause = cause ∧ r.f.trap.wslot = slot ∧ r.f.trap.gslot = g.base.slot ∧
     r.f.trap.tepc = g.base.pkt ∧ r.f.trap.tword = g.words.getD (slot - g.base.slot) 0 ∧
     r.f.trap.resume = (resumes cause && cause != 0x1F2) ∧ r.f.trap.tscr0 = s.f.trap.tscr0 ∧
     r.f.trap.tscr1 = s.f.trap.tscr1 ∧ r.w = { s.w with stall := 0 } ∧
     (∀ j, j < 4 → memOf r j = memOf (if g.fault = none ∧ teNow s.f &&& orFlags g.flags &&& flagXO ≠ 0 then keepAdds s t else s) j) ∧
     r.f.k = s.f.k ∧ r.f.kc = s.f.kc ∧ r.f.m = s.f.m ∧ r.f.q = s.f.q ∧
     r.f.streams = s.f.streams ∧
     (∀ lanes addr, g.fault = some (cause, slot, lanes, addr) →
       r.f.trap.tlanes = lanes ∧ r.f.trap.taddr = addr ∧ r.f.fflags = s.f.fflags) ∧
     (g.fault = none → r.f.trap.tlanes = act s ∧ r.f.fflags = s.f.fflags ||| (orFlags g.flags).setWidth 32)) ∧
  (∀ (te : Flags) (l : List (Nat × Nat × Flags)) (cause slot : Nat),
     arithTrap te l = some (cause, slot) ↔
       ∃ (b : Nat) (pipe : Nat) (fl : Flags) (pre post : List (Nat × Nat × Flags)), b < 8 ∧ te.getLsbD b = true ∧
         l = pre ++ (slot, pipe, fl) :: post ∧ fl.getLsbD b = true ∧ cause = 0x100 + 8 * b + pipe ∧
         (∀ x ∈ pre, x.2.2.getLsbD b = false) ∧ (∀ c, c < b → te.getLsbD c = true → ∀ x ∈ l, x.2.2.getLsbD c = false))

/-- 02 R36: a group whose operand is not ready changes nothing its words would write: it stands where it was, to issue
again. -/
def Obligations.StalledGroupWaits : Prop :=
  ∀ (s t : State) (g : Grp), t.grp = some g → g.stalled = true →
    let r := finishGroup s t
    r.w.rows = s.w.rows ∧ r.w.pend = s.w.pend ∧ r.mem = s.mem ∧ r.slices = s.slices ∧ r.f.k = s.f.k ∧ r.f.kc = s.f.kc ∧
    r.f.m = s.f.m ∧ r.f.q = s.f.q ∧ r.f.streams = s.f.streams ∧ r.f.fflags = s.f.fflags ∧ r.f.trapped = s.f.trapped ∧
    (s.f.splits.length = 4 → s.f.cs < 4 → s.f.sp.runs = true →
      (∀ i, i ≠ s.f.cs → ((allSplits s.f).getD i Split.none).live = false) →
      r.f.sp = s.f.sp)

/-! Traps. -/

/-- 10 R178, Table 10.5, 19 R338: a trap of an untrapped vector fibre whose launch has a handler for the cause. The trap
registers say what happened; the faulting split becomes the handler split, its address, mask and nest stack held aside;
it goes on at slot 0 of the handler's packet with an empty nest stack and its mask; k8 to k15, kc and m3 of the bank
hold what the table says; the fibre's own registers, its warp and memory stay. -/
def Obligations.TrapEntry : Prop :=
  ∀ (s : State) (x : TrapIn) (k : Nat) (p : Word), s.cur = .vec k → s.f.trapped = false →
    handlerPkt (curL s) (.vec k) x.cause = some p →
    let r := enterTrap s x
    r.f.trapped = true ∧ r.f.st = .ready ∧ inHandler r.f = true ∧ r.f.sp.pos = ⟨p, 0⟩ ∧ r.f.sp.nest = [] ∧
    r.f.sp.mask = s.f.sp.mask ∧ r.f.cs = s.f.cs ∧
    r.f.trap = { s.f.trap with
      cause := x.cause, wslot := x.wslot, gslot := x.base.slot, resume := x.resume, tepc := x.base.pkt
      tword := x.tword, taddr := x.addr, tlanes := x.lanes } ∧
    (∃ h, r.f.hnd = some h ∧ h.pos = x.base ∧ h.after = x.after ∧ h.mask = s.f.sp.mask ∧ h.nest = s.f.sp.nest ∧ h.kc = false ∧
      h.m3 = x.lanes &&& s.f.sp.mask ∧
      kGet r.f 8 = BitVec.ofNat 32 x.cause ∧ kGet r.f 9 = x.base.pkt ∧ kGet r.f 10 = lo32 x.addr ∧
      kGet r.f 11 = hi32 x.addr &&& 0x3FFFFF#32 ∧ kGet r.f 12 = x.lanes ∧ kGet r.f 13 = x.tword ∧
      kGet r.f 14 = fstatOf r.f (.vec k) ∧ kGet r.f 15 = 0#32) ∧
    r.f.k = s.f.k ∧ r.f.kc = s.f.kc ∧ r.f.m = s.f.m ∧ r.f.kPois = s.f.kPois ∧ r.f.q = s.f.q ∧ r.f.fmode = s.f.fmode ∧
    r.f.fflags = s.f.fflags ∧ r.f.streams = s.f.streams ∧ r.f.cnt = s.f.cnt ∧ r.w = { s.w with stall := 0 } ∧ r.mem = s.mem ∧
    r.slices = s.slices ∧ r.hist = s.hist ∧ r.launches = s.launches ∧ r.comps = s.comps
/-- 10 R180: a trap of the handler split is nested: the trap registers keep the first trap's values, the fibre waits on
stop with its wake token cleared, and 0x1E9 is posted to the launch's completion with the nested cause beside it. 10
R179: a fault of another split of a Trapped fibre is not entered: that split is parked at its group, and the trap
registers keep the first trap's values. -/
def Obligations.TrapWhileTrapped : Prop :=
  (∀ (s : State) (x : TrapIn) (k : Nat), s.cur = .vec k → s.f.trapped = true → inHandler s.f = true →
     let r := enterTrap s x
     r.f = { s.f with st := .waiting [.held x.cause (x.cont <|> x.after)], wake := false } ∧ r.w = { s.w with stall := 0 } ∧ r.mem = s.mem ∧
     ((getC s (curL s).comp).cause = 0 →
       (getC r (curL s).comp).cause = 0x1E9 ∧ (getC r (curL s).comp).orig = x.cause)) ∧
  (∀ (s : State) (x : TrapIn) (k : Nat), s.cur = .vec k → s.f.trapped = true → inHandler s.f = false →
     s.f.cs < 4 → s.f.splits.length = 4 → s.f.sp.live = true →
     let r := enterTrap s x
     r.f.trapped = true ∧ r.f.trap = s.f.trap ∧ r.f.hnd = s.f.hnd ∧ r.f.k = s.f.k ∧ r.w = { s.w with stall := 0 } ∧ r.mem = s.mem ∧
     (∃ y, (allSplits r.f)[s.f.cs]? = some y ∧ y.live = true ∧ y.faulted = true ∧ y.pos = x.base ∧ y.mask = s.f.sp.mask))

/-- 10 R181: `tret` of the handler split, by `doTret` where no copy command of the fibre waits: the bank is discarded,
the split takes back what was held, with resume = 0 at the trapped group, with resume = 1 after it; the latches are
invalidated; the fibre is Ready, or waits on stop where a stop is pending. -/
def Obligations.TrapReturn : Prop :=
  ∀ (s : State) (h : Handler), s.f.hnd = some h → ((getCl s (curCl s)).cmds.any fun c => c.fib == curKey s && c.delivered) = false →
    let r := doTret s
    r.f.trapped = false ∧ r.f.hnd = none ∧ r.f.sp.mask = h.mask ∧ r.f.sp.nest = h.nest ∧
    (s.f.trap.resume = false → r.f.sp.pos = h.pos) ∧
    (∀ p, s.f.trap.resume = true → h.after = some p → r.f.sp.pos = p) ∧
    (∀ b ∈ r.f.b, b.valid = false) ∧ r.f.trap = s.f.trap ∧ r.f.k = s.f.k ∧ r.f.kc = s.f.kc ∧ r.f.m = s.f.m ∧
    (∀ x ∈ r.f.splits, x.faulted = false) ∧
    (s.f.stopPend = false → r.f.st = .ready) ∧ (s.f.stopPend = true → r.f.st = .waiting [.stop]) ∧
    r.w = s.w ∧ r.mem = s.mem

/-! Scalar words. -/

/-- 07 R124, R125: k[d] from k[a] and k[b] or imm9; a comparison also writes kc. -/
def Obligations.ScalarResults : Prop :=
  ∀ (s : State) (i : Instr), Enabled s i →
    (∀ d a b f, scalarTwo i = some (d, a, b, f) → KReady s a → KReady s b →
      exec i s = .next (writeK s d.val (f (kNow s a) (kNow s b)))) ∧
    (∀ d a f, scalarOne i = some (d, a, f) → KReady s a → exec i s = .next (writeK s d.val (f (kNow s a)))) ∧
    (∀ d a b f, scalarCompare i = some (d, a, b, f) → KReady s a → KReady s b →
      exec i s = .next (writeK (writeKc s (f (kNow s a) (kNow s b))) d.val (if f (kNow s a) (kNow s b) then 1 else 0))) ∧
    (∀ p d v, i = .kmovi p d v → exec i s = .next (writeK s d.val (imm9 v)))
/-- 07 R126, 10 R178, 06 R106: a k-register written: in the handler bank for k8 to k15 of the handler split, else in the
fibre's own; the value reads back, no other k-register changes, an earlier load no longer writes it, its poison goes. A
mask is written in the active lanes only; m3 of the handler split is its own. Nothing else of the machine changes. -/
def Obligations.RegisterWrites : Prop :=
  (∀ (s : State) (d : Nat) (v : Word), let t := writeK s d v
     t = { s with f := { s.f with k := t.f.k, hnd := t.f.hnd, kPois := t.f.kPois }, w := { s.w with pend := t.w.pend } } ∧
     (bank s.f = none ∨ d < 8 → t.f.k = s.f.k.set d v ∧ (d < s.f.k.length → kGet t.f d = v)) ∧
     (∀ h, bank s.f = some h → 8 ≤ d → t.f.k = s.f.k ∧ (d - 8 < h.k.length → kGet t.f d = v)) ∧
     (∀ j, j ≠ d → kGet t.f j = kGet s.f j) ∧
     (d < 16 → kBad t.f d = false) ∧
     t.w.pend.length = s.w.pend.length ∧
     (∀ (n : Nat) (p q : Pend), s.w.pend[n]? = some p → t.w.pend[n]? = some q →
       q = { p with ks := q.ks } ∧ (p.fib = fidOf s → p.hb = kBanked s.f d → ∀ x ∈ q.ks, x.1 ≠ d))) ∧
  (∀ (s : State) (d : Nat) (v : LaneSet), let t := writeM s d v
     t = { s with f := { s.f with m := t.f.m, hnd := t.f.hnd } } ∧
     (bank s.f = none ∨ d ≠ 3 → t.f.hnd = s.f.hnd ∧
       (d < s.f.m.length → ∀ l, l < 32 → (mGet t.f d).getLsbD l = if (act s).getLsbD l then v.getLsbD l else (mGet s.f d).getLsbD l)) ∧
     (∀ h, bank s.f = some h → d = 3 → t.f.m = s.f.m ∧
       ∀ l, l < 32 → (mGet t.f 3).getLsbD l = if (act s).getLsbD l then v.getLsbD l else h.m3.getLsbD l) ∧
     (∀ j, j ≠ d → mGet t.f j = mGet s.f j))
/-! Control words, masks and splits. -/

/-- 07 R117, R119, R120, R122, R123: what a control word asks of its group. `halt` outside the handler split, `bra` when
its condition holds, `call` while the nest stack has room, `ret` on a call entry, `jmp`, `brd` and `join`; masks are
computed lane by lane for the active lanes. -/
def Obligations.ControlWords : Prop :=
  (∀ (s : State) (p : Pfx),
     (Enabled s (.nop p) → exec (.nop p) s = .next s) ∧
     (Enabled s (.halt p) → inHandler s.f = false → exec (.halt p) s = .next (setXfer s .halt)) ∧
     (∀ c o, Enabled s (.bra p c o) → exec (.bra p c o) s =
       .next (if branchTaken s c then setXfer s (.jump ⟨BitVec.ofInt 32 ((curPkt s).toNat + o.toInt), 0⟩) else s)) ∧
     (∀ o, Enabled s (.call p o) → s.f.sp.nest.length < 8 → exec (.call p o) s =
       .next (setXfer { s with f := { s.f with sp := { s.f.sp with nest := .call ⟨curPkt s + 1, 0⟩ :: s.f.sp.nest } } }
         (.jump ⟨BitVec.ofInt 32 ((curPkt s).toNat + o.toInt), 0⟩))) ∧
     (∀ r l, Enabled s (.ret p) → s.f.sp.nest = .call r :: l → exec (.ret p) s =
       .next (setXfer { s with f := { s.f with sp := { s.f.sp with nest := l } } } (.jump r))) ∧
     (∀ k, Enabled s (.jmp p k) → KReady s k → exec (.jmp p k) s = .next (setXfer s (.jump ⟨kNow s k, 0⟩))) ∧
     (∀ m o, Enabled s (.brd p m o) → inHandler s.f = false → s.f.sp.nest.length < 8 → exec (.brd p m o) s =
       .next (setXfer s (.brd (readM s m) ⟨BitVec.ofInt 32 ((curPkt s).toNat + o.toInt), 0⟩))) ∧
     (Enabled s (.join p) → exec (.join p) s = .next (setXfer s (.join (curSlot s))))) ∧
  (∀ (s : State) (p : Pfx) (d a b : MReg),
     (Enabled s (.mand p d a b) → ∃ v : LaneSet, exec (.mand p d a b) s = .next (writeM s d.val v) ∧
       ∀ l, l < 32 → v.getLsbD l = ((readM s a).getLsbD l && (readM s b).getLsbD l)) ∧
     (Enabled s (.mor p d a b) → ∃ v : LaneSet, exec (.mor p d a b) s = .next (writeM s d.val v) ∧
       ∀ l, l < 32 → v.getLsbD l = ((readM s a).getLsbD l || (readM s b).getLsbD l)) ∧
     (Enabled s (.mnot p d a) → ∃ v : LaneSet, exec (.mnot p d a) s = .next (writeM s d.val v) ∧
       ∀ l, l < 32 → v.getLsbD l = !(readM s a).getLsbD l) ∧
     (Enabled s (.mmov p d a) → exec (.mmov p d a) s = .next (writeM s d.val (readM s a))))
/-- 07 R120, 02 R27, 10 R180: where control words trap: `call` and a fifth divergence on a full nest stack 0x143, `ret`
without a call entry on top 0x148, `halt` and a divergent `brd` of the handler split 0x1E9. -/
def Obligations.ControlFaults : Prop :=
  ∀ (s : State) (g : Grp) (p : Pfx), s.grp = some g → g.fault = none →
    let failed := fun c => Host.Outcome.next (φ := Fault) (ρ := Refusal)
      { s with grp := some { g with fault := some (c, g.slot, act s, 0#64), keep := false } }
    (∀ o, Enabled s (.call p o) → 8 ≤ s.f.sp.nest.length → exec (.call p o) s = failed 0x143) ∧
    (Enabled s (.ret p) → (∀ r l, s.f.sp.nest ≠ .call r :: l) → exec (.ret p) s = failed 0x148) ∧
    (Enabled s (.halt p) → inHandler s.f = true → exec (.halt p) s = failed 0x1E9) ∧
    (∀ m o, Enabled s (.brd p m o) → readM s m &&& act s ≠ 0 → ~~~readM s m &&& act s ≠ 0 → inHandler s.f = true →
      exec (.brd p m o) s = failed 0x1E9) ∧
    (∀ m o, Enabled s (.brd p m o) → readM s m &&& act s ≠ 0 → ~~~readM s m &&& act s ≠ 0 → inHandler s.f = false →
      freeSplit s.f = none → 8 ≤ s.f.sp.nest.length → exec (.brd p m o) s = failed 0x143)
/-- 02 R27, 07 R121, R122: a branch on which the active lanes agree moves the split; on a divergence with a free split
the lowest free number takes the taking lanes to the target with the call entries and runs at once, latches invalid, the
others stand at the fall-through; with four splits the executing one goes to the target and pushes the others. 02 R28,
Table 2.2, 07 R121: `join` at an address, past which the group it stands in ends, by its first case that applies. -/
def Obligations.Divergence : Prop :=
  (∀ (f : Fibre) (taken : LaneSet) (target fall : Pos),
     (f.sp.mask &&& ~~~taken = 0 → doBrd f taken target fall = { f with sp := { f.sp with pos := target } }) ∧
     (f.sp.mask &&& ~~~taken ≠ 0 → f.sp.mask &&& taken = 0 →
       doBrd f taken target fall = { f with sp := { f.sp with pos := fall } }) ∧
     (f.sp.mask &&& ~~~taken ≠ 0 → f.sp.mask &&& taken ≠ 0 → f.splits.length = 4 → f.cs < 4 → f.sp.runs = true →
       let r := doBrd f taken target fall
       (∀ j, freeSplit f = some j → target ≠ fall →
         (∀ (i : Nat) (x : Split), i ≠ f.cs → (allSplits f)[i]? = some x → x.live = true →
           x.pos ≠ target ∧ x.mask &&& (f.sp.mask &&& taken) = 0) →
         r.cs = j ∧ r.sp = ⟨true, target, f.sp.mask &&& taken, callsOf f.sp.nest, false, false, none, target⟩ ∧
         (∀ b ∈ r.b, b.valid = false) ∧
         ∃ (i : Nat) (x : Split), (allSplits r)[i]? = some x ∧ x.live = true ∧ x.pos = fall ∧
           x.mask &&& (f.sp.mask &&& ~~~taken) = f.sp.mask &&& ~~~taken) ∧
       (freeSplit f = none → (allSplits r)[f.cs]? = some
         { f.sp with mask := f.sp.mask &&& taken, pos := target, nest := .div fall (f.sp.mask &&& ~~~taken) none :: f.sp.nest }))) ∧
  (∀ (f : Fibre) (here past : Pos), f.splits.length = 4 → f.cs < 4 → f.sp.runs = true →
     (∀ (i : Nat) (x : Split), (allSplits f)[i]? = some x → x.parked = true → x.pos = here → x.past = past) →
     let r := doJoin f here past
     (∀ resume m l, f.sp.nest = .div resume m none :: l → (allSplits r)[f.cs]? = some
       { f.sp with pos := resume, mask := m, nest := .div resume m (some (here, past, f.sp.mask)) :: l }) ∧
     (∀ resume m jn held l, f.sp.nest = .div resume m (some (here, jn, held)) :: l →
       ∃ (i : Nat) (x : Split), (allSplits r)[i]? = some x ∧ x.live = true ∧ x.pos = past ∧ x.nest = l ∧
         x.mask &&& (f.sp.mask ||| held) = f.sp.mask ||| held) ∧
     ((∀ resume m b l, f.sp.nest ≠ .div resume m b :: l) → nSplits f = 1 →
       r = { f with sp := { f.sp with pos := past } }) ∧
     ((∀ resume m b l, f.sp.nest ≠ .div resume m b :: l) → nSplits f ≠ 1 →
       ∃ (i : Nat) (x : Split), (allSplits r)[i]? = some x ∧ x.live = true ∧ (x.pos = here ∨ x.pos = past) ∧
         x.mask &&& f.sp.mask = f.sp.mask) ∧
     (∀ resume m jp jn held l, f.sp.nest = .div resume m (some (jp, jn, held)) :: l → jp ≠ here →
       ∃ (i : Nat) (x : Split), (allSplits r)[i]? = some x ∧ x.live = true ∧ (x.pos = here ∨ x.pos = past) ∧
         x.mask = f.sp.mask ∧ x.nest = f.sp.nest))

/-- 07 R118, Table 7.2, 02 R26: the active lanes exit, out of every mask and nest entry; the split goes on with the lanes its
nest entry holds, or is freed. 02 R30: a switch goes to the next split that runs, in increasing number, wrapping; another split than before
finds the latches invalid; a split that has issued 256 groups in a row gives way. -/
def Obligations.HaltAndSplits : Prop :=
  (∀ (f : Fibre), let r := doHalt f
     r.live = f.live &&& ~~~f.sp.mask ∧
     (∀ resume m l, f.sp.nest = .div resume m none :: l →
       r.sp = { f.sp with pos := resume, mask := m &&& ~~~f.sp.mask, nest := l.map (nestMask (~~~f.sp.mask)) }) ∧
     (∀ resume m jp jn held l, f.sp.nest = .div resume m (some (jp, jn, held)) :: l →
       r.sp = { f.sp with pos := jn, mask := held &&& ~~~f.sp.mask, nest := l.map (nestMask (~~~f.sp.mask)) }) ∧
     (∀ (i : Nat) (x : LaneSet), r.m[i]? = some x → x &&& f.sp.mask = 0) ∧
     ((∀ resume m b l, f.sp.nest ≠ .div resume m b :: l) → f.splits.length = 4 → f.cs < 4 →
       ((allSplits r).getD f.cs Split.none).live = false)) ∧
  (∀ (f : Fibre), let l := mergeAll f (allSplits f)
     (∀ i, nextSplit l f.cs = some i →
       (switchSplit f).cs = i ∧ (switchSplit f).run = 0 ∧ (l.getD i Split.none).runs = true ∧
       (i ≠ f.cs → ∀ b ∈ (switchSplit f).b, b.valid = false) ∧
       ∃ n, 1 ≤ n ∧ n ≤ 4 ∧ i = (f.cs + n) % 4 ∧
         ∀ k, 1 ≤ k → k < n → (l.getD ((f.cs + k) % 4) Split.none).runs = false) ∧
     (f.run < 255 → countRun f f.cs = { f with run := f.run + 1 }) ∧
     (255 ≤ f.run → countRun f f.cs = switchSplit f))

/-! Operands and results of vector words. -/

/-- 03 Table 3.1, 06 R102 to R104, 02 R36, 10 R182, R185: what each source selector reads when it can be read; a row in
flight makes the word wait, a poisoned element of an active lane faults with 0x1F1, a row beyond the reservation with
0x14B. -/
def Obligations.SourceOperands : Prop :=
  (∀ (s : State),
     (∀ j : Fin 32, rowOf s j.val < (rW s).rows.length → inFlight (rW s) (rowOf s j.val) = false →
       tget 0 (rW s).pois (rowOf s j.val) &&& act s = 0 →
       readSrc s (.n j) = .ok (s, (rW s).rows.getD (rowOf s j.val) zeroRow, 0xFFFFFFFF#32)) ∧
     (∀ (i : Fin 16) (e : QEnt), (rF s).q[i.val]? = some e → e.empty = 0 → e.pois &&& act s = 0 →
       readSrc s (.q i) = .ok (s, e.row, 0xFFFFFFFF#32)) ∧
     (∀ (i : Fin 4) (b : Latch), (rF s).b[i.val]? = some b → (b.valid = true → b.src = none ∧ b.pois &&& act s = 0) →
       readSrc s (.b i) = .ok (s, if b.valid then b.row else zeroRow, 0xFFFFFFFF#32)) ∧
     (∀ i : Fin 4, KReady s (Fin.ofNat 16 i.val) →
       readSrc s (.k i) = .ok (s, rowBroadcast (kNow s (Fin.ofNat 16 i.val)), 0xFFFFFFFF#32)) ∧
     readSrc s .z = .ok (s, zeroRow, 0xFFFFFFFF#32) ∧
     (∃ r, readSrc s .lane = .ok (s, r, 0xFFFFFFFF#32) ∧ ∀ l, l < 32 → lane r l = BitVec.ofNat 32 l) ∧
     (∃ r, readSrc s .fid = .ok (s, r, 0xFFFFFFFF#32) ∧ ∀ l, l < 32 → lane r l = BitVec.ofNat 32 (fidOf s))) ∧
  (∀ (s : State) (j : Fin 32),
     ((rW s).rows.length ≤ rowOf s j.val → readSrc s (.n j) = .error (.fault 0x14B (act s) 0#64)) ∧
     (rowOf s j.val < (rW s).rows.length → inFlight (rW s) (rowOf s j.val) = true → readSrc s (.n j) = .error .stall) ∧
     (rowOf s j.val < (rW s).rows.length → inFlight (rW s) (rowOf s j.val) = false →
       tget 0 (rW s).pois (rowOf s j.val) &&& act s ≠ 0 → readSrc s (.n j) = .error (.fault 0x1F1 (act s) 0#64)))
/-- 06 R102 to R104, 07 R133: a result goes to the active lanes of n j, the other lanes keep theirs; q takes a new entry
0 whose inactive lanes are zero; the latch of the pipe holds it; `_` writes the latch alone; a pair writes two rows and
pushes its low register. Nothing else changes. -/
def Obligations.ResultWrites : Prop :=
  (∀ (s : State) (pipe : Nat) (v : Row),
     let kept := fun (t : State) => t = { s with f := { s.f with q := t.f.q, b := t.f.b }, w := t.w } ∧
       t.f.b = s.f.b.set pipe ⟨true, rowMask (act s) v, 0#32, none⟩
     (∀ j : Fin 32, rowOf s j.val < (rW s).rows.length → ∃ t, writeDst s pipe (.n j) v = .ok t ∧ kept t ∧
       t.w = { s.w with rows := t.w.rows, pois := t.w.pois, pend := t.w.pend } ∧
       t.f.q = (⟨rowMask (act s) v, 0#32, 0#32, 0⟩ :: s.f.q).take 16 ∧ t.w.rows.length = s.w.rows.length ∧
       (∀ r, r ≠ rowOf s j.val → t.w.rows[r]? = s.w.rows[r]?) ∧
       (rowOf s j.val < s.w.rows.length → ∀ l, l < 32 → lane (t.w.rows.getD (rowOf s j.val) zeroRow) l =
         if (act s).getLsbD l then lane v l else lane (s.w.rows.getD (rowOf s j.val) zeroRow) l)) ∧
     (∃ t, writeDst s pipe .q v = .ok t ∧ kept t ∧ t.w = s.w ∧
       t.f.q = (⟨rowMask (act s) v, 0#32, 0#32, 0⟩ :: s.f.q).take 16) ∧
     (∃ t, writeDst s pipe .none v = .ok t ∧ kept t ∧ t.w = s.w ∧ t.f.q = s.f.q) ∧
     (∀ l, l < 32 → lane (rowMask (act s) v) l = if (act s).getLsbD l then lane v l else 0#32)) ∧
  (∀ (s : State) (pipe : Nat) (d : NReg) (lo hi : Row), rowOf s d.val + 1 < (rW s).rows.length →
     ∃ t, writePair s pipe d lo hi = .ok t ∧
       t = { s with f := { s.f with q := t.f.q, b := t.f.b }, w := { s.w with rows := t.w.rows, pois := t.w.pois, pend := t.w.pend } } ∧
       t.f.q = (⟨rowMask (act s) lo, 0#32, 0#32, 0⟩ :: s.f.q).take 16 ∧
       t.f.b = s.f.b.set pipe ⟨true, rowMask (act s) lo, 0#32, none⟩ ∧
       (∀ r, r ≠ rowOf s d.val → r ≠ rowOf s d.val + 1 → t.w.rows[r]? = s.w.rows[r]?) ∧
       (rowOf s d.val + 1 < s.w.rows.length → ∀ l, l < 32 →
         lane (t.w.rows.getD (rowOf s d.val) zeroRow) l =
           (if (act s).getLsbD l then lane lo l else lane (s.w.rows.getD (rowOf s d.val) zeroRow) l) ∧
         lane (t.w.rows.getD (rowOf s d.val + 1) zeroRow) l =
           (if (act s).getLsbD l then lane hi l else lane (s.w.rows.getD (rowOf s d.val + 1) zeroRow) l)))
/-! Integer words. -/

/-- 07 R127 to R130, R132: one result per lane, computed from the elements read. 07 R129: quotient and remainder; ID is
set for the group when an active lane whose elements are live meets an anomaly, and only then. -/
def Obligations.IntegerResults : Prop :=
  (∀ (s s1 t : State) (i : Instr) (x : Row) (m : LaneSet), Enabled s i →
     (∀ d a b f s2 y n, vectorTwo i = some (d, a, b, f) → readSrc s a = .ok (s1, x, m) →
       readSrc s1 b = .ok (s2, y, n) → writeDst s2 0 d (rowGen fun l => f (lane x l) (lane y l)) = .ok t →
       exec i s = .next t) ∧
     (∀ d a f, vectorOne i = some (d, a, f) → readSrc s a = .ok (s1, x, m) →
       writeDst s1 0 d (rowGen fun l => f (lane x l)) = .ok t → exec i s = .next t) ∧
     (∀ p d v, i = .movi p d v → writeDst s 0 d (rowGen fun _ => imm9 v) = .ok t → exec i s = .next t)) ∧
  (∀ (s s1 s2 t : State) (i : Instr) (d : Dst) (a b : Src) (f : Word → Word → Word × Bool) (x y : Row) (m n : LaneSet),
     Enabled s i → division i = some (d, a, b, f) → readSrc s a = .ok (s1, x, m) → readSrc s1 b = .ok (s2, y, n) →
     writeDst s2 0 d (rowGen fun l => (f (lane x l) (lane y l)).1) = .ok t →
     exec i s = .next (raise t 0
       (if (List.range 32).any fun l => (act s &&& m &&& n).getLsbD l && (f (lane x l) (lane y l)).2 then flagID else 0#8)))

/-- 07 R130 to R132: `bfi` and `sel` start from d's old element, zero where d holds none; `cmp` sets the mask in the
active lanes by the comparison and pushes no entry. -/
def Obligations.InsertSelectCompare : Prop :=
  (∀ (s s1 t : State) (p : Pfx) (d : Dst) (a : Src) (x old : Row) (m : LaneSet),
     (∀ j, d = .n j → readSrc s (.n j) = .ok (s, old, 0xFFFFFFFF#32)) → ((∀ j, d ≠ .n j) → old = zeroRow) →
     readSrc s a = .ok (s1, x, m) →
     (∀ b s2 y n, Enabled s (.bfi p d a b) → readSrc s1 b = .ok (s2, y, n) →
       writeDst s2 0 d (rowGen fun l =>
         let pos := (lane y l).toNat % 32
         let w := min ((lane y l).toNat / 256 % 32) (32 - pos)
         let o := (lane old l).toNat
         BitVec.ofNat 32 (o % 2 ^ pos + (lane x l).toNat % 2 ^ w * 2 ^ pos + o / 2 ^ (pos + w) * 2 ^ (pos + w))) = .ok t →
       exec (.bfi p d a b) s = .next t) ∧
     (∀ k, Enabled s (.sel p d a k) →
       writeDst s1 0 d (rowGen fun l => if (readM s k).getLsbD l then lane x l else lane old l) = .ok t →
       exec (.sel p d a k) s = .next t)) ∧
  (∀ (s s1 s2 : State) (p : Pfx) (d : MReg) (a b : Src) (e : CmpOp) (u : Bool) (x y : Row) (m n : LaneSet),
     Enabled s (.cmp p d a b e u) → readSrc s a = .ok (s1, x, m) → readSrc s1 b = .ok (s2, y, n) →
     ∃ v : LaneSet, exec (.cmp p d a b e u) s = .next (writeM s2 d.val v) ∧ (writeM s2 d.val v).f.q = s2.f.q ∧
       ∀ l, l < 32 → v.getLsbD l = ccHolds e (intVal (!u) (lane x l)) (intVal (!u) (lane y l)))
/-- 07 R133, R134: 64-bit results in pairs; the queue entry and the latch take the low register. -/
def Obligations.PairResults : Prop :=
  ∀ (s t : State) (i : Instr) (x : Row × Row), Enabled s i →
    (∀ d a b f y, pairTwo s i = some (d, a, b, f) → readPair s a = .ok x → readPair s b = .ok y →
      writePair s 0 d (rowGen fun l => lo32 (f (lane64 x l) (lane64 y l)))
        (rowGen fun l => hi32 (f (lane64 x l) (lane64 y l))) = .ok t → exec i s = .next t) ∧
    (∀ p d a e, i = .wext p d a e → readPair s a = .ok x →
      let v := fun l => BitVec.ofNat 64 ((lane64 x l).toNat / 2 ^ (cutField s e.val).1 % 2 ^ (cutField s e.val).2)
      writePair s 0 d (rowGen fun l => lo32 (v l)) (rowGen fun l => hi32 (v l)) = .ok t → exec i s = .next t) ∧
    (∀ p d a b e s1 y m, i = .lea p d a b e → readPair s a = .ok x → readSrc s b = .ok (s1, y, m) →
      let v := fun l => BitVec.ofInt 64 ((lane64 x l).toNat + (lane y l).toInt * 2 ^ e.val)
      writePair s1 0 d (rowGen fun l => lo32 (v l)) (rowGen fun l => hi32 (v l)) = .ok t → exec i s = .next t)
/-! System words. -/

/-- 10 R173 to R177, Table 10.3: waits, hand-over, barriers, stop and wake. `wait` on a counter at or below its limit
does not wait; `fstop` and `fwake` on another fibre of the slot act by its state, on the issuer at its group boundary.
-/
def Obligations.FibreControlWords : Prop :=
  ∀ (s : State) (p : Pfx),
    (∀ x i, Enabled s (.wait p x i) → exec (.wait p x i) s =
      .next (if i.toNat < cntOf (rF s) x.val then setWait s (.counter x.val i.toNat)
        else if x.val = 2 then { s with hist := (noteCe s).hist } else s)) ∧
    (∀ k, Enabled s (.yield p) → s.cur = .vec k → exec (.yield p) s = .next (setXfer s .yield)) ∧
    (∀ c, Enabled s (.yield p) → s.cur = .frond c → exec (.yield p) s = .next s) ∧
    (∀ x, Enabled s (.fbar p x) → inHandler s.f = false →
      (∀ i y, i < 4 → x.getLsbD i = true → i ≠ fidOf s → fbarSet (getF s (sibling s i)) = some y →
        y = x ∨ y.getLsbD (fidOf s) = false) →
      exec (.fbar p x) s = .next (setWait s (.fbar x))) ∧
    (∀ f, Enabled s (.fstop p f) → sibling s f.val = curKey s → exec (.fstop p f) s =
      .next (if s.f.wake then { s with f := { s.f with wake := false } } else setWait s .stop)) ∧
    (∀ f, Enabled s (.fstop p f) → sibling s f.val ≠ curKey s →
      let y := getF s (sibling s f.val)
      ∃ z, exec (.fstop p f) s = .next (setF s (sibling s f.val) z) ∧
        (y.st = .absent ∨ y.st = .ended → z = y) ∧
        (y.st ≠ .absent → y.st ≠ .ended → y.wake = true → z = { y with wake := false }) ∧
        (y.st = .waiting [.stop] → y.wake = false → z = y) ∧
        (y.st = .ready ∨ y.st = .issuing → y.wake = false → z = { y with stopPend := true })) ∧
    (∀ f, Enabled s (.fwake p f) → sibling s f.val = curKey s →
      exec (.fwake p f) s = .next { s with f := { s.f with wake := true } }) ∧
    (∀ f, Enabled s (.fwake p f) → sibling s f.val ≠ curKey s →
      let y := getF s (sibling s f.val)
      ∃ z, exec (.fwake p f) s = .next (setF s (sibling s f.val) z) ∧
        (y.st = .absent ∨ y.st = .ended → z = y) ∧
        (y.st = .waiting [.stop] → z = { y with st := .ready }) ∧
        (y.st = .ready ∨ y.st = .issuing → y.wake = false → y.stopPend = true → z = { y with stopPend := false }) ∧
        (y.st = .ready ∨ y.st = .issuing → y.wake = false → y.stopPend = false → z = { y with wake := true }))
/-- 10 R178, Table 10.4: `trap` alone in its group traps with 0x1E8 for every active lane, `tword` the word itself with
its immediate, and resume = 1; in the handler split it is a nested trap (R180). 10 R181, R184: `tret`, and CSRs marked
handler, outside the handler split raise 0x00B; inside it `tret` is ready once no access of the handler split is in
flight. -/
def Obligations.HandlerWords : Prop :=
  (∀ (s : State) (p : Pfx) (i : BitVec 8) (k : Nat) (w : Nat), s.grp = none → s.cur = .vec k → encode (.trap p i) = some w →
     illegal (startGroup s [BitVec.ofNat 32 w]) (.trap p i) = none →
     (s.f.trapped = false → ∃ r, exec (.trap p i) s = .next r ∧ r.f.trapped = true ∧ r.f.trap.cause = 0x1E8 ∧
       r.f.trap.resume = true ∧ r.f.trap.tword = BitVec.ofNat 32 w ∧ r.f.trap.tlanes = act s ∧
       r.f.trap.tepc = s.f.sp.pos.pkt ∧ r.f.trap.wslot = s.f.sp.pos.slot ∧ r.f.trap.gslot = s.f.sp.pos.slot ∧
       r.f.k = s.f.k ∧ r.w = { s.w with stall := 0 } ∧ r.mem = s.mem) ∧
     (s.f.trapped = true → inHandler s.f = true →
       ∃ r, exec (.trap p i) s = .next r ∧ r.f = { s.f with st := .waiting [.held 0x1E8 (some s.f.sp.pos.next)], wake := false } ∧
         r.w = { s.w with stall := 0 })) ∧
  (∀ (s : State) (p : Pfx) (k : Nat), s.cur = .vec k →
     (inHandler s.f = false → illegal s (.tret p) = some 0x00B) ∧
     (∀ x i, inHandler s.f = false → i = 0x10#8 ∨ i = 0x16#8 ∨ i = 0x17#8 → illegal s (.csrw p x i) = some 0x00B) ∧
     (inHandler s.f = true → illegal s (.tret p) = none) ∧
     (s.grp.isSome = true → inHandler s.f = true → (∀ q ∈ (rW s).pend, q.fib ≠ fidOf s ∨ q.hs = false) →
       exec (.tret p) s = .next (setXfer s .tret)))

/-- 10 R184, 06 R108, R109, Tables 6.3 to 6.8: `csrr` writes k[x] with what the register of that number reads; `csrw`
changes only the fields marked RW or W1C. 08 R152, 06 R108 to R110: rounding mode, flags and amax registers read and
changed. -/
def Obligations.SpecialRegisterWords : Prop :=
  ((∀ (s : State) (p : Pfx) (x : KReg) (i : BitVec 8), Enabled s (.csrr p x i) →
      ∃ v t, exec (.csrr p x i) s = .next t ∧
        (i ≠ 0x21#8 → i ≠ 0x22#8 → t = writeK s x.val v) ∧
        (i = 0x00#8 → v = (rF s).fmode) ∧ (i = 0x01#8 → v = (rF s).fflags) ∧
        (i = 0x02#8 → v = (rF s).amax.getD 0 0) ∧ (i = 0x03#8 → v = (rF s).amax.getD 1 0) ∧
        (i = 0x05#8 → v = (rF s).sp.mask) ∧ (i = 0x06#8 → v = (rF s).live) ∧
        (i = 0x10#8 → v = BitVec.ofNat 32 ((rF s).trap.cause + (rF s).trap.wslot * 2 ^ 9 + (rF s).trap.gslot * 2 ^ 11 +
          (if (rF s).trap.resume then 2 ^ 16 else 0))) ∧
        (i = 0x11#8 → v = (rF s).trap.tepc) ∧ (i = 0x12#8 → v = (rF s).trap.tword) ∧
        (i = 0x13#8 → v = lo32 (rF s).trap.taddr) ∧ (i = 0x15#8 → v = (rF s).trap.tlanes) ∧
        (i = 0x16#8 → v = (rF s).trap.tscr0) ∧ (i = 0x17#8 → v = (rF s).trap.tscr1) ∧
        (i = 0x20#8 → v = (getCl s (curCl s)).sprep) ∧
        (i = 0x21#8 → v = lo32 s.cyc ∧ t.f.cyHi = some (hi32 s.cyc) ∧ kGet t.f x.val = kGet (writeK s x.val v).f x.val) ∧
        (∀ h, i = 0x22#8 → (rF s).cyHi = some h → v = h ∧ t.f.cyHi = none ∧ kGet t.f x.val = kGet (writeK s x.val v).f x.val)) ∧
   (∀ (s : State) (p : Pfx) (x : KReg) (i : BitVec 8), Enabled s (.csrw p x i) → KReady s x →
      let v := kNow s x
      ∃ f, exec (.csrw p x i) s = .next { s with f := f } ∧
        (i = 0x00#8 → f = { s.f with fmode := f.fmode } ∧
          (∀ b, b < 32 → f.fmode.getLsbD b =
            if b < 3 then (if v.extractLsb' 0 3 = 0 ∨ 6 ≤ (v.extractLsb' 0 3).toNat then s.f.fmode else v).getLsbD b
            else (b == 3 || b == 4 || (8 ≤ b && b ≤ 16)) && v.getLsbD b)) ∧
        (i = 0x01#8 → f = { s.f with fflags := s.f.fflags &&& ~~~v }) ∧
        (i = 0x10#8 → f = { s.f with trap := { s.f.trap with resume := v.getLsbD 16 } }) ∧
        (i = 0x16#8 → f = { s.f with trap := { s.f.trap with tscr0 := v } }) ∧
        (i = 0x17#8 → f = { s.f with trap := { s.f.trap with tscr1 := v } }))) ∧
  (∀ (s : State) (p : Pfx),
     (∀ m, Enabled s (.setrm p m) → exec (.setrm p m) s = .next
       (if m.toNat = 0 ∨ 6 ≤ m.toNat then s
        else { s with f := { s.f with fmode := (s.f.fmode &&& 0xFFFFFFF8#32) ||| m.setWidth 32 } })) ∧
     (∀ x, Enabled s (.rdflags p x) → exec (.rdflags p x) s = .next (writeK s x.val (rF s).fflags)) ∧
     (∀ m, Enabled s (.clrflags p m) → exec (.clrflags p m) s =
       .next { s with f := { s.f with fflags := s.f.fflags &&& ~~~(m.setWidth 32) } }) ∧
     (∀ x, Enabled s (.rdamax p x false) → exec (.rdamax p x false) s = .next (writeK s x.val ((rF s).amax.getD 0 0))) ∧
     (∀ x, Enabled s (.rdamax p x true) → exec (.rdamax p x true) s = .next (writeK s x.val ((rF s).amax.getD 1 0))) ∧
     (Enabled s (.clramax p false) → exec (.clramax p false) s = .next { s with f := { s.f with amax := s.f.amax.set 0 0 } }) ∧
     (Enabled s (.clramax p true) → exec (.clramax p true) s = .next { s with f := { s.f with amax := s.f.amax.set 1 0 } }))

/-! Streams. -/

/-- 18 R326, R328 to R330: a record bound, reset, advanced and read. A bound stream stands at position 0 with the record
of 64 bytes at the pair's address, or with the one it holds; `sadv` of 0 has no effect; `sstat` reads what stood before
the group. An unbound stream faults with kind 0, a captured one with kind 4. -/
def Obligations.StreamWords : Prop :=
  (∀ (s : State) (p : Pfx) (x : KReg) (i : Fin 4),
     (∀ l, Enabled s (.sbind p x i) → KReady s x → KReady s (Fin.ofNat 16 (x.val + 1)) →
       (getS s i.val).captor = none → ((getS s i.val).bound = false ∨ rcOut (getS s i.val).desc = false ∨ (getS s i.val).writes = 0) →
       locate s (whoCur s) .img (pair64 (kNow s x) (kNow s (Fin.ofNat 16 (x.val + 1)))) 64 = .ok l →
       (readLoc s l 64).2 = false →
       let r := BitVec.ofNat 512 (readLoc s l 64).1
       (rcRag r = true → feature s 10 = true) → rcInd r = false → rcBad r i.val = false → i.val < s.f.streams.length →
       ∃ t, exec (.sbind p x i) s = .next t ∧ (getS t i.val).bound = true ∧ (getS t i.val).desc = r ∧
         (getS t i.val).pos = 0 ∧ (getS t i.val).fetched = [] ∧ (getS t i.val).ended = false ∧ (getS t i.val).eod = 0 ∧
         t.w = s.w ∧ t.mem = s.mem ∧ t.f.k = s.f.k) ∧
     (Enabled s (.srst p i) → (getS s i.val).bound = true → (getS s i.val).captor = none →
       rcInd (getS s i.val).desc = false → rcBad (getS s i.val).desc i.val = false →
       i.val < s.f.streams.length →
       ∃ t, exec (.srst p i) s = .next t ∧ (getS t i.val).bound = true ∧ (getS t i.val).desc = (getS s i.val).desc ∧
         (getS t i.val).pos = 0 ∧ (getS t i.val).ended = false ∧ (getS t i.val).eod = 0 ∧ t.w = s.w ∧ t.mem = s.mem) ∧
     (Enabled s (.sadv p x i) → KReady s x → (getS s i.val).bound = true → (getS s i.val).captor = none →
       (kNow s x = 0 → exec (.sadv p x i) s = .next s) ∧
       (kNow s x ≠ 0 → rcRag (getS s i.val).desc = false → rcInd (getS s i.val).desc = false →
         (getS s i.val).pos + (kNow s x).toNat < rcTotal (getS s i.val).desc → i.val < s.f.streams.length →
         ∃ t, exec (.sadv p x i) s = .next t ∧ (getS t i.val).pos = (getS s i.val).pos + (kNow s x).toNat ∧
           (getS t i.val).ended = false ∧ (getS t i.val).desc = (getS s i.val).desc ∧ t.w = s.w ∧ t.mem = s.mem)) ∧
     (∀ g, Enabled s (.sstat p x i) → s.grp = some g →
       exec (.sstat p x i) s = .next (writeK s x.val (streamStatus (g.f.streams.getD i.val Stream.unbound))))) ∧
  (∀ (s : State) (g : Grp) (p : Pfx) (x : KReg) (i : Fin 4), s.grp = some g → g.fault = none →
     let failed := fun c => Host.Outcome.next (φ := Fault) (ρ := Refusal)
       { s with grp := some { g with fault := some (c, g.slot, act s, 0#64), keep := false } }
     (Enabled s (.srst p i) → (getS s i.val).bound = false → exec (.srst p i) s = failed (0x0C0 + 16 * i.val)) ∧
     (Enabled s (.srst p i) → (getS s i.val).bound = true → (getS s i.val).captor ≠ none →
       exec (.srst p i) s = failed (0x0C4 + 16 * i.val)) ∧
     (Enabled s (.sadv p x i) → KReady s x → (getS s i.val).bound = false → exec (.sadv p x i) s = failed (0x0C0 + 16 * i.val)) ∧
     (Enabled s (.sadv p x i) → KReady s x → (getS s i.val).bound = true → (getS s i.val).captor ≠ none →
       exec (.sadv p x i) s = failed (0x0C4 + 16 * i.val)))

/-! Floating-point words. -/

/-- 08 R138 to R150: what each floating-point word writes, lane by lane, from the elements read, and the flags that its
active live lanes set; FP64 words on pairs. `sacc` adds to d's old element, zero where d holds none (log 20). -/
def Obligations.FloatResults : Prop :=
  (∀ (s s1 s2 t : State) (i : Instr) (d : Dst) (a b : Src) (x y : Row) (m n : LaneSet), Enabled s i →
     readSrc s a = .ok (s1, x, m) →
     (∀ pipe f, floatOne s i = some (pipe, d, a, f) → writeDst s1 pipe d (rowGen fun l => (f (lane x l)).1) = .ok t →
       exec i s = .next (raise t pipe (lanesFlags (act s &&& m) fun l => (f (lane x l)).2))) ∧
     (readSrc s1 b = .ok (s2, y, n) →
       (∀ f, floatTwo s i = some (d, a, b, f) →
         writeDst s2 1 d (rowGen fun l => (f (lane x l) (lane y l)).1) = .ok t →
         exec i s = .next (raise t 1 (lanesFlags (act s &&& m &&& n) fun l => (f (lane x l) (lane y l)).2))) ∧
       (∀ w f, floatAmax s i = some (d, a, b, w, f) →
         writeDst s2 1 d (rowGen fun l => (f (lane x l) (lane y l)).1) = .ok t →
         exec i s = .next (foldAmax (raise t 1 (lanesFlags (act s &&& m &&& n) fun l => (f (lane x l) (lane y l)).2))
           w (act s &&& m &&& n) x)) ∧
       (∀ c f z, floatThree s i = some (d, a, b, c, f) → readN s2 c.val = .ok z →
         writeDst s2 1 d (rowGen fun l => (f (lane x l) (lane y l) (lane z l)).1) = .ok t →
         exec i s = .next (raise t 1
           (lanesFlags (act s &&& m &&& n) fun l => (f (lane x l) (lane y l) (lane z l)).2))) ∧
       (∀ p c old s3 z o, i = .sacc p d a b c → readOld s d = .ok old → readSrc s2 c = .ok (s3, z, o) →
         let f := fun l => saccValue (rmOf (rF s).fmode) (fiOf (rF s).fmode) (foOf (rF s).fmode) (lane old l).toNat
           (lane x l).toInt ((lane y l).toNat % 2 ^ 16) ((lane z l).toNat % 2 ^ 16)
         writeDst s3 1 d (rowGen fun l => BitVec.ofNat 32 (f l).1) = .ok t →
         exec i s = .next (raise t 1 (lanesFlags (act s &&& m &&& n &&& o) fun l => (f l).2))))) ∧
  (∀ (s t : State) (i : Instr), Enabled s i →
     (∀ d a b f x y, floatPair s i = some (d, a, b, f) → readPair s a = .ok x → readPair s b = .ok y →
       writePair64 s 1 d (fun l => BitVec.ofNat 64 (f (lane64 x l) (lane64 y l)).1) = .ok t →
       exec i s = .next (raise t 1 (lanesFlags (act s) fun l => (f (lane64 x l) (lane64 y l)).2))) ∧
     (∀ p d a b r x y lo hi, i = .ffmaF64 p d a b r → readN s d.val = .ok lo → readN s (d.val + 1) = .ok hi →
       readPair s a = .ok x → readPair s b = .ok y →
       let f := fun l => fFma fmt64 (Rnd.mode (rF s).fmode r) false false false false (lane64 x l).toNat (lane64 y l).toNat
         (lane64 (lo, hi) l).toNat
       writePair64 s 1 d (fun l => BitVec.ofNat 64 (f l).1) = .ok t →
       exec i s = .next (raise t 1 (lanesFlags (act s) fun l => (f l).2))) ∧
     (∀ p d a s1 x m, i = .cvtF64F32 p d a → readSrc s a = .ok (s1, x, m) →
       let f := fun l => convert fmt32 fmt64 .rn false false (lane x l).toNat
       writePair64 s1 1 d (fun l => BitVec.ofNat 64 (f l).1) = .ok t →
       exec i s = .next (raise t 1 (lanesFlags (act s &&& m) fun l => (f l).2))) ∧
     (∀ p d a x, i = .cvtF32F64 p d a → readPair s a = .ok x →
       let f := fun l => convert fmt64 fmt32 (rmOf (rF s).fmode) false false (lane64 x l).toNat
       writeDst s 1 d (rowGen fun l => BitVec.ofNat 32 (f l).1) = .ok t →
       exec i s = .next (raise t 1 (lanesFlags (act s) fun l => (f l).2))))
/-- 05 R82, R83, Table 5.3: an exact value of either sign, no larger than the largest finite one, is delivered as the
code the mode chooses among all finite codes, NX saying whether it differs; one at least a unit larger overflows. -/
def Obligations.RoundingModes : Prop :=
  ∀ (f : Fmt) (md : RMode) (neg : Bool) (m : Nat) (e : Int), f ∈ binaryFormats → 0 < m →
    let x := (Val.fin neg m e).rat
    let r := f.round md false (.fin neg m e)
    (apart x 0 ≤ f.num f.maxFin →
      Delivers f md x r.1 ∧ (r.2.getLsbD 4 = true ↔ f.num r.1 ≠ x) ∧ r.2.getLsbD 2 = false ∧ r.2.getLsbD 0 = false) ∧
    (f.num f.maxFin + (f.num f.maxFin - f.num (f.maxFin - 1)) ≤ apart x 0 →
      r.2 = flagOF ||| flagNX ∧
      r.1 = f.signBit neg +
        (if f.hasInf = true ∧ (md = .rn ∨ md = .ra ∨ (md = .ru ∧ neg = false) ∨ (md = .rm ∧ neg = true))
         then f.infCode else f.maxFin))
/-- 05 R81 to R83, 08 R138, R139, R141: an operation on finite codes rounds the exact result once; a NaN operand gives
the format's NaN, with NV for a signalling one, as ∞ − ∞ and 0 × ∞ do; −0 arises from x − x only under `.rm`. -/
def Obligations.ExactThenRounded : Prop :=
  ∀ (f : Fmt) (md : RMode) (fo : Bool) (a b c : Nat), f ∈ binaryFormats →
    let x := f.decode a
    let y := f.decode b
    let z := f.decode c
    (x.finite = true → y.finite = true →
      (∃ v : Val, v.finite = true ∧ v.rat = x.rat + y.rat ∧ fAdd f md false fo a b = f.round md fo v ∧
        (v.rat = 0 → x.sign ≠ y.sign → v.sign = decide (md = .rm))) ∧
      (∃ v : Val, v.finite = true ∧ v.rat = x.rat - y.rat ∧ fSub f md false fo a b = f.round md fo v ∧
        (v.rat = 0 → x.sign = y.sign → v.sign = decide (md = .rm))) ∧
      (∃ v : Val, v.finite = true ∧ v.rat = x.rat * y.rat ∧ fMul f md false fo a b = f.round md fo v ∧
        v.sign = (x.sign != y.sign)) ∧
      (z.finite = true → ∀ np nc, ∃ v : Val, v.finite = true ∧
        v.rat = (if np then -1 else 1) * (x.rat * y.rat) + (if nc then -1 else 1) * z.rat ∧
        fFma f md false fo np nc a b c = f.round md fo v) ∧
      (f.decode (fMinMax f false false a b).1).rat = min x.rat y.rat ∧
      (f.decode (fMinMax f false true a b).1).rat = max x.rat y.rat) ∧
    (x.isNan = true ∨ y.isNan = true →
      (fAdd f md false fo a b).1 = f.nanCode ∧ (fMul f md false fo a b).1 = f.nanCode ∧
      (fAdd f md false fo a b).2 = flagIf (x.isSnan || y.isSnan) flagNV ∧
      (fMul f md false fo a b).2 = flagIf (x.isSnan || y.isSnan) flagNV) ∧
    (∀ n, x = .inf n → y = .inf (!n) → fAdd f md false fo a b = (f.nanCode, flagNV)) ∧
    (∀ n, x.isZero = true → y = .inf n → fMul f md false fo a b = (f.nanCode, flagNV)) ∧
    (∀ n, x = .inf n → f.hasInf = true ∧ (y.finite = true → fAdd f md false fo a b = (f.signBit n + f.infCode, 0#8)))

/-! Cross-lane words. -/

/-- 09 R153, R157 to R164, R168: shuffles, votes, counts, scans, reductions and rankings write the active lanes (by
`ResultWrites`, `RegisterWrites`); `xshuf` with no partner copies, with one sends its row and waits; `regroup` asks for
the move and waits. -/
def Obligations.CrossLaneWords : Prop :=
  ∀ (s s1 s2 t : State) (i : Instr) (d : Dst) (a b : Src) (x y : Row) (m n : LaneSet), Enabled s i →
    (∀ k v, voteWord s i = some (k, v) → exec i s = .next (writeM s k.val (if v then 0xFFFFFFFF#32 else 0#32))) ∧
    (∀ p k j, i = .ballot p k j → exec i s = .next (writeK s k.val (readM s j &&& act s))) ∧
    (∀ p j, i = .mpopcBelow p d j →
      writeDst s 3 d (rowGen fun l => BitVec.ofNat 32 (countBelow s (readM s j) l)) = .ok t → exec i s = .next t) ∧
    (∀ p j, i = .mpopcTotal p d j →
      writeDst s 3 d (rowGen fun _ => BitVec.ofNat 32 (countBelow s (readM s j) 32)) = .ok t → exec i s = .next t) ∧
    (readSrc s a = .ok (s1, x, m) →
      (∀ h o, foldWord s i = some (d, a, h, o, false) →
        let r := scanRow o (rmOf (rF s).fmode) (fiOf (rF s).fmode) (foOf (rF s).fmode) (act s) m (segHeads (act s) h) x
        writeDst s1 3 d r.1 = .ok t → exec i s = .next (raise t 3 r.2)) ∧
      (∀ h o, foldWord s i = some (d, a, h, o, true) →
        let r := reduceRow o (rmOf (rF s).fmode) (fiOf (rF s).fmode) (foOf (rF s).fmode) (act s) m (segHeads (act s) h) x
        writeDst s1 3 d r.1 = .ok t → exec i s = .next (raise t 3 r.2)) ∧
      (readSrc s1 b = .ok (s2, y, n) →
        (∀ f, shuffleWord i = some (d, a, b, f) → srcPois s a = 0 →
          writeDst s2 3 d (rowGen fun l =>
            if 0 ≤ f l (lane y l) ∧ f l (lane y l) ≤ 31 then lane x (f l (lane y l)).toNat else lane x l) = .ok t →
          exec i s = .next t) ∧
        (∀ p o l, i = .topk p d a b o → (act s).getLsbD l = true → (∀ j, j < l → (act s).getLsbD j = false) →
          writeDst s2 3 d (topkRow o 32 ((lane y l).toNat % 64) (act s) x) = .ok t → exec i s = .next t) ∧
        (∀ p o l, i = .topkSeg p d a b o → (act s).getLsbD l = true → (∀ j, j < l → (act s).getLsbD j = false) →
          writeDst s2 3 d (topkRow o (2 ^ min ((lane y l).toNat / 256 % 8) 5) ((lane y l).toNat % 64) (act s) x) = .ok t →
          exec i s = .next t) ∧
        (∀ p l, i = .xshuf p d a b → inHandler s.f = false → (act s).getLsbD l = true →
          (∀ j, j < l → (act s).getLsbD j = false) →
          let g := s.w.g ^^^ (lane y l).toNat
          (lane y l = 0 ∨ warpExists (curL s).hdr g s.w.idx = false → writeDst s2 3 d x = .ok t → exec i s = .next t) ∧
          (∀ u, lane y l ≠ 0 → warpExists (curL s).hdr g s.w.idx = true → nSplits s.f = 1 → srcPois s a = 0 →
            laterResult s2 d = .ok u → unitHasRoom u = true →
            ∃ v, exec i s = .next v ∧ v.mem = s2.mem ∧ v.f = { u.f with exLost := none } ∧ v.w = u.w ∧
              (getCl v (curCl u)).xbuf = (getCl u (curCl u)).xbuf ++ [⟨u.w.launch, u.w.g, g, u.w.idx, fidOf u, u.f.exch, x⟩] ∧
              ∃ h, u.grp = some h ∧ v.grp = some { h with waits := h.waits ++ [.xshuf u.f.exch g d] }))) ∧
      (∀ p u, i = .regroup p d a → inHandler s.f = false → nSplits s.f = 1 →
        (∀ q ∈ (rW s).pend, ∀ r ∈ q.rows, r.1 ∉ windowRows s) → laterResult s1 d = .ok u →
        ∃ v h, exec i s = .next v ∧ v.mem = u.mem ∧ v.f = u.f ∧ v.w = u.w ∧ u.grp = some h ∧
          v.grp = some { h with waits := h.waits ++ [.regroup d x] }))
/-- 09 R159 to R162: a scan's element is the fold of its segment up to its lane; a reduction's is the tree over lane
positions; rank j of a group of lanes is the lane with j lanes before it in the order, ties by lane, 0xFFFFFFFF past the
count. -/
def Obligations.FoldValues : Prop :=
  (∀ (md : RMode) (fo : Bool) (x y : Word),
    RedOp.addS32.combine md fo x y = (x + y, 0#8) ∧
    (RedOp.maxS32.combine md fo x y).1 = (if x.toInt < y.toInt then y else x) ∧
    (RedOp.minS32.combine md fo x y).1 = (if y.toInt < x.toInt then y else x) ∧
    (RedOp.maxZ32.combine md fo x y).1 = (if x.toNat < y.toNat then y else x) ∧
    (RedOp.minZ32.combine md fo x y).1 = (if y.toNat < x.toNat then y else x) ∧
    (RedOp.addF32.combine md fo x y).1 = BitVec.ofNat 32 (fAdd fmt32 md false fo x.toNat y.toNat).1 ∧
    (RedOp.maxF32.combine md fo x y).1 = BitVec.ofNat 32 (fMinMax fmt32 false true x.toNat y.toNat).1 ∧
    (RedOp.minF32.combine md fo x y).1 = BitVec.ofNat 32 (fMinMax fmt32 false false x.toNat y.toNat).1) ∧
  ∀ (md : RMode) (fi fo : Bool) (act m : LaneSet) (a : Row) (l : Nat), l < 32 → act.getLsbD l = true →
    (∀ o : RedOp,
      lane (scanRow o md fi fo act act (segHeads act m) a).1 l = scanAt o md fi fo act m a l ∧
      some (lane (reduceRow o md fi fo act act (segHeads act m) a).1 l) =
        treeNode o md fi fo (setOf fun j => act.getLsbD j && segBegin act m j == segBegin act m l) a 5 0) ∧
    (∀ (o : TopOp) (e k : Nat), e ≤ 5 →
      let base := l / 2 ^ e * 2 ^ e
      let group := (List.range (2 ^ e)).map (base + ·) |>.filter fun j => act.getLsbD j
      let before := fun (x y : Nat) => ranksAbove o (lane a x) (lane a y) || (!ranksAbove o (lane a y) (lane a x) && decide (x < y))
      lane (topkRow o (2 ^ e) k act a) l =
        (match group.find? fun c => group.countP (fun j => before j c) == l - base with
         | some c => if l - base < k then BitVec.ofNat 32 c else 0xFFFFFFFF#32
         | none => 0xFFFFFFFF#32))

/-! Memory words. -/

/-- 13 R229 to R237: a load leaves every memory as it is; its values, read at the places of its lanes, are on their way
to d, the result queue and the latch of the memory pipe, one more load counted. `ldk` the same into k-registers. -/
def Obligations.LoadWords : Prop :=
  ∀ (s : State) (i : Instr) (v : Nat), Enabled s i → s.cur = .vec v → MayAccess s 0 false false → NoLinkDown s →
    (∀ d n size ra rl ext addrs locs, loadForm s i = some (d, n, size, ra, rl, ext) →
      (∀ j, j < n → rowOf s (d + j) < (rW s).rows.length) → ra = .ok addrs → rl addrs = .ok locs →
      regsInOrder s locs = .ok () →
      ∃ t q, exec i s = .next t ∧ MemFrame s t ∧ (∀ k, k < 4 → memOf t k = memOf s k) ∧
        InFlight s t ((List.range n).map fun j => rowOf s (d + j)) q ∧
        (n = 1 → ∀ x ∈ locs, lane (q.data.getD 0 zeroRow) x.1 = ext (valueAt s x.2 size).1) ∧
        (n ≠ 1 → ∀ x ∈ locs, ∀ j, j < n →
          lane (q.data.getD j zeroRow) x.1 = BitVec.ofNat 32 ((valueAt s x.2 size).1 / 2 ^ (32 * j)))) ∧
    (∀ p d a z o r c base loc, i = .ldk p d a z o r c → readKK s a = .ok base →
      locate s (whoCur s) .ldk (base + BitVec.ofNat 64 (o.val * kBytes z)) (kBytes z) = .ok loc →
      regsInOrder s [(0, loc)] = .ok () →
      ∃ t q pre, exec i s = .next t ∧ MemFrame s t ∧ (∀ k, k < 4 → memOf t k = memOf s k) ∧ t.f.q = s.f.q ∧ t.f.b = s.f.b ∧
        t.w.pend = pre ++ [q] ∧ pre.length = s.w.pend.length ∧ q.kind = .load ∧ q.fib = fidOf s ∧ q.seq = s.f.seq ∧
        q.rows = [] ∧ q.hb = kBanked s.f d.val ∧ t.f.cnt = s.f.cnt.set 0 (cntOf s.f 0 + 1) ∧
        q.ks = (List.range (kRegs z)).map fun j =>
          (d.val + j, BitVec.ofNat 32 ((valueAt s loc (kBytes z)).1 / 2 ^ (32 * j))))
/-- 13 R229, R232 to R237: a store leaves the memories as its lanes' writes leave them, lowest lane first, and every
other byte as it was; the store is in flight, counted, and nothing of the fibre's registers changes. Stores to registers
of path 0x7 are stated by `CopyEngineEvents`. -/
def Obligations.StoreWords : Prop :=
  ∀ (s : State) (i : Instr) (v : Nat), Enabled s i → s.cur = .vec v → MayAccess s 1 true (orderOf i == .rel) →
    unitHasRoom s = true → NoLinkDown s → NoErrors s →
    (∀ d n size ra rl addrs locs rows, storeForm s i = some (d, n, size, ra, rl) → readRun s d n = .ok rows →
      ra = .ok addrs → rl addrs = .ok locs → (∀ x ∈ locs, ∀ o, x.2 ≠ .reg o) →
      ∃ t q, exec i s = .next t ∧ MemFrame s t ∧ t.f.q = s.f.q ∧ t.f.b = s.f.b ∧
        (∀ k, k < 4 → memOf t k = storesTo s k size (fun l => laneValue rows l % 2 ^ (8 * size)) locs (memOf s k)) ∧
        t.w.pend = s.w.pend ++ [q] ∧ q.kind = .store ∧ q.fib = fidOf s ∧ q.rows = [] ∧ q.ks = [] ∧
        t.f.cnt = s.f.cnt.set 1 (cntOf s.f 1 + 1)) ∧
    (∀ p d a z o r c lo hi base loc, i = .stk p d a z o r c → readK s d = .ok lo →
      (if kRegs z = 2 then readK s (Fin.ofNat 16 (d.val + 1)) else .ok 0) = .ok hi → readKK s a = .ok base →
      locate s (whoCur s) .stk (base + BitVec.ofNat 64 (o.val * kBytes z)) (kBytes z) = .ok loc → (∀ o, loc ≠ .reg o) →
      ∃ t q, exec i s = .next t ∧ MemFrame s t ∧ t.f.q = s.f.q ∧ t.f.b = s.f.b ∧
        (∀ k, k < 4 → memOf t k =
          storesTo s k (kBytes z) (fun _ => (pair64 lo hi).toNat % 2 ^ (8 * kBytes z)) [(0, loc)] (memOf s k)) ∧
        t.w.pend = s.w.pend ++ [q] ∧ q.kind = .store ∧ t.f.cnt = s.f.cnt.set 1 (cntOf s.f 1 + 1))
/-- 13 R238 to R241: atomics, each lane one step in lane order, on every place; `atom.cas` writes where the old value
equals d's; `atom.xadd` adds to an exact cell of 16 bytes, returns nothing and sets XO where it overflows. Each atomic
completes, on a state and operands that meet the conditions of `AtomicsReady` alone: its next state is that of its own
effect, on the places of its lanes and on d. -/
def Obligations.AtomicWords : Prop :=
  (∀ (s : State) (i : Instr) (v : Nat), Enabled s i → s.cur = .vec v → MayAccess s 0 true (orderOf i == .rel) →
      unitHasRoom s = true → NoLinkDown s → NoErrors s →
      (∀ d a z f rows addrs locs, atomForm i = some (d, a, z, f) → readRun s d.val (aRegs z) = .ok rows →
        readAddrs s a 0 = .ok addrs → locWord s .atom addrs (aBytes z) = .ok locs →
        ∃ t, exec i s = .next t ∧
          AtomDone s t locs (aBytes z) d.val (aRegs z) fun l old => f old (laneValue rows l) % 2 ^ (8 * aBytes z)) ∧
      (∀ p d a z r c old new addrs locs, i = .atomCas p d a z r c → readRun s d.val (aRegs z) = .ok old →
        readRun s (d.val + aRegs z) (aRegs z) = .ok new → readAddrs s a 0 = .ok addrs →
        locWord s .atom addrs (aBytes z) = .ok locs →
        ∃ t, exec i s = .next t ∧
          AtomDone s t locs (aBytes z) d.val (aRegs z) fun l x => if x = laneValue old l then laneValue new l else x) ∧
      (∀ p d a z r c rows addrs locs, i = .atomXadd p d a z r c → readRun s d.val (aRegs z) = .ok rows →
        readAddrs s a 0 = .ok addrs → locWord s .atom addrs 16 = .ok locs →
        let fmt := if z = .b32 then fmt32 else fmt64
        let cell := fun (l x : Nat) => exactCellAdd (BitVec.ofNat 128 x) (fmt.decode (laneValue rows l))
        let ovf := locs.any fun y => (placeOf s true y.2).isSome &&
          (atomsOn s 16 (fun l x => (cell l x).1.toNat) locs (memOf s)).2.any fun x => x.1 == y.1 && (cell x.1 x.2).2
        ∃ t g, exec i s = .next t ∧ AtomDone s t locs 16 d.val 0 (fun l x => (cell l x).1.toNat) ∧ s.grp = some g ∧
          t.grp = some (if ovf then { g with flags := g.flags ++ [(g.slot, 2, flagXO)] } else g))) ∧
  (∀ (s : State) (p : Pfx) (d a : NReg) (z : ASize) (r : MOrd) (c : Scope) (v : Nat) (rows : List Row)
      (addrs : List (Nat × Word64)), AtomicsReady s r v → readRun s d.val (aRegs z) = .ok rows → readAddrs s a 0 = .ok addrs →
      let val := fun l => laneValue rows l
      let sg := fun (x : Nat) => signedOf (aBytes z) x
      (∀ locs, locWord s .atom addrs (aBytes z) = .ok locs →
        let done := fun (t : State) (f : Nat → Nat → Nat) =>
          AtomDone s t locs (aBytes z) d.val (aRegs z) fun l x => f x (val l) % 2 ^ (8 * aBytes z)
        (Enabled s (.atomAdd p d a z r c) → ∃ t, exec (.atomAdd p d a z r c) s = .next t ∧ done t fun x y => x + y) ∧
        (Enabled s (.atomAnd p d a z r c) → ∃ t, exec (.atomAnd p d a z r c) s = .next t ∧ done t fun x y => x &&& y) ∧
        (Enabled s (.atomOr p d a z r c) → ∃ t, exec (.atomOr p d a z r c) s = .next t ∧ done t fun x y => x ||| y) ∧
        (Enabled s (.atomXor p d a z r c) → ∃ t, exec (.atomXor p d a z r c) s = .next t ∧ done t fun x y => x ^^^ y) ∧
        (Enabled s (.atomMinS p d a z r c) → ∃ t, exec (.atomMinS p d a z r c) s = .next t ∧
          done t fun x y => if sg y < sg x then y else x) ∧
        (Enabled s (.atomMaxS p d a z r c) → ∃ t, exec (.atomMaxS p d a z r c) s = .next t ∧
          done t fun x y => if sg x < sg y then y else x) ∧
        (Enabled s (.atomMinZ p d a z r c) → ∃ t, exec (.atomMinZ p d a z r c) s = .next t ∧ done t fun x y => min x y) ∧
        (Enabled s (.atomMaxZ p d a z r c) → ∃ t, exec (.atomMaxZ p d a z r c) s = .next t ∧ done t fun x y => max x y) ∧
        (Enabled s (.atomExch p d a z r c) → ∃ t, exec (.atomExch p d a z r c) s = .next t ∧ done t fun _ y => y) ∧
        (∀ new, readRun s (d.val + aRegs z) (aRegs z) = .ok new → Enabled s (.atomCas p d a z r c) →
          ∃ t, exec (.atomCas p d a z r c) s = .next t ∧
            AtomDone s t locs (aBytes z) d.val (aRegs z) fun l x => if x = val l then laneValue new l else x) ∧
        (z = .b32 → Enabled s (.atomFadd p d a r c) → ∃ t, exec (.atomFadd p d a r c) s = .next t ∧
          done t fun x y => (fAdd fmt32 .rn false false x y).1)) ∧
      (∀ cells, locWord s .atom addrs 16 = .ok cells → Enabled s (.atomXadd p d a z r c) →
        ∃ t, exec (.atomXadd p d a z r c) s = .next t ∧
          AtomDone s t cells 16 d.val 0 fun l x =>
            (exactCellAdd (BitVec.ofNat 128 x) ((if z = .b32 then fmt32 else fmt64).decode (val l))).1.toNat))

/-! Barriers, fences, sealing, reductions, signals. -/

/-- 13 R242 to R251, 22 R371: an arrival and a signal are in flight, counted; `bar.wt` waits while the phase is the
given one; `bar.tst` reads the phase; a fence orders and changes no value: it stands in the history of accesses, and
`fence.strong` and `fence.rel` hold the fibre's later accesses back until its arrivals are performed; words over regions are
in flight with the parts their walks give; a reduction or device barrier of one waits for nothing, of more joins and waits, or
takes 0x1F6 where its route is down (25 R411); `enq` is in
flight. -/
def Obligations.SynchronisationWords : Prop :=
  ∀ (s : State) (i : Instr) (v : Nat), Enabled s i → s.cur = .vec v →
    (∀ p x (b : Fin 64) k, i = .barArr p x b → b.val < hNbar (curL s).hdr → readK s x = .ok k → MayAccess s 1 true false →
      unitHasRoom s = true → ∃ t, exec i s = .next t ∧ Sent s t 1 (.arrive b.val (k.toNat % 2 ^ 16))) ∧
    (∀ p x (b : Fin 64) k, i = .barWt p x b → b.val < hNbar (curL s).hdr → readK s x = .ok k →
      barBad s (curWg s) b.val = false →
      exec i s = .next (if barPhase (curBar s b.val) = k then setWait s (.barrier b.val k)
        else { s with hist := (noteBar s b.val).hist })) ∧
    (∀ p x (b : Fin 64), i = .barTst p x b → b.val < hNbar (curL s).hdr → barBad s (curWg s) b.val = false →
      exec i s = .next (writeK s x.val (barPhase (curBar s b.val)))) ∧
    (∀ p o c, i = .fence p o c → (o = .strong ∨ o = .rel → tbWaits s (curKey s) = false) → ∃ t u, exec i s = .next t ∧
      t = { s with hist := u :: s.hist, w := { s.w with pend := t.w.pend } } ∧ u.fence = true ∧ u.ord = o ∧ u.scope = c ∧
      u.ag = curKey s ∧ u.wg = curWg s ∧ (o = .weak ∨ o = .acq → t.w = s.w) ∧
      t.w.pend.length = s.w.pend.length ∧
      (∀ (n : Nat) (a b : Pend), s.w.pend[n]? = some a → t.w.pend[n]? = some b → b = { a with bar := b.bar } ∧
        (a.fib = fidOf s → isLater a.kind = true → (o = .strong → 2 ≤ b.bar) ∧ (o = .rel → 1 ≤ b.bar)) ∧
        (isLater a.kind = false → b = a))) ∧
    (∀ x w va n unit step legal k pas, readKK s x = .ok va → readK s w = .ok n →
      regionForm va i = some (x, w, unit, step, legal, k) →
      (n = 0 → exec i s = .next s) ∧
      (n ≠ 0 → MayAccess s 1 true (isUnseal i) → legal = true → va.toNat % unit = 0 →
        partsFrom s unit step (n.toNat * (unit / step)) va [] = .ok pas →
        ∃ t, exec i s = .next t ∧ Sent s t 1 (k pas))) ∧
    (∀ p x w o n z, i = .nred p x w o → readK s w = .ok n → readK s x = .ok z →
      let j := tget 0 (getCl s (curCl s)).seqR s.w.launch
      (n = 0 → exec i s = .next (writeK s x.val o.identity)) ∧ (n = 1 → exec i s = .next s) ∧
      (2 ≤ n.toNat → arrivalsOf (rW s) (fidOf s) = false → tbWaits s (curKey s) = false →
        linkLost s (agentPort s.cur) (foldPort s s.w.launch) = true →
        ∃ t h, exec i s = .next t ∧ t.redns = s.redns ∧ t.f = { s.f with fails := s.f.fails ++ [h] } ∧ t.w = s.w ∧ t.mem = s.mem ∧
          h.cause = 0x1F6 ∧ h.lanes = act s) ∧
      (2 ≤ n.toNat → arrivalsOf (rW s) (fidOf s) = false → tbWaits s (curKey s) = false →
        linkLost s (agentPort s.cur) (foldPort s s.w.launch) = false →
        (∀ r ∈ s.redns, r.launch = s.w.launch → r.bar = false → r.j ≠ j) →
        ∃ t g, exec i s = .next t ∧ t.redns = s.redns ++ [⟨s.w.launch, j, false, n.toNat, o, [(curKey s, curCl s, z)]⟩] ∧
          tget 0 (getCl t (curCl s)).seqR s.w.launch = j + 1 ∧ s.grp = some g ∧
          t.grp = some { g with waits := g.waits ++ [.nred j x.val] } ∧ t.f = s.f ∧ t.w = s.w ∧ t.mem = s.mem)) ∧
    (∀ p w n, i = .nbar p w → readK s w = .ok n →
      let j := tget 0 (getCl s (curCl s)).seqB s.w.launch
      (n = 0 ∨ n = 1 → exec i s = .next s) ∧
      (2 ≤ n.toNat → arrivalsOf (rW s) (fidOf s) = false → tbWaits s (curKey s) = false →
        linkLost s (agentPort s.cur) (foldPort s s.w.launch) = true →
        ∃ t h, exec i s = .next t ∧ t.redns = s.redns ∧ t.f = { s.f with fails := s.f.fails ++ [h] } ∧ t.w = s.w ∧ t.mem = s.mem ∧
          h.cause = 0x1F6 ∧ h.lanes = act s) ∧
      (2 ≤ n.toNat → arrivalsOf (rW s) (fidOf s) = false → tbWaits s (curKey s) = false →
        linkLost s (agentPort s.cur) (foldPort s s.w.launch) = false →
        (∀ r ∈ s.redns, r.launch = s.w.launch → r.bar = true → r.j ≠ j) →
        ∃ t g r, exec i s = .next t ∧ t.redns = s.redns ++ [r] ∧ r.launch = s.w.launch ∧ r.j = j ∧ r.bar = true ∧
          r.p = n.toNat ∧ r.con.map (·.1) = [curKey s] ∧ s.grp = some g ∧
          t.grp = some { g with waits := g.waits ++ [.nbar j] } ∧ t.f = s.f ∧ t.w = s.w ∧ t.mem = s.mem)) ∧
    (∀ p x w z n, i = .rsig p x w → readKK s x = .ok z → readK s w = .ok n → z.toNat < 2 ^ 38 →
      z.toNat / 2 ^ 32 < hNbar (curL s).hdr →
      (n.toNat % 2 ^ 16 = 0 → exec i s = .next s) ∧
      (n.toNat % 2 ^ 16 ≠ 0 → MayAccess s 1 true false → unitHasRoom s = true →
        ∃ t, exec i s = .next t ∧ Sent s t 1 (.rsig (z.toNat % 2 ^ 32) (z.toNat / 2 ^ 32) (n.toNat % 2 ^ 16)))) ∧
    (∀ p x (q : Fin 32) va l, i = .enq p x q → readKK s x = .ok va → locate s (whoCur s) .img va 64 = .ok l →
      MayAccess s 1 true false →
      ∃ t e pre, exec i s = .next t ∧ MemFrame s t ∧ t.w.pend = pre ++ [e] ∧ pre.length = s.w.pend.length ∧
        e.kind = .enq q.val l ∧ e.ks = [(15, 0#32)] ∧ t.f.cnt = s.f.cnt.set 1 (cntOf s.f 1 + 1) ∧
        ∀ j, j < 4 → memOf t j = memOf s j)

/-! Axis tables and handles. -/

/-- 17 R306 to R308, R313: `axins`, `axset` and `axdel` change the current fibre's working copy and hold the axis; what is
published stays. `axrd` and `thget` write what they read to memory as one store, whoever holds the axis. `thset` and
`thfill` replace a descriptor of handle 2 or above and publish; no other byte of any memory changes. -/
def Obligations.TableWords : Prop :=
  ∀ (s : State) (i : Instr) (p : Pfx) (x w : KReg) (n : Nat), Enabled s i → s.cur = .vec n → AreasApart s →
    (∀ h r j a va v, MayEdit s x h r j a → readKK s w = .ok va → readImage s va 1 = .ok v →
      let e := entryOf v
      let t := workOf s a
      (i = .axins p x w → j ≤ t.length → t.length < a.cap → e.mode ≤ 4 → Ordered (t.take j ++ e :: t.drop j) →
        ∃ u, exec i s = .next u ∧ Edited s u h r a (t.take j ++ e :: t.drop j)) ∧
      (i = .axset p x w → j < t.length → e.mode ≤ 4 → Ordered (t.set j e) →
        ∃ u, exec i s = .next u ∧ Edited s u h r a (t.set j e))) ∧
    (∀ h r j a, MayEdit s x h r j a → i = .axdel p x → j < (workOf s a).length →
      ∃ u, exec i s = .next u ∧ Edited s u h r a ((workOf s a).eraseIdx j)) ∧
    (∀ h r j a va l, NamesAxis s x h r j a → i = .axrd p x w → readKK s w = .ok va → pieces s .imgW va 1 = .ok l →
      j < (workOf s a).length → MayAccess s 1 true false → unitHasRoom s = true → NoErrors s →
      ∃ u, exec i s = .next u ∧ MemFrame s u ∧ u.f.cnt = s.f.cnt.set 1 (cntOf s.f 1 + 1) ∧
        ∀ k, k < 4 → memOf u k = storesTo s k 16 (fun _ =>
          entryBits ((workOf s a).getD j ⟨0, 0, 0, 0, 0⟩) % 2 ^ 128) l (memOf s k)) ∧
    (∀ h va l, i = .thget p x w → readK s x = .ok (BitVec.ofNat 32 h) → h < 4096 → readKK s w = .ok va →
      pieces s .imgW va 16 = .ok l → MayAccess s 1 true false → unitHasRoom s = true → NoErrors s →
      ∃ u, exec i s = .next u ∧ MemFrame s u ∧ u.f.cnt = s.f.cnt.set 1 (cntOf s.f 1 + 1) ∧
        ∀ k, k < 4 → memOf u k = storesTo s k 16 (fun l =>
          descBits (getDesc s (curCtx s) h) / 2 ^ (128 * l) % 2 ^ 128) l (memOf s k)) ∧
    (∀ h va v, i = .thset p x w → readK s x = .ok (BitVec.ofNat 32 h) → 2 ≤ h → h < 4096 →
      readKK s w = .ok va → readImage s va 16 = .ok v → imageOk v (tableArea s (curCtx s)) = true →
      MayAccess s 3 true false → (∀ a ∈ (getDesc s (curCtx s) h).axes, a.owner = none) →
      ∃ u, exec i s = .next u ∧ getDesc u (curCtx s) h = descImage (getDesc s (curCtx s) h) v ∧
        OnlyBytes s u (descAddr (getCtx s (curCtx s)) h) 256 ∧ UnitFrame s u ∧ u.f.cnt = s.f.cnt.set 3 (cntOf s.f 3 + 1)) ∧
    (∀ h v, i = .thfill p x w → readK s x = .ok (BitVec.ofNat 32 h) → 2 ≤ h → h < 4096 →
      (getDesc s (curCtx s) h).valid = true → readKK s w = .ok v → MayAccess s 3 true false →
      (∀ a ∈ (getDesc s (curCtx s) h).axes, ∀ k, a.owner = some k → k < 49152) →
      ∃ u, exec i s = .next u ∧ getDesc u (curCtx s) h = { getDesc s (curCtx s) h with fill := v } ∧
        OnlyBytes s u (descAddr (getCtx s (curCtx s)) h) 256 ∧ UnitFrame s u ∧ u.f.cnt = s.f.cnt.set 3 (cntOf s.f 3 + 1))
/-- 17 R309, R310: `axpub` with nothing of the fibre in flight publishes every axis it holds at once: the other copy, which
the fibre edited, becomes current, the generation rises, no fibre holds it; other axes stay; ax counts until AXPUB_COMPLETE. -/
def Obligations.Publication : Prop :=
  ∀ (s : State) (p : Pfx) (c : Scope) (n : Nat), Enabled s (.axpub p c) → s.cur = .vec n → s.f.lostAxis = false →
    MayAccess s 3 true false → (∀ q ∈ s.w.pend, q.fib ≠ fidOf s) → AreasApart s →
    (∀ h j, h < 4096 → j < 6 → (axisAt (getDesc s (curCtx s) h) j).owner = some (curKey s) →
      SpaceFits s (axisAt (getDesc s (curCtx s) h) j)) →
    ∃ u, exec (.axpub p c) s = .next u ∧ UnitFrame s u ∧ u.f.cnt = s.f.cnt.set 3 (cntOf s.f 3 + 1) ∧
      ∀ h j, h < 4096 → j < 6 →
        let a := axisAt (getDesc s (curCtx s) h) j
        let b := axisAt (getDesc u (curCtx s) h) j
        (a.owner = some (curKey s) →
          b = { a with cur := !a.cur, gen := a.gen + 1, count := a.wcount, owner := none } ∧
          ((∀ g i, g < 4096 → i < 6 → (g, i) ≠ (h, j) → (axisAt (getDesc s (curCtx s) g) i).owner = some (curKey s) →
              let o := axisAt (getDesc s (curCtx s) g) i
              o.toff + 32 * o.cap ≤ a.toff ∨ a.toff + 32 * a.cap ≤ o.toff) →
            entriesAt u (getCtx s (curCtx s)) (pubStart b) b.count =
              entriesAt s (getCtx s (curCtx s)) (workStart a) a.wcount)) ∧
        (a.owner ≠ some (curKey s) → b = a)
/-- 17 R301, R302: the search of an ordered published table finds the one entry that covers a coordinate below the
table's end, or none: then the coordinate is in no entry (kind 0); at or beyond the last entry's end, kind 1. An empty table
has no entry (kind 1). -/
def Obligations.AxisWalk : Prop :=
  (∀ read x store, walkAxis read 0 x store = .error 1) ∧
  ∀ (T : List AxEntry) (read : Nat → Except Nat AxEntry) (x : Nat) (store : Bool), Ordered T → T.length < 2 ^ 16 → T ≠ [] →
    (∀ (j : Nat) (e : AxEntry), T[j]? = some e → read j = .ok e) →
    (∀ e ∈ T, e.ls ≤ x → x < e.ls + e.len →
      walkAxis read T.length x store = (match e.mode with
        | 0 => .error 0
        | 1 => .ok (some (e.ps + (x - e.ls)), e.addend)
        | 2 => .ok (some (e.ps + e.len - 1 - (x - e.ls)), e.addend)
        | 3 => if store then .error 8 else .ok (some e.ps, e.addend)
        | 4 => if store then .error 8 else .ok (none, e.addend)
        | _ => .error 2)) ∧
    ((∀ e ∈ T, ¬ (e.ls ≤ x ∧ x < e.ls + e.len)) →
      walkAxis read T.length x store = if (∃ e ∈ T, x < e.ls + e.len) then .error 0 else .error 1)

/-! Tile buffers. -/

/-- 23 R384 to R386, R390: slots of in-kernel buffers reserved, committed, acquired and released, with the slot word
into k[x]; `tbacq` waits while the slot is not Full; `tbst` reads; on a pipeline buffer the words name the task's slot.
-/
def Obligations.TileBufferWords : Prop :=
  ∀ (s : State) (i : Instr) (p : Pfx) (x : KReg) (t : Fin 32), Enabled s i →
    (∀ b, HasBuf s t.val b →
      (i = .tbres p x t → heldR s.f t.val = none → b.slots.getD b.wp .full = .empty →
        ∃ u, exec i s = .next (writeK u x.val (slotAddr s b b.wp)) ∧ heldR u.f t.val = some b.wp ∧
          getTb u (curWg s) t.val = { b with slots := b.slots.set b.wp .reserved, wp := (b.wp + 1) % max b.depth 1 } ∧
          (∀ j, j ≠ t.val → heldR u.f j = heldR s.f j) ∧ u.w = s.w ∧ u.mem = s.mem ∧ u.slices = s.slices) ∧
      (∀ n, i = .tbcom p t → heldR s.f t.val = some n →
        ∃ u, exec i s = .next u ∧ u.f = { s.f with tbR := tset 0 s.f.tbR t.val 0 } ∧
          (getCl u (curCl s)).tbq = (getCl s (curCl s)).tbq ++ [⟨curWg s, curKey s, s.f.seq, t.val, n, true⟩] ∧
          u.w = s.w ∧ u.mem = s.mem ∧ u.slices = s.slices) ∧
      (i = .tbacq p x t → heldA s.f t.val = none →
        (b.slots.getD b.rp .empty = .full →
          ∃ u, exec i s = .next (writeK u x.val (slotAddr s b b.rp)) ∧ heldA u.f t.val = some b.rp ∧
            getTb u (curWg s) t.val = { b with slots := b.slots.set b.rp .acquired, rp := (b.rp + 1) % max b.depth 1 } ∧
            u.w = s.w ∧ u.mem = s.mem ∧ u.slices = s.slices) ∧
        (b.slots.getD b.rp .empty ≠ .full → exec i s = .next (setWait s (.tbacq x.val t.val)))) ∧
      (∀ n, i = .tbrel p t → heldA s.f t.val = some n →
        ∃ u, exec i s = .next u ∧ u.f = { s.f with tbA := tset 0 s.f.tbA t.val 0 } ∧
          (getCl u (curCl s)).tbq = (getCl s (curCl s)).tbq ++ [⟨curWg s, curKey s, s.f.seq, t.val, n, false⟩] ∧
          u.w = s.w ∧ u.mem = s.mem ∧ u.slices = s.slices) ∧
      (i = .tbst p x t → exec i s = .next (writeK s x.val (BitVec.ofNat 32 (
        b.slots.countP (· == .empty) + b.slots.countP (· == .full) * 2 ^ 5 + b.depth * 2 ^ 10 + b.wp * 2 ^ 15 +
          b.rp * 2 ^ 19 + (if heldR s.f t.val = none then 0 else 2 ^ 23) + (if heldA s.f t.val = none then 0 else 2 ^ 24)))))) ∧
    (∀ b, HasPipe s t.val b →
      (i = .tbres p x t → b.prod = (curL s).stage → t.val ∉ (getWg s (curWg s)).comTb →
        ∃ h, exec i s = .next (writeK { s with hist := h } x.val (taskAddr s b))) ∧
      (i = .tbacq p x t → b.cons.testBit (curL s).stage = true → t.val ∉ (getWg s (curWg s)).relTb →
        ∃ h, exec i s = .next (writeK { s with hist := h } x.val (taskAddr s b))) ∧
      (i = .tbst p x t → exec i s = .next (writeK s x.val (BitVec.ofNat 32 (
        b.slots.countP (·.st == .empty) + b.slots.countP (·.st == .full) * 2 ^ 5 + b.depth * 2 ^ 10 +
          s.w.g % max b.depth 1 * 2 ^ 15 +
          (if (getPs b (s.w.g % max b.depth 1)).st = .reserved then 2 ^ 23 else 0) +
          (if b.cons.testBit (curL s).stage = true ∧ t.val ∉ (getWg s (curWg s)).relTb then 2 ^ 24 else 0) + 2 ^ 25)))) ∧
      (i = .tbcom p t → b.prod = (curL s).stage → t.val ∉ (getWg s (curWg s)).comTb →
        ∃ u, exec i s = .next u ∧ (getWg u (curWg s)).comTb = t.val :: (getWg s (curWg s)).comTb ∧ u.f = s.f ∧ u.w = s.w ∧
          (getCl u (curCl s)).tbq =
            (getCl s (curCl s)).tbq ++ [⟨curWg s, curKey s, s.f.seq, t.val, s.w.g % max b.depth 1, true⟩]) ∧
      (i = .tbrel p t → b.cons.testBit (curL s).stage = true → t.val ∉ (getWg s (curWg s)).relTb →
        ∃ u, exec i s = .next u ∧ (getWg u (curWg s)).relTb = t.val :: (getWg s (curWg s)).relTb ∧ u.f = s.f ∧ u.w = s.w ∧
          (getCl u (curCl s)).tbq =
            (getCl s (curCl s)).tbq ++ [⟨curWg s, curKey s, s.f.seq, t.val, s.w.g % max b.depth 1, false⟩]))

/-! The log array. -/

/-- 11 R204 to R214: loads of a latch side, products, zeroing and drains put into the sequencer, each counted; `mxwait`
passes once what it names is complete; `mxmeta` reads the status. -/
def Obligations.LogArrayWords : Prop :=
  ∀ (s : State) (i : Instr) (p : Pfx) (n : Fin 4), Enabled s i →
    let c := getCl s (curCl s)
    (∀ x sd (k : Fin 32) v, i = .mxlda p x sd k → readKK s x = .ok v →
      LoadReady s v sd (16 * (k.val + 1)) 0 (shapeRows (dShape v)) false →
      RowsReadable s v (16 * (k.val + 1)) (descSpace s v false).1 ((List.range (shapeRows (dShape v))).map some) →
      ∃ t, exec i s = .next t ∧ LoadStarted s t v sd (16 * (k.val + 1)) ((List.range (shapeRows (dShape v))).map some)) ∧
    (∀ x b sd (k : Fin 32) v j, i = .mxgat p x b sd k → readKK s x = .ok v → readK s b = .ok j →
      let ioff := j.toNat % 2 ^ 20
      let rows := j.toNat / 2 ^ 20 + 1
      let src := (List.range (shapeRows (dShape v))).map fun r =>
        let e := rdBytes s.slices (curCl s * 2 ^ 20 + (getWg s (curWg s)).off + ioff + 2 * r) 2
        if e = 0xFFFF then none else some e
      LoadReady s v sd (16 * (k.val + 1)) ioff rows true → (∀ e, some e ∈ src → e < rows) →
      (∀ r, r < shapeRows (dShape v) → badUnits c.bad (idxPlace s ioff r) 2 = false) →
      RowsReadable s v (16 * (k.val + 1)) (descSpace s v false).1 src →
      ∃ t, exec i s = .next t ∧ LoadStarted s t v sd (16 * (k.val + 1)) src) ∧
    (i = .mxmul p n →
      let a := curBank c.sideA
      let b := curBank c.sideB
      a.loaded = true → b.loaded = true → a.fmt = b.fmt → a.kk = b.kk → isPlane (getAcc (accsIssued c) n.val) = false →
      accMatches (accsIssued c) n.val a b = true → a.bad = false → b.bad = false → a.pois = false → b.pois = false →
      c.ops.length < 8 → cntOf s.f 0 < 255 →
      ∃ t, exec i s = .next t ∧ OpIssued s t (.mul n.val a b c.sideA.last c.sideB.last (curBase s)) 0) ∧
    (i = .mxzero p n → isPlane (getAcc (accsIssued c) n.val) = false → c.ops.length < 8 → cntOf s.f 0 < 255 →
      ∃ t, exec i s = .next t ∧ OpIssued s t (.zero n.val) 0) ∧
    (∀ x f v, i = .mxdrn p x n f → readKK s x = .ok v → descReserved v (hNtb (curL s).hdr) true = false →
      dOff v % 128 = 0 → needRole s v true = .ok () → slotReady s v true = .ok () →
      (dTb v = true → ∀ m o d r, .drain m o d (some r) ∈ c.ops → r.1 ≠ dTbi v) → accBusy c n.val = false → isPlane (getAcc c.accs n.val) = false →
      (getAcc c.accs n.val).st ≠ .empty →
      (∀ j ∈ opAccs c.accs (.zero n.val), (getAcc c.accs j).poison = false) →
      dOff v + drainBytes (getAcc c.accs n.val) ≤ (descSpace s v true).2 → c.ops.length < 8 → cntOf s.f 2 < 255 → unitHasRoom s = true →
      ∃ t, exec i s = .next t ∧ OpIssued s t (.drain n.val ((descSpace s v true).1 + dOff v) f (relSlot s v true)) 2) ∧
    (i = .mxwait p n true → cntOf s.f 0 = 0 → cntOf s.f 1 = 0 → cntOf s.f 2 = 0 → exec i s = .next s) ∧
    (i = .mxwait p n false → accBusy c n.val = false → exec i s = .next s) ∧
    (∀ x sd, i = .mxmeta p x n sd false → exec i s = .next (writeK s x.val (accStatus c n.val))) ∧
    (∀ x sd, i = .mxmeta p x n sd true → exec i s = .next (writeK s x.val (latStatus (sideOf c sd))))

/-! Events: fetching, traps that no word raises, accesses performed. -/

/-- log 3: an event of another agent than the one whose records are out acts on that agent's records, which are put back
after it. -/
def Obligations.AgentEvents : Prop :=
  ∀ (s t : State) (i : Instr) (a : Agent), agentOfEvent i = some a → a ≠ s.cur → a ≠ .none →
    exec i (checkOut s a) = .next t → exec i s = .next (if s.cur = .none then checkIn t else checkOut t s.cur)
/-- 04 R61, R63, 10 R178, R191, R190, 14 R263, 25 R414: a packet fetched, where no recorded access wrote to it and no older
tables reached it; the watchdog's trap; a held failure delivered, at the group that issued last, the one to issue next or the
one it names; a network failure, which changes nothing where a load over has returned what the failed store wrote (log 38);
a held fibre released, which a part that is not open counts as refused (26 R417). -/
def Obligations.FetchAndTrapEvents : Prop :=
  ∀ (s : State),
    (∀ ws pa, codePlace s (whoCur s) s.f.sp.pos.pkt = .ok (some pa) → codeWords s (whoCur s) s.f.sp.pos.pkt = .ok ws →
      s.f.sp.buf = none →
      tget 0 (getCl s (curCl s)).fbuf (fetchKey s s.f.sp.pos.pkt) = 0 ∨
        tget 0 (getCl s (curCl s)).fbuf (fetchKey s s.f.sp.pos.pkt) = pa + 1 →
      (∀ u ∈ s.hist, u.wr = true → u.cls = .m → u.addr + u.size ≤ pa ∨ pa + 12 ≤ u.addr) → routeDown s (.dev pa) = false →
      ∃ t, exec (.packetFetch s.cur) s = .next t ∧ t.w = s.w ∧ (∀ j, j < 4 → memOf t j = memOf s j) ∧
        t.f = { s.f with sp := { s.f.sp with buf := some (s.f.sp.pos.pkt, ws) } }) ∧
    (∀ c, (codePlace s (whoCur s) s.f.sp.pos.pkt = .error c ∨ (∃ pa, codePlace s (whoCur s) s.f.sp.pos.pkt = .ok (some pa) ∧
        routeDown s (.dev pa) = true ∧ c = 0x1F6)) → s.f.sp.buf = none →
      tget 0 (getCl s (curCl s)).fbuf (fetchKey s s.f.sp.pos.pkt) = 0 → s.f.trapped = false → (∃ k, s.cur = .vec k) →
      ∃ t, exec (.packetFetch s.cur) s = .next t ∧ t.f.trapped = true ∧ t.f.trap.cause = c ∧ t.f.trap.wslot = 0 ∧
        t.f.trap.tepc = s.f.sp.pos.pkt ∧ t.f.trap.tlanes = act s ∧ t.f.k = s.f.k ∧ t.w = { s.w with stall := 0 }) ∧
    (∀ k, s.cur = .vec k → s.w.stall ≠ 0 → s.w.stallAt = s.f.cs → (getPart s (curL s).part).wdlg ≠ 0 → s.w.fib = k % 4 →
      s.f.saved = false → s.f.st = .issuing → s.f.trapped = false →
      ∃ t, exec (.watchdog s.cur) s = .next t ∧ t.f.trapped = true ∧ t.f.trap.cause = 0x1E2 ∧
        t.f.trap.tepc = s.f.sp.pos.pkt ∧ t.f.trap.resume = false ∧ t.f.k = s.f.k ∧ t.w = { s.w with stall := 0 }) ∧
    (∀ i h p k, delivers s i = some p → s.cur = .vec k → Interruptible s → s.f.fails.find? p = some h →
      (h.cause < 0x183 ∨ 0x187 < h.cause) →
      ∃ t, exec i s = .next t ∧ t.f.trapped = true ∧ t.f.trap.cause = h.cause ∧ t.f.trap.tlanes = h.lanes ∧
        t.f.trap.taddr = h.addr ∧ t.f.trap.tepc = (h.at1.getD (if h.last then s.f.gpos else s.f.sp.pos)).pkt ∧
        t.f.trap.resume = resumes h.cause ∧ t.f.fails = s.f.fails.erase h ∧ t.f.k = s.f.k ∧ t.w = { s.w with stall := 0 } ∧
        (∀ j, j < 4 → memOf t j = memOf s j)) ∧
    (∀ c l v k, s.cur = .vec k → Interruptible s → s.f.fails = [] → netCause c = true →
      (∀ i p, failedAccess s l = some i → s.w.pend[i]? = some p → readsSettled s (peerUnit s p.seq l) = false) →
      ∃ t, exec (.networkFailureDelivery s.cur c l v) s = .next t ∧ t.f.trapped = true ∧ t.f.trap.cause = c ∧
        t.f.trap.tlanes = l ∧ t.f.trap.taddr = v ∧ t.f.trap.tepc = s.f.gpos.pkt ∧ t.w.rows = s.w.rows ∧ t.f.k = s.f.k) ∧
    (∀ c l v, netCause c = false → exec (.networkFailureDelivery s.cur c l v) s = .next s) ∧
    (∀ c l v i p, failedAccess s l = some i → s.w.pend[i]? = some p → readsSettled s (peerUnit s p.seq l) = true →
      exec (.networkFailureDelivery s.cur c l v) s = .next s) ∧
    (∀ c, s.stage ≠ 5 → exec (.releaseEnd c) s = .next { s with closed := satInc s.closed 65535 } ∧
      exec (.releaseReturn c) s = .next { s with closed := satInc s.closed 65535 }) ∧
    (∀ c, s.stage = 5 → heldAgent s c = some s.cur → (∃ k, s.cur = .vec k) →
      (∃ t, exec (.releaseEnd c) s = .next t ∧ t.f.st = .ended ∧ t.f.live = 0 ∧ t.f.trapped = false) ∧
      ∀ x p, s.f.st = .waiting [.held x p] → exec (.releaseReturn c) s =
        .next { s with f := { moveTo s.f (p.getD (groupEnd s s.f.sp.pos)) with st := .ready } })
/-- 13 R229, Table 13.1, R247, 04 R63, 12 R218, R227, R228, 17 R309, 20 R347: an access is performed: a load's data land in
the lanes not written since, its queue entry and its k-register, in a handler's bank nowhere once that bank is discarded (10
R181); a store; a seal, once no store to its granules is in flight, which also writes the map's bits (their order: log 105), or
holds 0x1F6 where its route is down (25 R411); an unseal, cache maintenance, after which the fibre's fetches see what was
stored, and a publication, once no access translated through older tables is in flight, which also hold 0x1C7 where their
multicast loses a branch (25 R407); a pass of a slice is granted round-robin; an acknowledgement returns. 15 R267, R276:
whatever the memory system does with accesses in flight, a permitted history stays permitted. -/
def Obligations.AccessEvents : Prop :=
  ∀ (s : State) (p : Pend),
    (firstDone s (fun k => k == .load) = some p → p.kind = .load → p.joint = none →
      ∃ t, exec (.loadDataReturn s.cur) s = .next t ∧
        t.w.pend = s.w.pend.filter (fun x => !(x.fib == p.fib && x.seq == p.seq)) ∧
        (∀ c, counterOf s.cur .load = some c → t.f.cnt = s.f.cnt.set c (cntOf s.f c - 1)) ∧
        (∀ j, j < 4 → memOf t j = memOf s j) ∧
        (∀ r m v, p.rows = [(r, m)] → p.data = [v] → r < s.w.rows.length → ∀ l, l < 32 →
          lane (t.w.rows.getD r zeroRow) l = if m.getLsbD l then lane v l else lane (s.w.rows.getD r zeroRow) l) ∧
        (∀ j, (∀ x ∈ p.rows, x.1 ≠ j) → t.w.rows[j]? = s.w.rows[j]?) ∧
        (∀ (n : Nat) (e : QEnt), s.f.q[n]? = some e → e.id = p.seq + 1 →
          t.f.q[n]? = some ⟨rowMask p.lanes (p.data.headD zeroRow), 0#32, p.pois &&& p.lanes, e.id⟩) ∧
        (∀ d v, p.ks = [(d, v)] → p.hb = false → s.f.hnd = none → d < 16 → d < s.f.k.length → kGet t.f d = v) ∧
        (p.ks = [] ∨ (p.hb = true ∧ s.f.hnd = none) → t.f.k = s.f.k)) ∧
    (firstDone s (fun k => match k with
        | .store | .strm .. => true
        | _ => false) = some p → p.kind = .store →
      ∃ t, exec (.storePerformed s.cur) s = .next t ∧ Performed s t p) ∧
    (∀ gr, s.w.pend.find? (fun p => p.fib == fidOf s && (match p.kind with
        | .seal _ => true
        | _ => false)) = some p → p.kind = .seal gr → sealWaits s gr = false → heldByWait s (curKey s) p.seq = false →
      gr.any (fun g => routeDown s (.dev (4096 * g))) = false →
      ∃ t, exec (.sealComplete s.cur) s = .next t ∧ Performed { s with mem := sealBits s gr true } t p ∧
        ∀ pa, pa / 4096 ∈ gr → sealed t pa = true) ∧
    (∀ gr, s.w.pend.find? (fun p => p.fib == fidOf s && (match p.kind with
        | .seal _ => true
        | _ => false)) = some p → p.kind = .seal gr → sealWaits s gr = false → heldByWait s (curKey s) p.seq = false →
      gr.any (fun g => routeDown s (.dev (4096 * g))) = true →
      ∃ t, exec (.sealComplete s.cur) s = .next t ∧ Performed (holdFail s ⟨0x1F6, p.word, 0, p.lanes, true, p.hs, none, p.slot⟩) t p ∧
        t.sealMap = s.sealMap) ∧
    (∀ gr, s.w.pend.find? (fun p => p.fib == fidOf s && (match p.kind with
        | .seal _ => true
        | _ => false)) = some p → p.kind = .seal gr → sealWaits s gr = true →
      exec (.sealComplete s.cur) s = .next (post s [.sealDone s.cur])) ∧
    ((castDown s = false → holdCast s p = s) ∧
      (castDown s = true → (holdCast s p).f = { s.f with
        fails := s.f.fails ++ [⟨0x1C7, p.word, 0, p.lanes, true, p.hs, none, p.slot⟩] })) ∧
    (∀ gr, s.w.pend.find? (fun p => p.fib == fidOf s && (match p.kind with
        | .unseal _ => true
        | _ => false)) = some p → p.kind = .unseal gr → fbarSet s.f = none →
      heldByWait s (curKey s) p.seq = false →
      ∃ t, exec (.unsealComplete s.cur) s = .next t ∧ Performed (holdCast { s with mem := sealBits s gr false } p) t p ∧
        t.sealMap = gr.foldl (fun m g => tset false m g false) s.sealMap) ∧
    (∀ l, s.w.pend.find? (fun p => p.fib == fidOf s && (match p.kind with
        | .cacheOp _ => true
        | _ => false)) = some p → p.kind = .cacheOp l → heldByWait s (curKey s) p.seq = false →
      ∃ t, exec (.cacheMaintenanceComplete s.cur) s = .next t ∧ Performed (if l = [] then s else holdCast s p) t p ∧
        ∀ pa, pa / 128 ∈ l → ∀ u ∈ t.hist.take (fetchAge t.hist (curKey s) pa), u.wr = false) ∧
    (∀ sc code old, s.w.pend.find? (fun p => p.fib == fidOf s && (match p.kind with
        | .publish .. => true
        | _ => false)) = some p → p.kind = .publish true sc code old → fbarSet s.f = none → (∀ x ∈ s.w.pend, x.fib = p.fib → p.seq ≤ x.seq) →
      let u := flipAxes s (curKey s)
      u.w = s.w ∧ u.f = s.f ∧
      (anyInFlight u (olderAccesses u sc) = false → ∃ t, exec (.axpubComplete s.cur) s = .next t ∧ Performed (holdCast u p) t p) ∧
      (anyInFlight u (olderAccesses u sc) = true →
        ∃ t, exec (.axpubComplete s.cur) s = .next t ∧ t = { u with w := { u.w with pend := t.w.pend } } ∧
          t.w.pend = s.w.pend.map fun x => if x = p then { p with
            kind := .publish false sc (holdsCode s (curKey s)) (olderAccesses u sc) } else x)) ∧
    (∀ cl q, (grantOrder (getCl s cl).lastReq).findSome? (fun r => (getCl s cl).passes.find? fun p => p.req == r) = some q →
      ∃ t, exec (.slicePassGrant cl) s = .next t ∧ t.f = s.f ∧ t.w = s.w ∧ (∀ j, j < 4 → memOf t j = memOf s j) ∧
        t.clusters = tset Cluster.reset s.clusters cl { getCl s cl with
          passes := (getCl s cl).passes.erase q, lastReq := q.req
          sprep := if q.replay then (getCl s cl).sprep + 1 else (getCl s cl).sprep }) ∧
    (∀ u l, 2 ≤ tget 0 s.outst (outKey u l) →
      ∃ t, exec (.acknowledgementReturn u l) s = .next t ∧ t.f = s.f ∧ t.w = s.w ∧ (∀ j, j < 4 → memOf t j = memOf s j) ∧
        t.outst = tset 0 s.outst (outKey u l) (tget 0 s.outst (outKey u l) - 1)) ∧
    (∀ m, permitted s.hist = true → permitted (memoryDoes s m).hist = true)
/-- 13 R242 to R252, 09 R164, R165, R168, 23 R385: an arrival counts towards its barrier word, eight bytes of a slice, and
completes phases; a message reaches its receiver, unless its route is down (25 R411) or it matches an exchange that timed
out, or, of a Saved workgroup, the partition's arrival queue (22 R378); a regroup deals the items to the participants in the
sorted order; a reduction gives every contributor the fold over clusters, or 0x1C7 where its branch of the result is lost (25
R407); a timeout traps, that of an exchange with its group suppressed, the mask registers and the rows as before it but for
what others wrote since (04 R66); held commits and releases of slots take effect. -/
def Obligations.CooperationEvents : Prop :=
  ∀ (s : State),
    (∀ launch g i c a,
      let key := wgKey launch g
      let w := getWg s key
      let own := decide (fibKey a < 49152) && (getW s (fibKey a / 4)).g == g && (getW s (fibKey a / 4)).launch == launch
      w.live = true → linkLost s (agentPort a) (clusterPort w.cluster) = false → w.saved = false → barBad s key i = false →
      ∃ t, exec (.barrierArrival launch g i c a) s = .next t ∧ t.mem = s.mem ∧ t.hostMem = s.hostMem ∧ t.peerMem = s.peerMem ∧
        t.slices = wrBytes s.slices (w.cluster * 2 ^ 20 + barOff s w i)
          (arriveWord (setExp (barWord s key i) (arrivalExp s a own g i c)) c).toNat 8) ∧
    (∀ (b : Word64) (c : Nat), c < 2 ^ 16 →
      let exp := b.toNat % 2 ^ 16
      let cnt := b.toNat / 2 ^ 16 % 2 ^ 16
      let r := arriveWord b c
      (c = 0 → r = b) ∧
      (c ≠ 0 → exp ≠ 0 → r.toNat % 2 ^ 16 = exp ∧ r.toNat / 2 ^ 16 % 2 ^ 16 = (cnt + c) % exp ∧
        r.toNat / 2 ^ 32 = (b.toNat / 2 ^ 32 + (cnt + c) / exp) % 2 ^ 32) ∧
      (c ≠ 0 → exp = 0 → r.toNat % 2 ^ 16 = 0 ∧ r.toNat / 2 ^ 16 % 2 ^ 16 = min (cnt + c) 65535 ∧
        r.toNat / 2 ^ 32 = b.toNat / 2 ^ 32)) ∧
    (∀ cl from_ m r k, (∃ x, (from_, x) ∈ s.clusters) → (getCl s from_).xbuf = m :: r →
      (∀ x ∈ s.clusters, x.2.xbuf = if x.1 = from_ then m :: r else []) →
      let w := getWg s (wgKey m.launch m.g)
      w.live = true → w.cluster = cl → warpKeyOf s w m.idx = some k →
      (linkLost s (clusterPort from_) (clusterPort cl) = true → (w.saved = true → arrivalRoom s m.launch = true) →
        (w.saved = false → heldMessages s cl < 64) →
        ∃ t, exec (.exchangeMessageArrival cl) s = .next t ∧ (∀ j, j < 4 → memOf t j = memOf s j) ∧
          ((getF t (4 * k + m.fib)).xin = (getF s (4 * k + m.fib)).xin) ∧
          t.clusters = tset Cluster.reset s.clusters from_ { getCl s from_ with xbuf := r }) ∧
      (linkLost s (clusterPort from_) (clusterPort cl) = false → w.saved = true → arrivalRoom s m.launch = true →
        let p := (getL s m.launch).part
        ∃ t, exec (.exchangeMessageArrival cl) s = .next t ∧ (∀ j, j < 4 → memOf t j = memOf s j) ∧ t.f = s.f ∧ t.w = s.w ∧
          t.fibs = s.fibs ∧
          t.parts = tset Part.reset s.parts p { getPart s p with
            arrivals := (getPart s p).arrivals ++ [.message m.launch m.src m.g m.idx m.fib m.n m.row] } ∧
          t.clusters = tset Cluster.reset s.clusters from_ { getCl s from_ with xbuf := r }) ∧
      (linkLost s (clusterPort from_) (clusterPort cl) = false → w.saved = false → heldMessages s cl < 64 →
      ∃ t, exec (.exchangeMessageArrival cl) s = .next t ∧ (∀ j, j < 4 → memOf t j = memOf s j) ∧
        (getF t (4 * k + m.fib)).xin = (if (getF s (4 * k + m.fib)).exLost = some (m.src, m.n) then (getF s (4 * k + m.fib)).xin
          else (getF s (4 * k + m.fib)).xin ++ [(m.src, m.n, m.row)]) ∧
        t.clusters = tset Cluster.reset s.clusters from_ { getCl s from_ with xbuf := r })) ∧
    (∀ n g d k, s.cur = .vec k → xshufOf s.f = some (n, g, d) → s.f.saved = false → partnerSaved s g = false →
      s.f.trapped = false → (∀ im, imageOf s.w (fidOf s) = some im → im.f.trapped = false) →
      (xshufMatch s ≠ none → exec (.exchangeTimeout s.cur) s = .next s) ∧
      (xshufMatch s = none → ∃ t, exec (.exchangeTimeout s.cur) s = .next t ∧ t.f.trapped = true ∧ t.f.trap.cause = 0x1C6 ∧
        t.f.trap.resume = false ∧ t.f.trap.tepc = s.f.gpos.pkt ∧ t.f.exch = s.f.exch ∧ t.f.exLost = some (g, n) ∧
        (imageOf s.w (fidOf s) = none → t.w.rows = s.w.rows) ∧
        ∀ im, imageOf s.w (fidOf s) = some im →
          t.f.m = im.f.m ∧ t.f.fmode = im.f.fmode ∧ t.f.fflags = im.f.fflags ∧ t.f.amax = im.f.amax ∧
          (im.pend = [] → ∀ r l, r < s.w.rows.length → r < im.rows.length → l < 32 →
            lane (t.w.rows.getD r zeroRow) l =
              if (tget 0 im.wrote r).getLsbD l then lane (s.w.rows.getD r zeroRow) l else lane (im.rows.getD r zeroRow) l))) ∧
    (∀ launch g f, s.cur = .none →
      let ps := participants s (getWg s (wgKey launch g)) f
      let order := regroupOrder s ps
      ps ≠ [] → (∀ k ∈ ps, (regroupKey (getF s k)).isSome = true ∧ k < 49152) →
      ∃ t, exec (.regroupMove launch g f) s = .next t ∧
        (32 * (ps.length - 1) < order.length → (∀ k ∈ ps, ∀ i x, regroupKey (getF s k) ≠ some (.st i, x)) →
          ∀ j, j < 4 → memOf t j = memOf s j) ∧
        ∀ n l, n < ps.length → l < 32 →
          (getF t (ps.getD n 0)).live.getLsbD l = decide (32 * n + l < order.length) ∧
          (∀ x, order[32 * n + l]? = some x →
            (getW t (ps.getD n 0 / 4)).wid[l]? = (getW s (ps.getD x.2.1 0 / 4)).wid[x.2.2]? ∨
            (getW s (ps.getD x.2.1 0 / 4)).wid[x.2.2]? = none)) ∧
    (∀ launch j bar r, s.cur = .none →
      s.redns.find? (fun r => r.launch == launch && r.j == j && r.bar == bar) = some r → r.p ≤ r.con.length →
      ∃ t, exec (.reductionResult launch j bar) s = .next t ∧ (∀ j, j < 4 → memOf t j = memOf s j) ∧
        t.redns = s.redns.filter (fun r => !(r.launch == launch && r.j == j && r.bar == bar)) ∧
        ((r.con.map Prod.fst).Nodup → ∀ c ∈ r.con, ∀ x, c.1 < 49152 → (getF s c.1).st = .waiting [.nred j x] → bar = false →
          resultLost s r c = false → (getWg s (wgKey (getW s (c.1 / 4)).launch (getW s (c.1 / 4)).g)).saved = false →
          (getF s c.1).stopPend = false → (getF s c.1).hnd = none → x < 16 → x < (getF s c.1).k.length →
          (getF t c.1).st = .ready ∧ (getF t c.1).k.getD x 0#32 = foldClusters r.op r.con) ∧
        ((r.con.map Prod.fst).Nodup → ∀ c ∈ r.con, c.1 < 49152 → resultLost s r c = true →
          (getF t c.1).st = (getF s c.1).st ∧
          ∃ h, (getF t c.1).fails = (getF s c.1).fails ++ [h] ∧ h.cause = 0x1C7)) ∧
    (∀ launch j bar r k, s.cur = .vec k → k < 49152 → s.f.trapped = false → r.con.map Prod.fst = [k] →
      s.redns.find? (fun r => r.launch == launch && r.j == j && r.bar == bar) = some r → r.con.length < r.p →
      s.f.saved = false → (waitsOf s.f).any (isRednWait j bar) = true →
      ∃ t, exec (.reductionTimeout launch j bar) s = .next t ∧ t.f.trapped = true ∧
        t.f.trap.cause = (if bar then 0x1C3 else 0x1C4) ∧ t.f.trap.resume = true ∧ t.f.trap.tepc = s.f.gpos.pkt ∧
        ∀ j, j < 4 → memOf t j = memOf s j) ∧
    (∀ cl o b, (getCl s cl).tbq = [o] → opReady s o = true → o.t < 16 → (getWg s o.wg).tbufs[o.t]? = some b →
      ∃ t, exec (.tileBufferApply cl) s = .next t ∧ (∀ j, j < 4 → memOf t j = memOf s j) ∧
        (let l := b.slots.set o.slot (if o.commit then .full else .empty)
         (getWg s o.wg).warps = [] → getTb t o.wg o.t = { b with slots := l }))
/-- 18 R316 to R325, 21 R354: a stream fetched ahead, read and written: one element of the walk is fetched, at its position's
address and widened, and waits for the port where that is on path 0x0; a read hands the fetched elements to the active lanes in order, no more than the row holds, and
moves on; a write stores the active lanes' elements at the walk's addresses. -/
def Obligations.StreamData : Prop :=
  ∀ (s : State) (i : Fin 4), i.val < s.f.streams.length →
    let x := getS s i.val
    let r := x.desc
    (x.bound = true → rcOut r = false → x.fdone = false → x.fetched.length < 128 → rcRag r = false → rcInd r = false →
      x.pos + x.fetched.length < rcTotal r → s.f.saved = false →
      ∃ t e, exec (.streamFetch s.cur i) s = .next t ∧ t.w = s.w ∧ (∀ j, j < 4 → memOf t j = memOf s j) ∧
        (let d := decide (rcTotal r ≤ x.pos + x.fetched.length + 1)
         getS t i.val = { x with fetched := x.fetched ++ [e], fdone := d }) ∧
        e = { (readElem s x (rcPosAddr r (x.pos + x.fetched.length)) []).2 with tok := e.tok } ∧
        (e.tok ≠ 0 ↔ e.fault = none ∧ (rcPosAddr r (x.pos + x.fetched.length)).toNat / 2 ^ 50 % 16 = 0)) ∧
    (∀ n, x.bound = true → x.captor = none → rcOut r = false → x.ended = false → rcRag r = false → rcInd r = false →
      n = min (laneCount (act s)) (rcCount r 0 - x.pos % rcCount r 0) → 0 < n → n ≤ x.fetched.length →
      x.pos + n ≤ rcTotal r → (∀ e ∈ x.fetched.take n, e.fault = none ∧ e.bad = false ∧ tokWaits s e.tok = false) →
      ∃ t row got, readSrc s (.st i) = .ok (t, row, got) ∧ t.w = s.w ∧ (∀ j, j < 4 → memOf t j = memOf s j) ∧
        (getS t i.val).pos = x.pos + n ∧ (getS t i.val).fetched = x.fetched.drop n ∧
        (getS t i.val).ended = decide (rcTotal r ≤ x.pos + n) ∧ (getS t i.val).eod = rcEod r (x.pos + n - 1) ∧
        ∀ l, l < 32 → (act s).getLsbD l = true →
          (got.getLsbD l = decide ((List.range l).countP (fun j => (act s).getLsbD j) < n)) ∧
          lane row l = ((x.fetched.take n)[(List.range l).countP fun j => (act s).getLsbD j]?.map (·.v)).getD 0#32) ∧
    (∀ v pipe k, s.cur = .vec k → x.bound = true → rcOut r = true → x.pos + laneCount (act s) ≤ rcTotal r →
      x.writes + laneCount (act s) ≤ 128 → MayAccess s 1 true false → unitHasRoom s = true → NoLinkDown s → NoErrors s →
      (∀ n, n < laneCount (act s) → ∃ l, locate s (whoCur s) .strmW (rcPosAddr r (x.pos + n)) (rcSize r) = .ok l) →
      ∃ t locs, writeDst s pipe (.st i) v = .ok t ∧ t.w.rows = s.w.rows ∧ t.f.q = s.f.q ∧
        (getS t i.val).pos = x.pos + laneCount (act s) ∧ (getS t i.val).writes = x.writes + laneCount (act s) ∧
        locs.map Prod.fst = lanesOf (act s) ∧
        (∀ n l p, locs[n]? = some (l, p) → locate s (whoCur s) .strmW (rcPosAddr r (x.pos + n)) (rcSize r) = .ok p) ∧
        ∀ j, j < 4 → memOf t j =
          storesTo s j (rcSize r) (fun l => (lane v l).toNat % 2 ^ (8 * rcSize r)) locs (memOf s j))
/-- 16 R283 to R293, 06 R114: the staging registers; a GO that its checks pass is on its way, counted by ce and vs, one
that they refuse traps; it takes an entry of the queue, starts, moves lines byte for byte, completes; a failure holds
the command until it is delivered to its fibre; a record lost counts (20 R351). -/
def Obligations.CopyEngineEvents : Prop :=
  ∀ (s : State) (cl k : Nat), s.cur = .vec k → k < 49152 →
    (∀ (r : Fin 4) v, ∃ t, exec (.stagingStore s.cur r v) s = .next t ∧ (stgBank t).1 = (stgBank s).1.set r.val v ∧
      (stgBank t).2 = (stgBank s).2 ||| (1#4 <<< r.val) ∧ t.w = s.w ∧ t.f.k = s.f.k ∧ t.f.cnt = s.f.cnt) ∧
    (goCause s = none → cntOf s.f 1 < 255 → cntOf s.f 2 < 255 →
      ∃ t q slot, exec (.go s.cur) s = .next t ∧ t.w.pend = s.w.pend ++ [q] ∧
        q.kind = .go ((stgBank s).1 ++ [slot, BitVec.ofNat 64 s.nextId]) ∧ (stgBank t).2 = 0#4 ∧ t.f.k = s.f.k ∧
        t.f.cnt = (s.f.cnt.set 1 (cntOf s.f 1 + 1)).set 2 (cntOf (cntUp s.f 1) 2 + 1)) ∧
    (∀ c, goCause s = some c → s.f.trapped = false →
      ∃ t, exec (.go s.cur) s = .next t ∧ t.f.trapped = true ∧ t.f.trap.cause = c ∧ t.f.trap.tlanes = act s ∧
        t.w = { s.w with stall := 0 }) ∧
    ((stgBank s).2 ≠ 0xF#4 → goCause s = some 0x180) ∧
    (∀ p v, firstGo (pendingGos s cl) = some (k / 4, p, v) → p.fib = k % 4 → p.joint = none →
      ((getCl s cl).cmds.filter fun x => !cmdStopped s x).length < 32 →
      ∃ t c, exec (.goAccept cl) s = .next t ∧ (getCl t cl).cmds = (getCl s cl).cmds ++ [c] ∧
        c.src = v.getD 0 0#64 ∧ c.dst = v.getD 1 0#64 ∧ c.shape = v.getD 2 0#64 ∧ c.flags = v.getD 3 0#64 ∧ c.fib = k ∧
        c.num = s.f.goes ∧ c.row = 0 ∧ c.byte = 0 ∧ c.held = none ∧ c.running = false ∧
        t.f.goes = (s.f.goes + 1) % 65536 ∧ t.f.cnt = s.f.cnt.set 1 (cntOf s.f 1 - 1)) ∧
    (∀ c, (getCl s cl).cmds.find? (fun c => !c.running && c.held.isNone && !cmdStopped s c) = some c →
      ((getCl s cl).cmds.filter fun c => c.running && !cmdStopped s c).length < 4 →
      ∃ t, exec (.copyCommandStart cl) s = .next t ∧
        (getCl t cl).cmds = (getCl s cl).cmds.map fun y => if y = c then { c with running := true } else y) ∧
    (∀ i c d src dst, (∀ x ∈ (getCl s cl).cmds, x.held = none ∧ (x.num = c.num → x = c)) → turnCmd s cl = some (i, c) →
      c.fib = k → NoErrors s → lineOrFail (modCl s cl fun x => { x with ceTurn := i + 1 }) c 0 = .ok (d, src, dst) →
      ∃ t, exec (.copyLineTransfer cl) s = .next t ∧
        let put := fun (e : Cmd) => (getCl t cl).cmds = (getCl s cl).cmds.map fun y => if y = c then e else y
        let moved := (∀ j, j < 4 → memOf t j = storesTo s j 1 (fun n => match src[n]? with
            | some l => (readLoc s l 1).1
            | none => 0) ((List.range dst.length).zip dst) (memOf s j)) ∧ put (moveCursor d dst.length)
        (c.paid = true → moved) ∧
        (c.paid = false → moved ∨ (cmdWaits t c = true ∧ (∀ j, j < 4 → memOf t j = memOf s j) ∧ put { d with paid := true }))) ∧
    (∀ c, (getCl s cl).cmds.find? (fun c => c.running && c.held.isNone && c.over && !cmdStopped s c) = some c →
      c.fib = k → c.tbs = none →
      ∃ t, exec (.copyCommandComplete cl) s = .next t ∧ t.f.cnt = s.f.cnt.set 2 (cntOf s.f 2 - 1) ∧
        t.clusters = tset Cluster.reset s.clusters cl { getCl s cl with cmds := (getCl s cl).cmds.erase c }) ∧
    (∀ n c, (getCl s cl).cmds[n]? = some c → cmdStopped s c = false → c.held = none → c.fib = k → s.f.st ≠ .ended →
      ∃ t h, exec (.copyCommandFault cl 0x187 n) s = .next t ∧ t.f.fails = s.f.fails ++ [h] ∧ h.cause = 0x187 ∧
        t.soft = (softInc s 1 cl 6).soft ∧
        ∃ e, (getCl t cl).cmds = (getCl s cl).cmds.map (fun y => if y = c then e else y) ∧ e.held = some (0x187, 0, 0#64) ∧
          e.running = false ∧ e.row = c.row ∧ e.byte = c.byte) ∧
    (∀ h, Interruptible s → s.f.fails.find? (fun h => decide (0x183 ≤ h.cause ∧ h.cause ≤ 0x187)) = some h → h.last = false →
      ∃ t, exec (.copyFaultDelivery s.cur) s = .next t ∧ t.f.trapped = true ∧ t.f.trap.cause = h.cause ∧
        t.f.trap.tword = h.tword ∧ t.f.trap.taddr = h.addr ∧ t.f.trap.tepc = (h.at1.getD s.f.sp.pos).pkt ∧
        t.f.trap.resume = false ∧ t.f.fails = s.f.fails.erase h ∧ t.w = { s.w with stall := 0 })
/-- 11 R194, R195, R205, R207, R208, R211, R214, 12 R226: the start register, a store to which waits for an entry and behind a
GO of its fibre that waits; the stream that was asked for first starts with its
registers as Table 11.2 gives them, and ends; a load fills the other bank; the array runs the next operation; a drain
writes the accumulator's values to the slice. -/
def Obligations.FrondEvents : Prop :=
  ∀ (s : State) (cl : Nat),
    (∀ v,
      let c := getCl s (curCl s)
      let free := c.frondQ.length < 16 ∧ waitingStart s (curCl s) = none ∧ (∀ p ∈ s.w.pend, isStart p.kind = false) ∧
        ∀ p ∈ s.w.pend, p.fib = fidOf s → ∀ c, p.kind ≠ .go c
      let busy := c.frondWg = some (curWg s) ∨ ∃ x ∈ c.frondQ, x.1 = curWg s
      (free → ¬ busy → ∃ t, exec (.fstart s.cur v) s = .next t ∧ t.f = s.f ∧ t.w = s.w ∧
        (getCl t (curCl s)).frondQ = c.frondQ ++ [(curWg s, v)]) ∧
      (free → busy → exec (.fstart s.cur v) s =
        .next { s with clusters := tset Cluster.reset s.clusters (curCl s) { c with refused := true } }) ∧
      (∀ k, s.cur = .vec k → (16 ≤ c.frondQ.length ∨ ∃ p ∈ s.w.pend, p.fib = fidOf s ∧ ∃ x, p.kind = .go x) →
        MayAccess s 1 true false →
        ∃ t q, exec (.fstart s.cur v) s = .next t ∧ t.w = { s.w with pend := s.w.pend ++ [q] } ∧ q.kind = .fstart v s.tick ∧
          t.f.cnt = s.f.cnt.set 1 (cntOf s.f 1 + 1) ∧ t.clusters = s.clusters)) ∧
    (∀ g v r, (getCl s cl).frondWg = none → (getCl s cl).frondQ = (g, v) :: r → waitingStart s cl = none →
      s.cur = .none → cl < 192 → (getPart s (getL s (getWg s g).launch).part).pre < 2 →
      ∃ t, exec (.frondStreamStart cl) s = .next t ∧ (getCl t cl).frondWg = some g ∧ (getCl t cl).frondQ = r ∧
        (getCl t cl).accs = [Acc.empty, Acc.empty, Acc.empty, Acc.empty] ∧
        (let f := getF t (fibKey (.frond cl))
         let h := (getL s (getWg s g).launch).hdr
         f.st = .ready ∧ f.sp.pos = ⟨hKbase h + lo32 v, 0⟩ ∧ f.sp.mask = 1#32 ∧ f.live = 1#32 ∧ f.fmode = hMode h ∧
         f.k = (List.range 14).map (hPar h) ++ [BitVec.ofNat 32 (getWg s g).g, hi32 v] ∧ f.fflags = 0#32 ∧ f.cnt = [0, 0, 0, 0])) ∧
    (∀ g, (getCl s cl).frondWg = some g → s.cur = .none → cl < 192 → (getF s (fibKey (.frond cl))).st = .ended →
      (getF s (fibKey (.frond cl))).saved = false →
      (∀ n ∈ (getF s (fibKey (.frond cl))).cnt, n = 0) → (getW s (fibKey (.frond cl) / 4)).pend = [] → (getCl s cl).roles = [] →
      ∃ t, exec (.frondStreamEnd cl) s = .next t ∧ (∀ j, j < 4 → memOf t j = memOf s j) ∧
        t.clusters = tset Cluster.reset s.clusters cl { getCl s cl with frondWg := none, roles := [] }) ∧
    (∀ g, s.cur = .frond cl → (getCl s cl).frondWg = some g → s.f.saved = false →
      (∀ l, (getCl s cl).load = some l →
        ∃ t, exec (.mxLoadComplete cl) s = .next t ∧ curBank (sideOf (getCl t cl) l.side) = l.bank ∧
          (getCl t cl).load = none ∧ (getCl t cl).ops = (getCl s cl).ops ∧ (getCl t cl).accs = (getCl s cl).accs ∧
          t.f.cnt = s.f.cnt.set 1 (cntOf s.f 1 - 1) ∧ ∀ j, j < 4 → memOf t j = memOf s j) ∧
      (∀ i o, nextOp (getCl s cl) true = some (i, o) →
        ∃ t, exec (.mxOperationComplete cl) s = .next t ∧ (getCl t cl).ops = (getCl s cl).ops.eraseIdx i ∧
          t.f.cnt = s.f.cnt.set 0 (cntOf s.f 0 - 1) ∧ (∀ j, j < 4 → memOf t j = memOf s j) ∧
          (∀ n, o = .zero n → (getCl t cl).accs = freeAcc (getCl s cl).accs n) ∧
          (∀ n a b ia ib w, o = .mul n a b ia ib w → a.fmt ≤ 1 → n < (getCl s cl).accs.length →
            getAcc (getCl t cl).accs n = accL (getAcc (getCl s cl).accs n) a b) ∧
          (∀ n a b ia ib w p m j, o = .mul n a b ia ib w → 2 ≤ a.fmt → (getCl s cl).accs.length = 4 → n < 4 →
            planesOf a ≤ 4 → p < planesOf a → m < a.codes.length → j < b.codes.length → a.blk = b.blk →
            let g := groupLen a.blk
            let za := zeroPoint a.fmt ((a.scales.getD m []).getD p 0)
            let zb := zeroPoint b.fmt ((b.scales.getD j []).getD p 0)
            ((a.codes.getD m []).length = (b.codes.getD j []).length) → g * (p + 1) ≤ (a.codes.getD m []).length →
            ((getAcc (getCl t cl).accs ((n + p) % 4)).vals.getD m []).getD j 0 =
              (BitVec.ofInt 32 (((List.range g).map fun i =>
                (((a.codes.getD m []).getD (g * p + i) 0 : Int) - za) *
                (((b.codes.getD j []).getD (g * p + i) 0 : Int) - zb)).sum)).toNat)) ∧
      (∀ i n off clr rel, nextOp (getCl s cl) false = some (i, .drain n off clr rel) → NoErrors s →
        ∃ t, exec (.mxDrainComplete cl) s = .next t ∧ t.mem = s.mem ∧ t.hostMem = s.hostMem ∧
          t.f.cnt = s.f.cnt.set 2 (cntOf s.f 2 - 1) ∧ (getCl t cl).ops = (getCl s cl).ops.eraseIdx i ∧
          (getCl t cl).accs = (if clr then freeAcc (getCl s cl).accs n else (getCl s cl).accs) ∧
          t.slices = ((List.range (drainWords (getCl s cl).accs n).length).zip (drainWords (getCl s cl).accs n)).foldl
            (fun m x => wrBytes m (cl * 2 ^ 20 + (off + 4 * x.1)) x.2 4) s.slices))

/-! Events of the scheduler, the queues and the host. -/

/-- 02 R23 to R25, R37, 06 R98, 14 R255, 20 R348, 22 R374, 23 R390, 24 R399 to R402: a workgroup is placed on the first
cluster, in rising order, that has room; its warps and fibres start as the launch header says; a warp whose fibres have
Ended retires, and its rows are given up when its workgroup does; a task of an expert without work leaves its slots as at retirement, whether
or not one before it waits; the batch of an eligible task is apportioned; a completion is posted once, and QDONE counts every
launch or pipeline of its packet. -/
def Obligations.PlacementEvents : Prop :=
  ∀ (s : State) (launch g : Nat),
    let l := getL s launch
    let h := l.hdr
    let next := { l with nextG := (nextWg h (g + 1)).getD (g + 1), empty := (nextWg h (g + 1)).isNone }
    (∀ t, l.live = true → l.empty = false → l.cancelled = false → l.pipe = none → (getPart s l.part).pre = 0 →
      (∀ x ∈ s.launches, x.1 < launch → placement s x.1 = none) → l.skipped = [] →
      (∀ x ∈ s.launches, x.1 ≤ launch → placePipe s x.1 = s) →
      nextWg h l.nextG = some g → (candidates s launch g).findSome? (placeOn s launch g) = some t →
      ∃ u, exec (.workgroupPlacement launch) s = .next u ∧ u = { t with launches := u.launches, evq := u.evq } ∧
        getL u launch = next) ∧
    (l.pipe = none → (candidates s launch g).Pairwise (· < ·) ∧
      ∀ c, c ∈ candidates s launch g ↔ c < 192 ∧ (getCl s c).part = l.part ∧ (getCl s c).newPart = none) ∧
    (∀ cl t, placeOn s launch g cl = some t →
      ∃ off, off + runBytes h ≤ 2 ^ 20 ∧ (∀ r ∈ sliceRuns s cl, off + runBytes h ≤ r.1 ∨ r.1 + r.2 ≤ off) ∧
        t.slices = zeroBytes s.slices (cl * 2 ^ 20 + off) (hScr h + barBytes h) ∧ t.mem = s.mem ∧
        (let w := getWg t (wgKey launch g)
         w.live = true ∧ w.launch = launch ∧ w.g = g ∧ w.cluster = cl ∧ w.off = off ∧ w.len = runBytes h ∧ w.saved = false ∧
         (∀ i, i < hNbar h → barWord t (wgKey launch g) i = 0#64) ∧ w.warps.length = (warpsOf h g).length ∧
         ∀ i, i < hNtb h → w.tbufs[i]? = some ⟨off + (hScr h + barBytes h) + tbOffset h i, hTbDepth h i, hTbSize h i,
           List.replicate (hTbDepth h i) .empty, 0, 0⟩)) ∧
    (∀ cl k t, s.cur = .none → cl < 192 → placeWarp s launch g cl k = some t →
      coreHeld s (cl * 4 + k % 4) = false ∧ ∃ i b, i ∈ coreSlots (cl * 4 + k % 4) ∧ (getW s i).live = false ∧
        (∀ j ∈ coreSlots (cl * 4 + k % 4), j < i → (getW s j).live = true) ∧
        runFree (coreRuns s (cl * 4 + k % 4) 100000) b (roundUp8 (hRegs h)) = true ∧
        (let w := getW t i
         let id := fun (n : Nat) => BitVec.ofNat 64 (g * 2 ^ hW h + k * 32 + n)
         w.live = true ∧ w.launch = launch ∧ w.g = g ∧ w.idx = k ∧ w.nfib = hNfib h ∧ w.base = b ∧ w.pend = [] ∧
         w.resv = roundUp8 (hRegs h) ∧ w.rows.length = hRegs h ∧ (∀ n, n < 32 → w.wid[n]? = some (id n)) ∧
         ∀ r n, n < 32 → r < hRegs h →
           lane (w.rows.getD r zeroRow) n = if r = 0 then lo32 (id n) else if r = 1 then hi32 (id n) else 0#32) ∧
        ∀ f, f < 4 → f < hNfib h →
          let y := getF t (4 * i + f)
          y.st = .ready ∧ y.sp.pos = ⟨hKbase h + hEntry h f, 0⟩ ∧ y.sp.mask = y.live ∧ y.fmode = hMode h ∧ y.fflags = 0#32 ∧
          y.k = (List.range 14).map (hPar h) ++ [BitVec.ofNat 32 g, 0#32] ∧ y.m = [0#32, 0#32, 0#32, 0#32] ∧
          y.cnt = [0, 0, 0, 0] ∧ ∀ n, n < 32 → y.live.getLsbD n = hExists h (g * 2 ^ hW h + (k * 32 + n))) ∧
    (∀ k, s.cur = .none → k < 12288 →
      let w := getW s k
      let key := wgKey w.launch w.g
      w.live = true → w.retired = false → w.pend = [] →
      (∀ f, f < 4 → ((getF s (4 * k + f)).st = .absent ∨ (getF s (4 * k + f)).st = .ended) ∧
        ∀ n ∈ (getF s (4 * k + f)).cnt, n = 0) →
      ∃ t, exec (.warpRetire k) s = .next t ∧ t.warps = tset Warp.none s.warps k { Warp.none with
          live := true, launch := w.launch, g := w.g, idx := w.idx, base := w.base, resv := w.resv, retired := true } ∧
        t.fibs = (slotFibres k).foldl (fun m i => tset Fibre.none m i Fibre.none) s.fibs ∧
        t.wgs = tset Wg.none s.wgs key { getWg s key with warps := (getWg s key).warps.filter fun j => j != k } ∧
        ∀ j, j < 4 → memOf t j = memOf s j) ∧
    (∀ key,
      let w := getWg s key
      let c := getCl s w.cluster
      let t := retireWg s key
      s.cur = .none → w.live = true → w.warps = [] → c.frondWg ≠ some key → (∀ x ∈ c.frondQ, x.1 ≠ key) →
      (∀ o ∈ c.tbq, o.wg ≠ key) →
      (getWg t key).live = false ∧ t.fibs = s.fibs ∧ (∀ j, j < 4 → memOf t j = memOf s j) ∧
        ∀ k ∈ retiredSlots s w.cluster w.launch w.g, getW t k = Warp.none) ∧
    (∀ p b, l.live = true → l.empty = false → l.skipped = [] → 0 < taskReach s launch → nextWg h l.nextG = some g → g < 2 ^ 64 → l.batch = some b → l.pipe = some p →
      (getP s p).live = true → apportioned s launch = true → (getPart s l.part).pre = 0 → eligible s launch g = true →
      b.b = batchOf h g → b.counts.getD (expertOf h g) 0 = 0 →
      ∃ t, exec (.taskNotCreated launch) s = .next t ∧ t.wgs = s.wgs ∧ t.warps = s.warps ∧ t.fibs = s.fibs ∧
        (∀ j, j < 4 → memOf t j = memOf s j) ∧ getL t launch = next ∧
        ∀ i x, (getP s p).bufs[i]? = some x → x.prod = l.stage → taskSlot x g < x.slots.length →
          let y := getPs ((getP t p).bufs.getD i PBuf.none) (taskSlot x g)
          y.st = .full ∧ y.fill = g % 2 ^ 32) ∧
    (skippable s launch = some g → nextWg h l.nextG ≠ some g →
      ∃ t, exec (.taskNotCreated launch) s = .next t ∧ t.wgs = s.wgs ∧ t.warps = s.warps ∧ t.fibs = s.fibs ∧
        (∀ j, j < 4 → memOf t j = memOf s j) ∧ getL t launch = { l with skipped := l.skipped ++ [g] }) ∧
    (∀ p n, l.live = true → l.empty = false → l.pipe = some p → nextWg h l.nextG = some g → apportioned s launch = true →
      l.clusters ≠ [] → (∀ b, l.batch = some b → b.b ≠ batchOf h g) → eligible s launch g = true →
      (∀ e, e < pNexp (getP s p).desc → countAt s l (pAph (getP s p).desc) e = some (n e)) →
      let counts := (List.range (pNexp (getP s p).desc)).map n
      ∃ t, exec (.batchStart launch) s = .next t ∧
        getL t launch = { l with batch := some ⟨batchOf h g, counts, apportion l.clusters counts⟩ } ∧
        ∀ j, j < 4 → memOf t j = memOf s j) ∧
    (∀ comp,
      let c := getC s comp
      let q := getQ s c.queue
      c.live = true → c.more = false → c.tt = none → (∀ x ∈ c.launches, launchDone s x = true ∧ starves s x = false) →
      let new := (distinct (c.launches.map (launchUnit s))).filter fun u => !c.counted.contains u
      let n := new.length + c.rejects
      let last := { c with counted := c.counted ++ new ++ (if c.rejects = 0 then [] else [0]), rejects := 0 }
      ∃ t, exec (.launchCompletion comp) s = .next t ∧
        t.comps = tset Comp.none (if n = 0 then s.comps else tset Comp.none s.comps comp last) comp Comp.none ∧
        t.queues = (if n = 0 ∧ c.counted ≠ [] then s.queues
          else tset Queue.reset s.queues c.queue { q with done := q.done + BitVec.ofNat 32 (if n = 0 then 1 else n) }) ∧
        t.launches = s.launches.filter (fun x => !c.launches.contains x.1) ∧
        (q.qctl.getLsbD 15 = true → c.queue ∈ t.msix) ∧
        (c.addr = 0#64 → ∀ j, j < 4 → memOf t j = memOf s j) ∧
        (∀ pa, c.addr ≠ 0#64 → locatePkt s c.ctx (getCtx s c.ctx).part true c.addr 32 = .ok (.dev pa) →
          t.mem = wrBytes s.mem pa (recordBits s c) 32) ∧
        (c.cause < 2 ^ 9 → c.ncause < 2 ^ 8 → c.site < 2 ^ 16 → c.orig < 2 ^ 9 →
          let v := recordBits s c
          v % 2 ^ 32 = c.tag.toNat ∧ v / 2 ^ 32 % 2 ^ 9 = c.cause ∧ v / 2 ^ 41 % 2 = 1 ∧
          v / 2 ^ 42 % 2 = (if c.cancelled then 1 else 0) ∧ v / 2 ^ 48 % 2 ^ 8 = c.ncause ∧ v / 2 ^ 64 % 2 ^ 16 = c.site ∧
          v / 2 ^ 80 % 2 ^ 9 = c.orig ∧ v / 2 ^ 128 % 2 ^ 32 = compDrops s c ∧ v / 2 ^ 192 = s.timens.toNat))
/-- 24 R400: clusters apportioned to counts. Where no more experts than clusters have work, each such expert has one
cluster and the floor of its part of the others; those left over go one each to the largest remainders, the lower expert
on a tie; the clusters are dealt in order and none is left. Where more experts have work, they share the clusters in
turn. -/
def Obligations.Apportioning : Prop :=
  ∀ (cl counts : List Nat),
    let xs := (List.range counts.length).filter fun e => decide (0 < counts.getD e 0)
    let r := cl.length - xs.length
    let n := counts.sum
    let base := fun (e : Nat) => 1 + r * counts.getD e 0 / n
    (xs = [] → apportion cl counts = []) ∧
    (cl ≠ [] → cl.length < xs.length →
      (apportion cl counts).map Prod.fst = xs ∧
      ∀ i e, xs[i]? = some e → (apportion cl counts)[i]? = some (e, [cl.getD (i % cl.length) 0])) ∧
    (xs.length ≤ cl.length → xs ≠ [] →
      (apportion cl counts).map Prod.fst = xs ∧ (apportion cl counts).flatMap Prod.snd = cl ∧
      (∀ x ∈ apportion cl counts, x.2.length = base x.1 ∨ x.2.length = base x.1 + 1) ∧
      ∀ x ∈ apportion cl counts, ∀ y ∈ apportion cl counts, x.2.length = base x.1 + 1 → y.2.length = base y.1 →
        r * counts.getD y.1 0 % n < r * counts.getD x.1 0 % n ∨
        (r * counts.getD y.1 0 % n = r * counts.getD x.1 0 % n ∧ x.1 < y.1))
/-- 06 R105: when a warp is placed, k0 to k13 of each of its fibres hold the launch header's parameter words 0 to 13,
k14 bits [31:0] of the workgroup index, k15 zero. -/
def Obligations.FibreStart : Prop :=
  ∀ (s t : State) (launch g cl k f : Nat), s.cur = .none → cl < 192 → placeWarp s launch g cl k = some t → f < 4 →
    f < hNfib (getL s launch).hdr →
    ∃ i, i ∈ coreSlots (cl * 4 + k % 4) ∧ (getW t i).launch = launch ∧ (getW t i).g = g ∧ (getW t i).idx = k ∧
      (∀ j, j < 14 → (getF t (4 * i + f)).k[j]? = some (hPar (getL s launch).hdr j)) ∧
      (getF t (4 * i + f)).k[14]? = some (BitVec.ofNat 32 g) ∧ (getF t (4 * i + f)).k[15]? = some 0#32 ∧
      (getF t (4 * i + f)).k.length = 16
/-- 10 R187 to R189: the oldest request for rows is granted where a run is free; while every warp of the core is blocked
the youngest is evicted once its output streams' elements are performed, its fibres Saved, its rows given up, its bytes written to
shadow storage or, whole, to the cluster's spill area (01 Table 1.3); the slot evicted first returns when a run is free and none is to be evicted, and the fibres to be notified hold 0x146. 10 R186, R187: a request for rows that are there has no effect and is
ready; `rshrink` keeps the lowest rows, the reservation the next multiple of 8, once no write to a dropped row that was in
flight before the group still is. -/
def Obligations.RowCounts : Prop :=
  (∀ (s : State) (core : Nat), s.cur = .none → core < 768 →
     (∀ k n a b, oldestGrow s core = some (k, n, a) →
       (let rs := coreRuns s core k
        (runFree rs (getW s k).base (roundUp8 n) = true ∧ b = (getW s k).base) ∨
        (runFree rs (getW s k).base (roundUp8 n) = false ∧ fitRun rs (roundUp8 n) = some b)) →
       (∀ j, j ∈ coreSlots core → (getW s j).live = true → (getW s j).resv ≠ 0 → ∀ x ∈ (getW s j).rg, a ≤ x.2.2.2) ∧
       ∃ t, exec (.rgrowGrant core) s = .next t ∧ runFree (coreRuns s core k) b (roundUp8 n) = true ∧
         getW t k = { getW s k with
           base := b, resv := max (getW s k).resv (roundUp8 n), rg := (getW s k).rg.filter fun x => decide (n < x.2.2.1)
           rows := (getW s k).rows ++ List.replicate (n - (getW s k).rows.length) zeroRow } ∧
         t.fibs = s.fibs ∧ ∀ j, j < 4 → memOf t j = memOf s j) ∧
     (∀ k, (∀ j ∈ resident s core, rgBlocked s j = true) → (∃ j ∈ resident s core, (getW s j).rg ≠ []) →
       youngest s (resident s core) = some k → strmOut s k = false → (∀ r ∈ (getW s k).rows, r.length = 32) →
       (∀ j ∈ resident s core, (getW s j).order ≤ (getW s k).order) ∧
       let cl := k / 64
       let part := (getL s (getW s k).launch).part
       let n := slotBytes (getW s k)
       ∃ t e x, exec (.registerGrowEviction core) s = .next t ∧ (∀ j, 0 < j → j < 4 → memOf t j = memOf s j) ∧
         (getCl t cl).saves = (getCl s cl).saves ++ [x] ∧ x.slot = true ∧ x.key = k ∧
         x.inShadow = (if shadowUsed s cl + n ≤ shadowSize then n else 0) ∧ x.inSpill = n - x.inShadow ∧
         (∃ l : List Byte, l.length = n ∧ l.drop ((getW s k).nfib * Config.saveFibre) = (getW s k).rows.flatMap wordBytes ∧
           (getCl t cl).shadow = wrList (getCl s cl).shadow x.shAt (l.take x.inShadow) ∧
           t.mem = (if partTop (getPart s part) = 0 then s.mem
             else wrList s.mem (spillAt s part cl + x.spAt) (l.drop x.inShadow))) ∧
         (getW t k).resv = 0 ∧ (getW t k).rg = [] ∧ (getW t k).rows = (getW s k).rows ∧
         (getCore t core).evicted = (getCore s core).evicted ++ [e] ∧ e.slot = k ∧ e.rows = (getW s k).resv ∧
         ∀ f, f < 4 → (getF s (4 * k + f)).st ≠ .absent → getF t (4 * k + f) = saveFibre (getF s (4 * k + f))) ∧
     (∀ k, (∀ j ∈ resident s core, rgBlocked s j = true) → (∃ j ∈ resident s core, (getW s j).rg ≠ []) →
       youngest s (resident s core) = some k → strmOut s k = true → exec (.registerGrowEviction core) s = .next s) ∧
     (∀ e r b, (getCore s core).evicted = e :: r → slotRuns s e.slot = true → evictable s core = false → e.slot < 12288 → (getW s e.slot).live = true →
       fitRun (coreRuns s core e.slot) e.rows = some b →
       ∃ t, exec (.evictedSlotRestore core) s = .next t ∧ (∀ j, j < 4 → memOf t j = memOf s j) ∧
         t.cores = tset Core.reset s.cores core { getCore s core with evicted := r } ∧
         getW t e.slot = { getW s e.slot with base := b, resv := e.rows } ∧
         (∀ f, f < 4 →
           let y := getF s (4 * e.slot + f)
           y.st ≠ .absent → y.saved = true → e.notify = [] →
           getF t (4 * e.slot + f) = { dropLatches y with saved := false, streams := y.streams.map dropQueue }) ∧
         ∀ n, e.notify = [(n, (getF s n).cs)] → n / 4 = e.slot → (getF s n).st ≠ .absent →
           (getF t n).fails = (getF s n).fails ++ [⟨0x146, 0#32, 0#64, (getF s n).sp.mask, false, false, none, 0⟩])) ∧
  (∀ (s : State) (p : Pfx) (n : BitVec 8),
     (Enabled s (.rgrow p n) → inHandler s.f = false → n.toNat ≤ (rW s).rows.length → exec (.rgrow p n) s = .next s) ∧
     (Enabled s (.rshrink p n) → inHandler s.f = false →
       (∀ q ∈ (rW s).pend, ∀ r ∈ q.rows, r.1 < n.toNat) →
       (s.w.rows.length ≤ n.toNat → exec (.rshrink p n) s = .next s) ∧
       (n.toNat < s.w.rows.length → ∃ t, exec (.rshrink p n) s = .next t ∧ t.w.rows = s.w.rows.take n.toNat ∧
         t.w.resv % 8 = 0 ∧ n.toNat ≤ t.w.resv ∧ t.w.resv < n.toNat + 8 ∧ t.w.base = s.w.base ∧ t.w.pend = s.w.pend ∧
         t.f = s.f ∧ t.mem = s.mem ∧ t.slices = s.slices)))
/-- 22 R363 to R373, 19 R336, R340 to R342: the tail of a queue; the head packet of a lane, taken, held, signalled,
waited for; a packet refused with its tag; a launch accepted or rejected; a prologue started and ended; overflow packets; time-triggered entries; a
launch cancelled. -/
def Obligations.QueueEvents : Prop :=
  ∀ (s : State) (q : Nat),
    let x := getQ s q
    let same := fun (t : State) => ∀ j, j < 4 → memOf t j = memOf s j
    (∀ v, s.stage = 5 →
      ((v - x.head).toNat ≤ hostRing x → (x.tail - x.head).toNat ≤ (v - x.head).toNat →
        ∃ t, exec (.qtail q v) s = .next t ∧
          t = { s with queues := tset Queue.reset s.queues q { x with tail := v }, evq := t.evq }) ∧
      (hostRing x < (v - x.head).toNat ∨ (v - x.head).toNat < (x.tail - x.head).toNat →
        exec (.qtail q v) s = .next { s with
          queues := tset Queue.reset s.queues q { x with errCause := 0x150, errCount := satInc x.errCount 65535 } })) ∧
    (x.ahead = [] → x.tail ≠ x.head → x.dtail = x.dhead ∨ 8 ≤ x.devRun →
      headPkt s q = some (.host, BitVec.ofNat 512 (rdBytes s.mem (x.qbase.toNat + 64 * (x.head.toNat % hostRing x)) 64))) ∧
    (x.ahead = [] → x.dtail ≠ x.dhead → x.tail = x.head ∨ x.devRun < 8 →
      headPkt s q = some (.device, BitVec.ofNat 512 (rdBytes s.mem (x.dqbase.toNat + 64 * (x.dhead.toNat % 2 ^ qDlsz x)) 64))) ∧
    (∀ p src, headPkt s q = some (src, p) →
      (p.getLsbD 8 = true → (∃ c ∈ s.comps, c.2.live = true ∧ c.2.queue = q) → ∀ ty, headOf s q ty = none) ∧
      (servedType s p = 4 → waitHolds s q p = false →
        exec (.waitPacket q) s = .next s ∧ exec (.waitPacketPoll q) s = .next s)) ∧
    (∀ ty p, headOf s q ty = some (.host, p) →
      let u := tset Queue.reset s.queues q { x with head := x.head + 1, devRun := 0 }
      (ty = 0 → ∃ t, exec (.nopPacket q) s = .next t ∧ t = { s with queues := u, evq := t.evq }) ∧
      (ty = 3 → ∀ pa, pktWord s q p true = some (.dev pa) →
        ∃ t, exec (.signal q) s = .next t ∧ t.mem = wrBytes s.mem pa (pktV p).toNat 8 ∧ t.slices = s.slices ∧ t.queues = u) ∧
      (ty = 4 → pktWord s q p false ≠ none →
        ∃ t, exec (.waitPacket q) s = .next t ∧ exec (.waitPacketPoll q) s = .next t ∧
          t = { s with queues := u, evq := t.evq }) ∧
      (ty = 5 → ∃ t, exec (.reservedPacket q) s = .next t ∧ same t ∧ (getQ t q).errCause = 0x140 ∧
        (getQ t q).errTag = p.extractLsb' 32 32 ∧ (getQ t q).head = x.head + 1 ∧ t.launches = s.launches)) ∧
    (∀ p h tv, headOf s q 1 = some (.host, p) → readTable s (qCtx x) (qPart x) (pktA p) = some h → ctxServes s q = true →
      readTv s (qCtx x) (qPart x) h = some tv →
      (headerCause h = none → hPipe h = 0 →
        ∃ t, exec (.launch q) s = .next t ∧ same t ∧ t.accepted = true ∧ (getQ t q).head = x.head + 1 ∧
          (let c := getC t (s.nextId + 1)
           c.live = true ∧ c.queue = q ∧ c.ctx = qCtx x ∧ c.tag = p.extractLsb' 32 32 ∧ c.addr = pktV p ∧ c.cause = 0 ∧
           c.launches = [s.nextId + 2] ∧ c.more = false) ∧
          (let l := getL t (s.nextId + 2)
           l.live = true ∧ l.ctx = qCtx x ∧ l.part = qPart x ∧ l.tv = tv ∧ l.comp = s.nextId + 1 ∧ l.pipe = none ∧
           l.nextG = (nextWg h 0).getD 0 ∧ l.empty = (nextWg h 0).isNone ∧ (feature s 16 = true → l.hdr = h))) ∧
      (∀ c, headerCause h = some c →
        ∃ t, exec (.launch q) s = .next t ∧ same t ∧ t.launches = s.launches ∧ (getC t (s.nextId + 1)).cause = c ∧
          (getC t (s.nextId + 1)).launches = [] ∧ (getQ t q).errCause = c)) ∧
    (∀ p h tv r, headOf s q 2 = some (.host, p) → s.cur = .none → q < 32 →
      readTable s (qCtx x) (qPart x) (pktA p) = some h → ctxServes s q = true →
      readTv s (qCtx x) (qPart x) h = some tv → readRec s q h = some r →
      ∃ t, exec (.launchIndirect q) s = .next t ∧ same t ∧
        (let f := getF t (fibKey (.prol q))
         f.st = .ready ∧ f.sp.pos = ⟨p.extractLsb' 192 32, 0⟩ ∧ f.sp.mask = 1#32 ∧ f.live = 1#32 ∧
         f.k = (List.range 14).map (hPar h) ++ [0#32, 0#32]) ∧
        (getQ t q).prol = some
          { pkt := p, hdr := h, tv := tv, prec := r, hdrs := readStages s (qCtx x) (qPart x) r, r := 0, words := 0
            comp := s.nextId + 1 } ∧ (getC t (s.nextId + 1)).more = true) ∧
    (∀ p, x.prol = some p → (prolLanes s).any (· < q) = false → 65536 < p.words → s.cur = .none → q < 32 → (getF s (fibKey (.prol q))).st = .ended →
      (getW s (fibKey (.prol q) / 4)).pend = [] → (getC s p.comp).live = true → (getC s p.comp).cause = 0 →
      ∃ t, exec (.prologueStepLimit q) s = .next t ∧ same t ∧ (getC t p.comp).cause = 0x153 ∧
        (getC t p.comp).more = false ∧ t.launches = s.launches ∧
        t.fibs = tset Fibre.none s.fibs (fibKey (.prol q)) Fibre.none) ∧
    (∀ id l o loc, ringRoom x = true → qDlsz x ≠ 0 →
      s.launches.find? (fun p => p.2.live && p.2.overflow.any fun o => o.1 == q) = some (id, l) → getL s id = l →
      l.overflow.find? (fun o => o.1 == q) = some o → ovfAt s l o.2 false = .ok loc →
      ∃ t, exec (.overflowDrain q) s = .next t ∧
        t.mem = wrBytes s.mem (x.dqbase.toNat + 64 * (x.dtail.toNat % 2 ^ qDlsz x)) ((readLoc s loc 64).1 % 2 ^ 512) 64 ∧
        t.queues = tset Queue.reset s.queues q { x with dtail := x.dtail + 1 } ∧
        getL t id = { l with overflow := l.overflow.erase o }) ∧
    (∀ i k,
      let e := getTt s i
      let n := ttQueue e
      let y := getQ s n
      ttDue s e = some k →
      ∃ t, exec (.timeTriggeredSlot i) s = .next t ∧ same t ∧ (getTt t i).last = some k ∧ ttFirst e ≤ k ∧
        ttSkips (getTt t i) = min (ttSkips e + (k - ttFirst e) +
          (if ttRunning s i = true ∧ (e.w0.getLsbD 1 = false ∨ ttPend e = true) then 1 else 0)) (2 ^ 32 - 1) ∧
        (ttRunning s i = false → ∀ l,
          locatePkt s (qCtx y) (getCtx s (qCtx y)).part false (e.pkt &&& 0x3FFFFFFFFFFFFF#64) 64 = .ok l →
          (getQ t n).ahead = y.ahead ++ [(i, BitVec.ofNat 512 (readLoc s l 64).1)] ∧ ttPend (getTt t i) = ttPend e) ∧
        (ttRunning s i = true → t.queues = s.queues ∧ ttPend (getTt t i) = (ttPend e || e.w0.getLsbD 1))) ∧
    (∀ i v, s.stage = 5 →
      let e := getTt s i
      let put := fun (e : TtEntry) => ({ s with tt := tset TtEntry.reset s.tt i e } : State)
      (ttValid e = false →
        exec (.timeTriggeredEntryWrite i 1 v) s = .next (put { e with phase := v }) ∧
        exec (.timeTriggeredEntryWrite i 2 v) s = .next (put { e with period := v }) ∧
        exec (.timeTriggeredEntryWrite i 3 v) s = .next (put { e with pkt := v &&& 0x3FFFFFFFFFFFFF#64 }) ∧
        (v.getLsbD 0 = true → ttRefused s e v = false →
          exec (.timeTriggeredEntryWrite i 0 v) s = .next (put { e with
            w0 := v &&& 0x7F#64, last := none, base := ttSlotNow s e }))) ∧
      (v.getLsbD 0 = false → exec (.timeTriggeredEntryWrite i 0 v) s =
        .next (put { e with w0 := (e.w0 &&& 0xFFFFFFFF00000000#64) ||| (v &&& 0x7E#64) })) ∧
      (ttValid e = true → v.getLsbD 0 = true → ttRefused s e v = false → exec (.timeTriggeredEntryWrite i 0 v) s =
        .next (put { e with w0 := (e.w0 &&& ~~~0x7F#64) ||| (v &&& 0x7F#64) })) ∧
      (ttValid e = true → ∀ w, 1 ≤ w → exec (.timeTriggeredEntryWrite i w v) s = .next s) ∧
      (v.getLsbD 0 = true → ttRefused s e v = true → exec (.timeTriggeredEntryWrite i 0 v) s = .next s)) ∧
    (∀ comp,
      let c := getC s comp
      c.live = true → s.cur = .none → (∀ p, (getQ s c.queue).prol = some p → p.comp ≠ comp) →
      (∀ y ∈ s.warps, y.2.launch ∈ c.launches → ∀ k ∈ slotFibres y.1, heldAxes s (getL s y.2.launch).ctx k = []) →
      ∃ t, exec (.launchCancellation comp) s = .next t ∧ same t ∧ (getC t comp).more = false ∧
        (∀ l, c.launches = [l] → ∀ e ∈ owedAcks s l, e ∈ t.evq) ∧
        (∀ l ∈ c.launches, (getL t l).cancelled = true ∧ (getL t l).empty = true ∧ (getL t l).overflow = [] ∧
          (∀ w ∈ t.warps, w.2.live = true → w.2.launch ≠ l) ∧ ∀ w ∈ t.wgs, w.1 / 2 ^ 64 ≠ l))
/-- 12 R223, 20 R350, 21 R355 to R357, 23 R393: the request at the head of a port goes once the bucket holds its units;
a refill; the fibres a congested core permits; a congestion copy; a stage with work and no cluster takes an idle one of
a stage that keeps one; a cluster changes its partition once it is empty, and joins of a pipeline there the stage with the fewest
clusters (log 102). -/
def Obligations.SchedulingEvents : Prop :=
  ∀ (s : State),
    (∀ cl u key n r, (getCl s cl).portq = (u, key, n) :: r →
      let c := getCl s cl
      let b := c.buckets.getD c.part 0
      (b < u → exec (.portAdmission cl) s = .next s) ∧
      (u ≤ b → ∃ t, exec (.portAdmission cl) s = .next t ∧ (∀ j, j < 4 → memOf t j = memOf s j) ∧
        t.clusters =
          (perfCl (setCl s cl { c with portq := r, buckets := c.buckets.set c.part (b - u) }) cl 0x3B u).clusters)) ∧
    (∃ t, exec .tokenRefill s = .next t ∧ (∀ j, j < 4 → memOf t j = memOf s j) ∧ t.bwBudget = s.bwNext ∧
      (∀ p, p < 16 →
        let x := getPart s p
        getPart t p = { x with
          share := x.next.toNat % 2 ^ 9, en := x.next.getLsbD 9, vmth := x.next.toNat / 2 ^ 10 % 2 ^ 8
          wdlg := x.next.toNat / 2 ^ 18, seeded := x.next.getLsbD 9 }) ∧
      ∀ c, c < 192 →
        let p := (getCl s c).part
        let x := { getPart t p with seeded := (getPart s p).seeded }
        let n := max (nclus s p) 1
        let old := (getCl s c).buckets.getD p 0
        let part := fun (total : Nat) => if total = 0 then 1 else max 1 (min (s.bwNext * x.share / (total * n)) 32767)
        let own := part (shareSum t fun _ => true)
        let act := part (shareSum t (activePart s))
        p < 16 → x.en = true → p < (getCl s c).buckets.length →
        (getCl t c).buckets = (getCl s c).buckets.set p
          (if x.seeded = false then own else if activePart s p then min (old + act) (2 * act) else min (max old own) (2 * own)) ∧
        (getCl t c).portq = (getCl s c).portq) ∧
    (∀ core,
      let c := (getCl s (core / 4)).cong
      (c < 64 → exec (.throttlePeriod core) s =
        .next { s with cores := tset Core.reset s.cores core { getCore s core with permit := none } }) ∧
      (64 ≤ c → ∃ t p, exec (.throttlePeriod core) s = .next t ∧ (getCore t core).permit = some p ∧
        (let n := if c < 128 then 8 else if c < 192 then 4 else 1
         let bound := ((List.range 64).filter fun i => memoryBound s (core * 64 + i))
         p.length = min n bound.length ∧ ∀ k ∈ p, memoryBound s k = true ∧ k / 64 = core))) ∧
    (∃ t, exec .congestionRefresh s = .next t ∧ (∀ j, j < 4 → memOf t j = memOf s j) ∧
      ∀ c n, c < 192 → n ≠ 0 → (∀ o, o < 26 → congestion s ((2 + c / 32) * 8 + c / 4 % 8) o ≤ n) →
        (∃ o, o < 26 ∧ congestion s ((2 + c / 32) * 8 + c / 4 % 8) o = n) → (getCl t c).cong = n) ∧
    (∀ part p a b c q, s.pipes = [(p, q)] → q.live = true → q.stages = [a, b] → a ≠ b → (getL s a).part = part → part < 16 →
      eligibleLeft s a ≠ 0 → eligibleLeft s b ≠ 0 → (getL s a).clusters = [] → 2 ≤ (getL s b).clusters.length →
      lowestIdle s b = some c →
      ∃ t, exec (.clusterReassignment part) s = .next t ∧ t = { s with launches := t.launches, evq := t.evq } ∧
        getL t a = { getL s a with clusters := [c] } ∧
        getL t b = { getL s b with clusters := (getL s b).clusters.filter fun x => x != c }) ∧
    (∀ cl v, s.stage ≠ 5 → exec (.cpartWrite cl v) s = .next { s with closed := satInc s.closed 65535 }) ∧
    (∀ cl v, s.stage = 5 → v.toNat % 16 ≠ (getCl s cl).part →
      ∃ t, exec (.cpartWrite cl v) s = .next t ∧ (getCl t cl).newPart = some (v.toNat % 16) ∧
        (getCl t cl).part = (getCl s cl).part) ∧
    (∀ cl v, s.stage = 5 → v.toNat % 16 = (getCl s cl).part →
      ∃ t, exec (.cpartWrite cl v) s = .next t ∧ t = { s with
        clusters := tset Cluster.reset s.clusters cl { getCl s cl with newPart := none }, evq := t.evq }) ∧
    (∀ cl p, (getCl s cl).newPart = some p →
      (clusterEmpty s cl = false → exec (.cpartTakesEffect cl) s = .next s) ∧
      (clusterEmpty s cl = true → ∃ t, exec (.cpartTakesEffect cl) s = .next t ∧
        t.clusters = tset Cluster.reset s.clusters cl
          { getCl s cl with part := p, newPart := none, buckets := List.replicate 16 0 } ∧
        ((∀ x ∈ s.pipes, x.2.live = false) → ∀ x ∈ t.launches, cl ∉ x.2.clusters) ∧
        (let u := { s with launches := s.launches.map fun l =>
           (l.1, { l.2 with clusters := l.2.clusters.filter fun c => c != cl }) }
         ∀ n q l, s.pipes = [(n, q)] → q.live = true → (∃ a ∈ q.stages, (getL s a).part = p) → leastStage u q.stages = some l →
           cl < 192 → (getL t l).clusters = (List.range 192).filter fun c => c == cl || (getL u l).clusters.contains c) ∧
        ∀ j, j < 4 → memOf t j = memOf s j))
/-- 22 R376 to R378, 02 R39, 10 R183, 11 R217, 16 R294: a partition drained, forced, restored (state 5, then its areas read back) or
evicted, its saves copied from shadow storage to the spill area; a command that its state does not admit is refused; an arrival
or a message held for a saved workgroup is applied to the saved copy. -/
def Obligations.PreemptionEvents : Prop :=
  ∀ (s : State) (p : Nat), s.stage = 5 →
    let x := getPart s p
    let refused := { s with parts := tset Part.reset s.parts p { x with refused := true } }
    let resident := s.wgs.any fun w => w.2.live && (getL s w.2.launch).part == p
    (x.pre ≠ 0 → exec (.drain p) s = .next refused ∧ exec (.forced p) s = .next refused) ∧
    (x.pre = 0 → ∃ t, exec (.drain p) s = .next t ∧ t = { s with parts := t.parts } ∧
      (getPart t p).pre = if resident then 1 else 3) ∧
    (x.pre = 0 → s.cur = .none →
      ∃ t, exec (.forced p) s = .next t ∧ (p < 16 → (getPart t p).pre = 2) ∧
        (∀ y ∈ t.clusters, ∀ c ∈ y.2.cmds, (getL s (c.wg / 2 ^ 64)).part = p → c.running = false) ∧
        ((∀ y ∈ s.clusters, y.2.portq = [] ∧ ∀ c ∈ y.2.cmds, c.running = true → c.paid = false) →
          t.wgs = s.wgs ∧ t.mem = s.mem ∧ t.hostMem = s.hostMem ∧ t.peerMem = s.peerMem ∧
          ((∀ k ∈ partWarps s p, k < 12288) → t.slices = s.slices ∧ t.warps = s.warps) ∧
          (∀ k f, k ∈ partWarps s p → k < 12288 → f < 4 → (getF s (4 * k + f)).st ≠ .absent →
            getF t (4 * k + f) = saveFibre (getF s (4 * k + f))) ∧
          ∀ k, k ∈ partWarps s p → 12288 ≤ k → (getF s (4 * k)).st ≠ .absent → (getF t (4 * k)).saved = true)) ∧
    (x.pre ≠ 3 → exec (.evict p) s = .next refused) ∧
    (x.pre = 3 → ∃ t, exec (.evict p) s = .next t ∧
      t = { s with mem := t.mem, clusters := t.clusters, parts := tset Part.reset s.parts p { x with pre := 4 } } ∧
      (partTop x = 0 → t.mem = s.mem) ∧
      (∀ c y a, s.clusters = [(c, y)] → y.saves = [a] → a.slot = false → (getL s (a.key / 2 ^ 64)).part = p → partTop x ≠ 0 →
        t.mem = wrList s.mem (spillAt s p c) (saveList s p c a)) ∧
      (∀ y ∈ t.clusters, ∀ a ∈ y.2.saves, a.slot = false → (getL s (a.key / 2 ^ 64)).part = p → a.inShadow = 0) ∧
      ∀ y ∈ s.clusters, ∃ z ∈ t.clusters, z.1 = y.1 ∧ ∀ a ∈ y.2.saves, a.slot = false →
        (getL s (a.key / 2 ^ 64)).part = p → ∃ at1, ⟨false, a.key, 0, a.inShadow + a.inSpill, 0, at1⟩ ∈ z.2.saves) ∧
    (x.pre ≠ 3 → x.pre ≠ 4 → exec (.restore p) s = .next refused) ∧
    (x.pre = 3 ∨ x.pre = 4 → exec (.restore p) s =
      .next (post { s with parts := tset Part.reset s.parts p { x with pre := 5 } } [.restored p])) ∧
    (x.pre = 5 → s.cur = .none → x.arrivals = [] →
      ∃ t, runEv (.restored p) s = .next t ∧ t.parts = tset Part.reset s.parts p { x with pre := 0 } ∧
        (∀ j, j < 4 → memOf t j = memOf s j) ∧
        t.wgs = s.wgs.map (fun w =>
          (w.1, if w.2.live && (getL s w.2.launch).part == p then { w.2 with saved := false } else w.2)) ∧
        ∀ k f, k ∈ partWarps s p → k < 12288 → (getW s k).resv ≠ 0 → f < 4 →
          let y := getF s (4 * k + f)
          y.st ≠ .absent → y.saved = true →
          getF t (4 * k + f) = { dropLatches y with saved := false, streams := y.streams.map dropQueue }) ∧
    (∀ launch g i c a r, 3 ≤ x.pre → x.arrivals = .arrival launch g i c a :: r → (getWg s (wgKey launch g)).live = true →
      s.cur = .none → tget 0 s.outst (outKey 1152 launch) ≤ 65535 → barBad s (wgKey launch g) i = false →
      ∃ t, exec (.savedArrivalApply p) s = .next t ∧ (∀ j, j < 4 → j ≠ 1 → memOf t j = memOf s j) ∧
        t.parts = tset Part.reset s.parts p { x with arrivals := r } ∧
        (let w := getWg s (wgKey launch g)
         t.slices = wrBytes s.slices (w.cluster * 2 ^ 20 + barOff s w i)
           (arriveWord (setExp (barWord s (wgKey launch g) i) 0) c).toNat 8)) ∧
    (∀ l src g idx fib n row r k, 3 ≤ x.pre → x.arrivals = .message l src g idx fib n row :: r → s.cur = .none →
      tget 0 s.outst (outKey 1152 l) ≤ 65535 → warpKeyOf s (getWg s (wgKey l g)) idx = some k →
      (getF s (4 * k + fib)).exLost ≠ some (src, n) →
      ∃ t, exec (.savedArrivalApply p) s = .next t ∧ (∀ j, j < 4 → memOf t j = memOf s j) ∧
        t.parts = tset Part.reset s.parts p { x with arrivals := r } ∧
        (getF t (4 * k + fib)).xin = (getF s (4 * k + fib)).xin ++ [(src, n, row)]) ∧
    (x.pre < 3 → exec (.savedArrivalApply p) s = .next s)
/-- 25 R405 to R407, R410, R411, R413: a packet goes along its row, then along its column, to its port; a gated router
forwards nothing (01 R14: the host stands behind router 0, and every route has two links at most); a link that fails 16 replays goes down and a request that waits for it fails at its sender; a router
sleeps and wakes, and a packet enters once its outputs have room (R406); a flit that passes clears its link's count of replays; a peer's write and atomic are performed in the export window. -/
def Obligations.NetworkEvents : Prop :=
  (∀ r dest, (routeLinks r dest).length ≤ 2) ∧ (∀ q a, agentPort (.prol q) / 8 = 0 ∧ (portOfLoc (.host a)).map (· / 8) = some 0) ∧
  (∀ r dest, dest / 64 < 10 →
     (dest / 8 % 8 ≠ r % 8 → outRouter r (nextOut r dest) = some (r / 8 * 8 + dest / 8 % 8)) ∧
     (dest / 8 % 8 = r % 8 → dest / 64 ≠ r / 8 → outRouter r (nextOut r dest) = some (dest / 64 * 8 + r % 8)) ∧
     (dest / 8 = r → outRouter r (nextOut r dest) = none)) ∧
  ∀ (s : State),
    (∀ r i, s.gated.contains r = true → exec (.flitForward r i) s = .next s) ∧
    (∀ r i p d, s.gated.contains r = false → inputHeads s r i = [p] → p.dests = [d] → d ≠ lostBranch →
      (∀ x ∈ s.netq, isLost x = false) → branchFree s r (nextOut r d) p = true →
      exec (.flitForward r i) s = .next { s with
        retries := (match outRouter r (nextOut r d) with
          | none => s.retries
          | some _ => tset 0 s.retries (linkId r (nextOut r d)) 0)
        netq := s.netq.erase (r, i, p) ++ match outRouter r (nextOut r d) with
          | none => []
          | some n => [(n, linkId r (nextOut r d), p)] }) ∧
    (∀ link, exec (.linkReplay link) s = .next (softInc { s with
      retries := tset 0 s.retries link (if tget 0 s.retries link < 16 then tget 0 s.retries link + 1 else 16) } 3 link 0)) ∧
    (∀ link, tget 0 s.retries link < 16 → exec (.linkDown link) s = .next s) ∧
    (∀ link, 16 ≤ tget 0 s.retries link → s.linksDown.contains link = false →
      (∀ x ∈ s.netq, x.1 = link / 64 → link % 64 ∉ pktOuts x.1 x.2.2) →
      exec (.linkDown link) s = .next (softInc { s with linksDown := s.linksDown ++ [link] } 3 link 1)) ∧
    (∀ link i p d, 16 ≤ tget 0 s.retries link → s.linksDown.contains link = false → s.netq = [(link / 64, i, p)] →
      p.dests = [d] → d ≠ lostBranch → nextOut (link / 64) d = link % 64 → link % 64 < 18 → p.sender = s.cur →
      (∃ k, s.cur = .vec k) →
      ∃ t h, exec (.linkDown link) s = .next t ∧ t.linksDown = s.linksDown ++ [link] ∧ t.netq = [] ∧
        t.f = { s.f with fails := s.f.fails ++ [h] } ∧ h.cause = (if p.cls = 2 then 0x1C7 else 0x1F6)) ∧
    (∀ link, exec (.linkUp link) s = .next { s with
      linksDown := s.linksDown.filter (· != link), retries := tset 0 s.retries link 0 }) ∧
    (∀ r, r = 0 ∨ onTree s r = true ∨ (∃ x ∈ s.netq, x.1 = r) → exec (.routerGate r) s = .next s) ∧
    (∀ r, r ≠ 0 → s.gated.contains r = false → onTree s r = false → (∀ x ∈ s.netq, x.1 ≠ r) →
      (∀ c, c < 192 → (2 + c / 32) * 8 + c / 4 % 8 = r → (getPart s (getCl s c).part).netcfg.getLsbD 16 = true) →
      exec (.routerGate r) s = .next { s with gated := s.gated ++ [r] }) ∧
    (∀ r p,
      let port := if agentPort p.sender / 8 = r then agentPort p.sender % 8 else 0
      ∃ t, exec (.routerWake r p) s = .next t ∧
        ((∀ o ∈ pktOuts r p, outRoom s r o p = true) →
          t = { s with gated := t.gated, netq := s.netq ++ [(r, r * 64 + 18 + port, p)] }) ∧
        ((∃ o ∈ pktOuts r p, outRoom s r o p = false) → t = { s with gated := t.gated, evq := s.evq ++ [.inject r p] }) ∧
        ∀ x, x ∈ t.gated ↔ x ∈ s.gated ∧ x ≠ r ∧ ∀ d ∈ p.dests, d ≠ lostBranch → x ∉ routeRouters r d) ∧
    (∀ x : PeerReq,
      (x.kind = 0 → exec (.peerRequest x) s = .next s) ∧
      (x.kind = 1 → windowAt s x.off x.size true false = none → exec (.peerRequest x) s = .next s) ∧
      (∀ pa, x.kind = 1 → windowAt s x.off x.size true false = some pa → s.memBad = [] → s.cacheBad = [] →
        ∃ t, exec (.peerRequest x) s = .next t ∧
          t = { s with mem := wrBytes s.mem pa (x.val.toNat % 2 ^ (8 * x.size)) x.size, hist := t.hist }) ∧
      (∀ pa, x.kind = 2 → x.op < 9 → windowAt s x.off x.size true true = some pa → s.memBad = [] → s.cacheBad = [] →
        let old := rdBytes s.mem pa x.size
        let v := x.val.toNat % 2 ^ (8 * x.size)
        let new := match x.op with
          | 0 => (old + v) % 2 ^ (8 * x.size)
          | 1 => old &&& v
          | 2 => old ||| v
          | 3 => old ^^^ v
          | 4 => if signedOf x.size v < signedOf x.size old then v else old
          | 5 => if signedOf x.size old < signedOf x.size v then v else old
          | 6 => min old v
          | 7 => max old v
          | _ => v
        ∃ t, exec (.peerRequest x) s = .next t ∧ t = { s with mem := wrBytes s.mem pa new x.size, hist := t.hist }))
/-- 22 R362, R379, Table 22.2, 26 R416 to R419, R425 to R428, 19 R344, 12 R223, 21 Table 21.2, 25 Table 25.3, 10 Table
10.8, 14 R263, 21 R359: what a host's or the Lichen cluster's access does. Before stage 5 a host's write is only
counted. Four bytes of a register leave the others as they read, and only its low half starts anything (R417); an MSI-X entry
that is no longer masked pends no longer (PCIe's layout and rule: log 94). -/
def Obligations.HostEvents : Prop :=
  ∀ (s : State) (v : Word64),
    let n := v.toNat
    let write := fun (r : DevReg) (t : State) => exec (.registerWrite r v) s = .next t
    (∀ r, (∀ c, r ≠ .fstat c) → s.stage ≠ 5 → write r { s with closed := satInc s.closed 65535 }) ∧
    (∀ c, write (.fstat c) (if v.getLsbD 6 then { s with
      clusters := tset Cluster.reset s.clusters c { getCl s c with refused := false } } else s)) ∧
    (s.stage = 5 →
      (∀ q, let x := getQ s q
        (∃ t y, exec (.registerWrite (.qctl q) v) s = .next t ∧
          t = { s with queues := tset Queue.reset s.queues q { x with qctl := y }, evq := t.evq } ∧
          (x.qctl.getLsbD 0 = true → ∀ b, b < 64 → y.getLsbD b = if b = 0 then v.getLsbD 0 else x.qctl.getLsbD b) ∧
          (x.qctl.getLsbD 0 = false → y.toNat % 32 = n % 32 ∧ y.toNat / 2 ^ 15 = n / 2 ^ 15 % 2 ^ 7 ∧
            y.toNat / 32 % 32 = (if 4 ≤ n / 32 % 32 ∧ n / 32 % 32 ≤ 16 then n / 32 % 32 else 4) ∧
            y.toNat / 1024 % 32 = (if 4 ≤ n / 1024 % 32 ∧ n / 1024 % 32 ≤ 12 then n / 1024 % 32 else 0))) ∧
        (x.qctl.getLsbD 0 = false →
          write (.qbase q) { s with queues := tset Queue.reset s.queues q { x with qbase := BitVec.ofNat 64 (n % 2 ^ 48) } } ∧
          write (.dqbase q) { s with queues := tset Queue.reset s.queues q { x with dqbase := BitVec.ofNat 64 (n % 2 ^ 48) } })) ∧
      write .hostwin { s with hostEn := v.getLsbD 0, hostLg := if 12 ≤ n / 2 % 64 ∧ n / 2 % 64 ≤ 48 then n / 2 % 64 else 12 } ∧
      write .bar2ctl { s with bar2En := v.getLsbD 0, bar2Win := n / 2 % 16 } ∧
      write .errbase { s with errbase := v } ∧ write .errctl { s with errctl := BitVec.ofNat 64 (n % 2 ^ 36) } ∧
      write .expwin { s with expwin := BitVec.ofNat 64 (n % 2 ^ 14) } ∧
      write .attAck (if v.getLsbD 2 then { s with attDone := false } else s) ∧
      (∀ i, s.attBusy = false → write (.nonce i) { s with nonce := s.nonce.set i v }) ∧
      (∀ i, (getCtx s i).en = false →
        write (.ctxhb i) { s with ctxs := tset Ctx.reset s.ctxs i { getCtx s i with hbase := n % 2 ^ 48 } } ∧
        write (.ctxtb i) { s with ctxs := tset Ctx.reset s.ctxs i { getCtx s i with tbase := n % 2 ^ 48 } } ∧
        write (.ctxts i) { s with ctxs := tset Ctx.reset s.ctxs i { getCtx s i with tsize := n % 2 ^ 21 } } ∧
        (v.getLsbD 6 = false →
          write (.ctxAck i) { s with ctxs := tset Ctx.reset s.ctxs i { getCtx s i with part := n / 2 % 16 } })) ∧
      (∀ p, v.getLsbD 7 = true →
        write (.prectlAck p) { s with parts := tset Part.reset s.parts p { getPart s p with refused := false } })) ∧
    (s.stage = 5 → write .bwcfg { s with bwNext := max 1 (min (n % 2 ^ 17) 94120) }) ∧
    (∀ p, s.stage = 5 → ∃ y seeded, write (.pcfg p) { s with parts := tset Part.reset s.parts p { getPart s p with next := y, seeded := seeded } } ∧
      y.toNat % 2 ^ 9 = min (n % 2 ^ 9) 256 ∧ y.getLsbD 9 = v.getLsbD 9 ∧ y.toNat / 2 ^ 10 % 2 ^ 8 = n / 2 ^ 10 % 2 ^ 8 ∧
      (n / 2 ^ 18 % 64 = 0 → y.toNat / 2 ^ 18 = 0) ∧
      (12 ≤ n / 2 ^ 18 % 64 → n / 2 ^ 18 % 64 ≤ 40 → y.toNat / 2 ^ 18 = n / 2 ^ 18 % 64) ∧
      (v.getLsbD 9 = false → seeded = false) ∧ (v.getLsbD 9 = true → seeded = (getPart s p).seeded)) ∧
    (∀ c, s.stage = 5 → let put := fun (x : Cluster) => ({ s with clusters := tset Cluster.reset s.clusters c x } : State)
      write (.debug c 0) (put { getCl s c with brk0 := v &&& 0x1FFFFFFFFF#64 }) ∧
      write (.debug c 1) (put { getCl s c with brk1 := v &&& 0x1FFFFFFFFF#64 }) ∧
      write (.debug c 2) (put { getCl s c with wpt := v }) ∧
      write (.debug c 3) (put { getCl s c with sstep := v &&& 0x3FF#64 })) ∧
    (s.stage = 5 →
      exec (.registerWrite (.half 0x2220 false) v) s = .next { s with
        errbase := (s.errbase &&& 0xFFFFFFFF00000000#64) ||| (v &&& 0xFFFFFFFF#64) } ∧
      exec (.registerWrite (.half 0x2220 true) v) s = .next { s with
        errbase := (s.errbase &&& 0xFFFFFFFF#64) ||| (v <<< 32) } ∧
      ∀ q, q < 32 → exec (.registerWrite (.half (64 * q + 16) false) v) s = exec (.qtail q (v.setWidth 32)) s ∧
        exec (.registerWrite (.half (64 * q + 16) true) v) s = .next s ∧
        exec (.registerWrite (.half (64 * q) true) v) s = .next s) ∧
    (∀ i hi, s.stage = 5 → ∃ t e, exec (.registerWrite (.msixTable i hi) v) s = .next t ∧
      t = { s with msixTab := s.msixTab.set i e, msixPend := t.msixPend } ∧
      t.msixPend = (if e.getLsbD 96 then s.msixPend else s.msixPend.filter (· != i)) ∧
      (hi = false → e.extractLsb' 64 64 = (s.msixTab.getD i 0).extractLsb' 64 64 ∧ e.extractLsb' 2 62 = v.extractLsb' 2 62) ∧
      (hi = true → e.extractLsb' 0 64 = (s.msixTab.getD i 0).extractLsb' 0 64 ∧ e.extractLsb' 64 33 = v.extractLsb' 0 33)) ∧
    (∀ q, s.stage = 5 → exec (.readClear (.qerr q)) s =
      .next { s with queues := tset Queue.reset s.queues q { getQ s q with errCause := 0, errCount := 0 } }) ∧
    (s.stage = 5 → exec (.readClear .herr) s = .next { s with sealw := 0, closed := 0 } ∧
      exec (.readClear .tstat) s = .next { s with stepped := false } ∧
      exec (.readClear .errstat) s = .next { s with errlost := 0 }) ∧
    (∀ r, s.stage ≠ 5 → (∀ u k, r ≠ .soft u k) → exec (.readClear r) s = .next s) ∧
    (∀ u k, exec (.readClear (.soft u k)) s = .next { s with soft := tset 0 s.soft (u * 8 + k) 0 }) ∧
    (∀ hi, s.stage = 5 →
      (s.accepted = true → exec (.accwWrite hi v) s = .next s) ∧
      (s.accepted = false → ∃ t, exec (.accwWrite hi v) s = .next t ∧ t = { s with accw := t.accw } ∧
        ∀ b, b < 128 → t.accw.getLsbD b =
          if decide (64 ≤ b) = hi then v.getLsbD (b % 64) && s.capw.getLsbD b else s.accw.getLsbD b)) ∧
    (∀ off size,
      let pa := s.bar2Win * 2 ^ 36 + off
      (s.bar2En = false → ∀ w, exec (.bar2Access w off size v) s = .next { s with closed := satInc s.closed 65535 }) ∧
      (s.bar2En = true → exec (.bar2Access false off size v) s = .next s ∧
        (inArea s pa = false → inArea s (pa + size - 1) = false → sealed s pa = true →
          exec (.bar2Access true off size v) s = .next { s with sealw := satInc s.sealw 65535 }) ∧
        (inArea s pa = false → inArea s (pa + size - 1) = false → sealed s pa = false → sealed s (pa + size - 1) = false →
          s.memBad = [] → s.cacheBad = [] → ∃ t, exec (.bar2Access true off size v) s = .next t ∧
            t = { s with mem := wrBytes s.mem pa n size, hist := t.hist }))) ∧
    (∀ i, s.stage = 5 → (getCtx s i).en = false → v.getLsbD 6 = false →
      let d := { getCtx s i with part := n / 2 % 16 }
      (ctxOk s d = false → exec (.contextEnable i v) s = .next { s with ctxs := tset Ctx.reset s.ctxs i { d with bad := true } }) ∧
      (ctxOk s d = true → i < 64 → Memory.wf s.mem = true → ∃ t, exec (.contextEnable i v) s = .next t ∧
        getCtx t i = { d with en := true, bad := false } ∧
        (∀ a, a < d.hbase ∨ d.hbase + 2 ^ 20 ≤ a → rdByte t.mem a = rdByte s.mem a) ∧
        (∀ h, h < 2 → (getDesc t i h).valid = true ∧ (getDesc t i h).base = (descAt s d h).base ∧
          (axisAt (getDesc t i h) 0).owner = none ∧
          (axisAt (getDesc t i h) 0).wcount = (axisAt (descAt s d h) 0).count) ∧
        ∀ h, 2 ≤ h → h < 4096 → (getDesc t i h).valid = false)) ∧
    (∀ i, s.stage = 5 → 
      let y := if ctxBusy s i then { getCtx s i with refused := true } else { getCtx s i with en := false }
      exec (.contextDisable i) s = .next { s with ctxs := tset Ctx.reset s.ctxs i y }) ∧
    (∀ p j, s.stage ≠ 5 → exec (.pmemWrite p j v) s = .next { s with closed := satInc s.closed 65535 }) ∧
    (∀ p j, s.stage = 5 →
      let m := n % 2 ^ 21
      let clash := ∃ q r, q < 16 ∧ q ≠ p ∧ r ∈ (getPart s q).pmem ∧ pmemClash m r.toNat = true
      (m / 2 ^ 10 % 2 ^ 10 < m % 2 ^ 10 ∨ clash → exec (.pmemWrite p j v) s = .next s) ∧
      (m % 2 ^ 10 ≤ m / 2 ^ 10 % 2 ^ 10 → ¬ clash →
        let y := { getPart s p with pmem := (getPart s p).pmem.set j (BitVec.ofNat 64 m) }
        exec (.pmemWrite p j v) s = .next { s with parts := tset Part.reset s.parts p y })) ∧
    (s.stage = 5 → exec .attestationGo s = .next { s with attBusy := true }) ∧
    (s.attBusy = false → exec .attestationDone s = .next s) ∧
    (s.attBusy = true → ∃ t, exec .attestationDone s = .next t ∧ t.attBusy = false ∧ t.attDone = true ∧ 32 ∈ t.msix ∧
      t.report = reportBody s ++ (List.range 4627).map (Config.attSign (reportBody s))) ∧
    (∀ ahead ns, (ns ≤ 1000 → exec (.timeCorrection ahead ns) s = .next { s with locked := true }) ∧
      (1000 < ns →
        let u := if ahead then s.timens - BitVec.ofNat 64 ns else s.timens + BitVec.ofNat 64 ns
        exec (.timeCorrection ahead ns) s = .next { s with
          locked := true, stepped := true, timens := u
          tt := s.tt.map fun x => (x.1, rebase { s with timens := u } x.2) })) ∧
    (∃ t, exec .statisticsSample s = .next t ∧ t = { s with stats := t.stats, soft := [] } ∧
      ∀ i, i < 4 → t.stats[i]? = some (s.stats.getD i 0 + BitVec.ofNat 64 (softSum s i))) ∧
    (∀ kind unit pa, kind = 0x1F4 ∨ kind = 0x1F5 → ∃ t, exec (.errorRecord kind unit pa) s = .next t ∧
      t.memBad = s.memBad ++ [pa / 4] ∧ t.mem = s.mem ∧
      ((s.errtail - errHead s).toNat < errSize s →
        t.errtail = s.errtail + 1 ∧ 32 ∈ t.msix ∧ t.errlost = s.errlost ∧
        t.hostMem = wrBytes s.hostMem (s.errbase.toNat + 32 * (s.errtail.toNat % errSize s))
          (kind % 2 ^ 16 + memSlice pa % 2 ^ 16 * 2 ^ 16 + pa % 2 ^ 64 * 2 ^ 64 + s.timens.toNat * 2 ^ 128) 32) ∧
      (errSize s ≤ (s.errtail - errHead s).toNat → t.errlost = satInc s.errlost 4095 ∧ t.hostMem = s.hostMem ∧
        t.errtail = s.errtail)) ∧
    (∀ c, (getCl s c).single = [] → exec (.scrub c) s = .next s) ∧
    (∀ c u, (getCl s c).single = [u] → (getCl s c).passes = [] →
      exec (.scrub c) s = .next (softInc (setCl s c { getCl s c with single := [] }) 1 c 0)) ∧
    (∀ c b, exec (.lpddr6Refresh c b) s = .next s) ∧
    (∀ o z, s.stage ≠ 5 → o / 8 * 8 ≠ 0x2200 → hostRead s o z = some 0)
/-- 26 R421, R422, 27 R432, R433: power-good and resets boot to stage 5 with memory zero, whatever stood before, or fail
with a code, as the event or the environment's list says (log 51); a function-level reset of a part whose boot steps 1 to 3
have not completed leaves it closed; without power only power-good has an effect; a hot die is reported and trips. Host and
peer memory stay. -/
def Obligations.ResetEvents : Prop :=
  ∀ (s : State),
    (∀ i, i = .powerGood 0 ∨ (bootEnd true s = 0 ∧ i = .conventionalReset) ∨
        (bootEnd false s = 0 ∧ i = .functionLevelReset ∧ manifestStands s = true) →
      ∃ t, exec i s = .next t ∧ t.stage = 5 ∧ t.fcode = 0 ∧ t.power = true ∧ t.mem = [] ∧ t.slices = [] ∧
        t.hostMem = s.hostMem ∧ t.peerMem = s.peerMem ∧ t.fibs = [] ∧ t.warps = [] ∧ t.wgs = [] ∧ t.launches = [] ∧
        t.comps = [] ∧ t.queues = [] ∧ t.ctxs = [] ∧ t.cur = .none ∧ t.accw = 0#128 ∧ t.accepted = false ∧
        32 ∈ t.msix ∧ t.capw = Config.capw &&& 0x1FFFFF#128 ∧ t.revId = 0xA1#8 ∧ t.devid = Config.devid) ∧
    (∀ i (code : Fin 8), code ≠ 0 →
      i = .powerGood code ∨
        (bootEnd true s = code.val ∧ i = .conventionalReset) ∨
        (bootEnd false s = code.val ∧ i = .functionLevelReset ∧ manifestStands s = true) →
      ∃ t, exec i s = .next t ∧ t.stage = 7 ∧ t.fcode = code.val ∧ t.launches = [] ∧ t.mem = [] ∧ t.hostMem = s.hostMem) ∧
    (manifestStands s = false → ∃ t, exec .functionLevelReset s = .next t ∧ t.stage = s.stage ∧ t.fcode = s.fcode ∧
      t.launches = [] ∧ t.mem = [] ∧ t.hostMem = s.hostMem ∧ t.peerMem = s.peerMem) ∧
    (∀ code r, s.bootEnds = code :: r → bootEnd true s = code.val ∧ bootEnd false s = if 6 ≤ code.val then code.val else 0) ∧
    (s.bootEnds = [] → bootEnd true s = 0 ∧ bootEnd false s = 0) ∧
    (manifestStands s = false ↔ s.stage = 0 ∨ (s.stage = 7 ∧ 1 ≤ s.fcode ∧ s.fcode ≤ 5)) ∧
    (∃ t, exec .powerLoss s = .next t ∧ t.power = false ∧ t.mem = [] ∧ t.hostMem = s.hostMem ∧ t.launches = []) ∧
    (s.power = false → s.evq.find? isPower = none → step s = .fault .noPower) ∧
    (∀ code, s.power = false → s.evq.find? isPower = some (.env (.powerGood code)) →
      step s = exec (.powerGood code) { s with evq := s.evq.erase (.env (.powerGood code)) }) ∧
    (∀ die c, c ≤ 100 → 95 ≤ c → exec (.thermalReport die c) s = .next s) ∧
    (∀ die c, c < 95 → exec (.thermalReport die c) s = .next { s with hot := s.hot.filter (· != die) }) ∧
    (∀ die c, 100 < c → s.hot.contains die = false →
      ∃ t, exec (.thermalReport die c) s = .next t ∧ t.hot = s.hot ++ [die] ∧
        t.thermTrip = (s.thermTrip || decide (115 < c)) ∧
        ((s.errtail - errHead s).toNat < errSize s → t.errtail = s.errtail + 1 ∧ 32 ∈ t.msix))

/-! The machine as a whole. -/

/-- 26 Table 26.2, 00 R6, 22 Table 22.2, 21 Table 21.2, 14 R258, 12 R218, 06 R104: what reset leaves: boot stage 0, no
fibre, warp, launch or queue entry, memories that read zero, invalid latches, the reset fields of the maps. -/
def Obligations.ResetState : Prop :=
  let s := State.reset
  s.stage = 0 ∧ s.fcode = 0 ∧ s.devid = 0#20 ∧ s.accw = 0#128 ∧ s.hostEn = false ∧ s.hostLg = 12 ∧ s.bar2En = false ∧
  s.sealw = 0 ∧ s.closed = 0 ∧ MemoriesWf s ∧ (∀ j a, j < 4 → rdByte (memOf s j) a = 0#8) ∧
  (∀ k, (getF s k).st = .absent) ∧ (∀ k, (getW s k).live = false) ∧ (∀ k, (getL s k).live = false) ∧
  (∀ q, (getQ s q).qctl = 0x80#64 ∧ (getQ s q).errCause = 0 ∧ (getQ s q).tail = 0#32) ∧
  (∀ p, (getPart s p).wdlg = 20 ∧ (getPart s p).pre = 0) ∧ (∀ c, (getCl s c).lastReq = 7) ∧
  (∀ b ∈ Fibre.none.b, b.valid = false)
/-- The canonical form of every memory (addresses rising, no listed zero: 12 R218), which the model chose as the form of
its data (log 9), is kept by every instruction and event, and by every step. -/
def Obligations.StepKeepsMemories : Prop :=
  (∀ (i : Instr) (s t : State), MemoriesWf s → exec i s = .next t → MemoriesWf t) ∧
  (∀ (s t : State), MemoriesWf s → step s = .next t → MemoriesWf t)
end

