-- ==== Sys2Proof/Laws/Encoding.lean ====
section
/-! SUPPORT. The fields of the words that `encode` lays out (04 Table 4.3), and the codes of operands read back. -/

namespace Sys2Proof

set_option Elab.async false

theorem bit_lt (b : Bool) : bit b < 2 := by cases b <;> decide
theorem bit_eq_one (b : Bool) : (bit b == 1) = b := by cases b <;> rfl

/-- The common bits of a word around its body of 24 bits. -/
theorem wordFrom_common {maj body : Nat} (p : Pfx) (hm : maj < 64) (hb : body < 2 ^ 24) :
    wordFrom p maj body < 2 ^ 32 ∧ fld (wordFrom p maj body) 31 1 = bit p.c ∧
      fld (wordFrom p maj body) 30 1 = bit p.y ∧ fld (wordFrom p maj body) 24 6 = maj := by
  have := bit_lt p.c
  have := bit_lt p.y
  simp only [fld, wordFrom]
  refine ⟨?_, ?_, ?_, ?_⟩ <;> omega

/-- A field inside the body. -/
theorem wordFrom_body {maj body lo n : Nat} (p : Pfx) (hl : lo + n ≤ 24) :
    fld (wordFrom p maj body) lo n = fld body lo n := by
  obtain ⟨k, hk⟩ := Nat.le.dest hl
  have h24 : (2 : Nat) ^ 24 = 2 ^ lo * (2 ^ n * 2 ^ k) := by
    rw [← Nat.pow_add, ← Nat.pow_add, ← Nat.add_assoc, hk]
  have e : wordFrom p maj body = body + 2 ^ lo * (2 ^ n * (2 ^ k * (bit p.c * 128 + bit p.y * 64 + maj))) := by
    have : wordFrom p maj body = body + 2 ^ 24 * (bit p.c * 128 + bit p.y * 64 + maj) := by
      simp only [wordFrom]; omega
    rw [this, h24]
    simp only [Nat.mul_assoc]
  simp only [fld, e]
  rw [Nat.add_mul_div_left _ _ (Nat.two_pow_pos lo), Nat.add_mul_mod_self_left]

theorem Dst.code_lt (d : Dst) : d.code < 64 := by cases d <;> simp only [Dst.code] <;> omega
theorem Src.code_lt (a : Src) : a.code < 64 := by cases a <;> simp only [Src.code] <;> omega
theorem PSrc.code_lt (a : PSrc) : a.code < 64 := by cases a <;> simp only [PSrc.code] <;> omega
theorem Cond.code_lt (k : Cond) : k.code < 16 := by cases k <;> simp only [Cond.code] <;> omega
theorem Rnd.code_lt (r : Rnd) : r.code < 8 := by cases r <;> decide
theorem IType.code_lt (t : IType) : t.code < 8 := by cases t <;> decide
theorem CmpOp.code_lt (t : CmpOp) : t.code < 8 := by cases t <;> decide
theorem HType.code_lt (t : HType) : t.code < 2 := by cases t <;> decide
theorem redCode_lt (o : Machine.RedOp) : redCode o < 8 := by cases o <;> decide
theorem topCode_lt (o : Machine.TopOp) : topCode o < 8 := by cases o <;> decide
theorem MOrd.code_lt (o : MOrd) : o.code < 4 := by cases o <;> decide
theorem Scope.code_lt (o : Scope) : o.code < 4 := by cases o <;> decide
theorem LdSize.code_lt (o : LdSize) : o.code < 8 := by cases o <;> decide
theorem StSize.code_lt (o : StSize) : o.code < 8 := by cases o <;> decide
theorem KSize.code_lt (o : KSize) : o.code < 4 := by cases o <;> decide
theorem SSize.code_lt (o : SSize) : o.code < 4 := by cases o <;> decide
theorem ASize.code_lt (o : ASize) : o.code < 8 := by cases o <;> decide
theorem Side.code_lt (o : Side) : o.code < 2 := by cases o <;> decide

theorem ofNat_val {n : Nat} [NeZero n] (x : Fin n) : Fin.ofNat n x.val = x := by simp

@[simp] theorem dstOf_code (d : Dst) : dstOf d.code = some d := by
  cases d with
  | n j => revert j; decide
  | st i => revert i; decide
  | q => rfl
  | none => rfl
@[simp] theorem srcOf_code (a : Src) : srcOf a.code = some a := by
  cases a with
  | n j => revert j; decide
  | q i => revert i; decide
  | b i => revert i; decide
  | st i => revert i; decide
  | k i => revert i; decide
  | z => rfl
  | lane => rfl
  | fid => rfl
@[simp] theorem psrcOf_code (a : PSrc) : psrcOf a.code = some a := by
  cases a with
  | n j => revert j; decide
  | k i => revert i; decide
@[simp] theorem nOf_val (j : NReg) : nOf j.val = some j := by revert j; decide
@[simp] theorem kOf_val (j : KReg) : kOf j.val = some j := by revert j; decide
@[simp] theorem mOf_val (j : MReg) : mOf j.val = some j := by revert j; decide
@[simp] theorem zOf_code : zOf 60 = some () := rfl
@[simp] theorem condOf_code (k : Cond) : condOf k.code = some k := by
  cases k with
  | eod s => revert s; decide
  | neod s => revert s; decide
  | al => rfl
  | kt => rfl
  | kf => rfl
  | any => rfl
  | all => rfl
  | none => rfl
@[simp] theorem rndOf_code (r : Rnd) : rndOf r.code = some r := by cases r <;> rfl
@[simp] theorem itypeOf_code (t : IType) : itypeOf t.code = some t := by cases t <;> rfl
@[simp] theorem cmpOf_code (t : CmpOp) : cmpOf t.code = some t := by cases t <;> rfl
@[simp] theorem redOf_code (o : Machine.RedOp) : redOf (redCode o) = o := by cases o <;> rfl
@[simp] theorem topOf_code (o : Machine.TopOp) : topOf (topCode o) = some o := by cases o <;> rfl
@[simp] theorem ordOf_code (o : MOrd) : ordOf o.code = o := by cases o <;> rfl
@[simp] theorem scopeOf_code (o : Scope) : scopeOf o.code = o := by cases o <;> rfl
@[simp] theorem ldSizeOf_code (o : LdSize) : ldSizeOf o.code = some o := by cases o <;> rfl
@[simp] theorem stSizeOf_code (o : StSize) : stSizeOf o.code = some o := by cases o <;> rfl
@[simp] theorem kSizeOf_code (o : KSize) : kSizeOf o.code = o := by cases o <;> rfl
@[simp] theorem sSizeOf_code (o : SSize) : sSizeOf o.code = o := by cases o <;> rfl
@[simp] theorem aSizeOf_code (o : ASize) : aSizeOf o.code = some o := by cases o <;> rfl
@[simp] theorem sideOf_code (o : Side) : sideOf o.code = o := by cases o <;> rfl

/-- What a word of `vr` holds. -/
def IsVr (p : Pfx) (maj d a b sub mod w : Nat) : Prop :=
  w < 2 ^ 32 ∧ fld w 31 1 = bit p.c ∧ fld w 30 1 = bit p.y ∧ fld w 24 6 = maj ∧
    fld w 18 6 = d ∧
    fld w 12 6 = a ∧
    fld w 6 6 = b ∧
    fld w 3 3 = sub ∧
    fld w 0 3 = mod ∧
    fld w 3 2 = sub % 4 ∧
    fld w 5 1 = sub / 4 ∧
    fld w 0 6 = sub * 8 + mod
/-- A word of `vr` holds its fields. -/
theorem vr_is (p : Pfx) {maj d a b sub mod : Nat} (hm : maj < 64) (h0 : d < 64) (h1 : a < 64) (h2 : b < 64) (h3 : sub < 8) (h4 : mod < 8) : IsVr p maj d a b sub mod (vr p maj d a b sub mod) := by
  unfold vr
  obtain ⟨c0, c1, c2, c3⟩ := wordFrom_common (maj := maj) (body := d * 2 ^ 18 + a * 2 ^ 12 + b * 2 ^ 6 + sub * 2 ^ 3 + mod) p hm (by omega)
  refine ⟨c0, c1, c2, c3, ?_, ?_, ?_, ?_, ?_, ?_, ?_, ?_⟩ <;>
    (rw [wordFrom_body p (by decide)]; simp only [fld]; omega)

/-- What a word of `vf` holds. -/
def IsVf (p : Pfx) (maj d a b c w : Nat) : Prop :=
  w < 2 ^ 32 ∧ fld w 31 1 = bit p.c ∧ fld w 30 1 = bit p.y ∧ fld w 24 6 = maj ∧
    fld w 18 6 = d ∧
    fld w 12 6 = a ∧
    fld w 6 6 = b ∧
    fld w 0 6 = c ∧
    fld w 0 5 = c % 32 ∧
    fld w 5 1 = c / 32 ∧
    fld w 0 4 = c % 16 ∧
    fld w 4 2 = c / 16
/-- A word of `vf` holds its fields. -/
theorem vf_is (p : Pfx) {maj d a b c : Nat} (hm : maj < 64) (h0 : d < 64) (h1 : a < 64) (h2 : b < 64) (h3 : c < 64) : IsVf p maj d a b c (vf p maj d a b c) := by
  unfold vf
  obtain ⟨c0, c1, c2, c3⟩ := wordFrom_common (maj := maj) (body := d * 2 ^ 18 + a * 2 ^ 12 + b * 2 ^ 6 + c) p hm (by omega)
  refine ⟨c0, c1, c2, c3, ?_, ?_, ?_, ?_, ?_, ?_, ?_, ?_⟩ <;>
    (rw [wordFrom_body p (by decide)]; simp only [fld]; omega)

/-- What a word of `vi` holds. -/
def IsVi (p : Pfx) (maj d a sub imm w : Nat) : Prop :=
  w < 2 ^ 32 ∧ fld w 31 1 = bit p.c ∧ fld w 30 1 = bit p.y ∧ fld w 24 6 = maj ∧
    fld w 18 6 = d ∧
    fld w 12 6 = a ∧
    fld w 9 3 = sub ∧
    fld w 0 9 = imm
/-- A word of `vi` holds its fields. -/
theorem vi_is (p : Pfx) {maj d a sub imm : Nat} (hm : maj < 64) (h0 : d < 64) (h1 : a < 64) (h2 : sub < 8) (h3 : imm < 512) : IsVi p maj d a sub imm (vi p maj d a sub imm) := by
  unfold vi
  obtain ⟨c0, c1, c2, c3⟩ := wordFrom_common (maj := maj) (body := d * 2 ^ 18 + a * 2 ^ 12 + sub * 2 ^ 9 + imm) p hm (by omega)
  refine ⟨c0, c1, c2, c3, ?_, ?_, ?_, ?_⟩ <;>
    (rw [wordFrom_body p (by decide)]; simp only [fld]; omega)

/-- What a word of `br` holds. -/
def IsBr (p : Pfx) (maj k off w : Nat) : Prop :=
  w < 2 ^ 32 ∧ fld w 31 1 = bit p.c ∧ fld w 30 1 = bit p.y ∧ fld w 24 6 = maj ∧
    fld w 20 4 = k ∧
    fld w 0 20 = off ∧
    fld w 4 16 = off / 16 ∧
    fld w 6 14 = off / 64 ∧
    fld w 4 2 = off / 16 % 4 ∧
    fld w 2 2 = off / 4 % 4 ∧
    fld w 0 2 = off % 4 ∧
    fld w 0 4 = off % 16
/-- A word of `br` holds its fields. -/
theorem br_is (p : Pfx) {maj k off : Nat} (hm : maj < 64) (h0 : k < 16) (h1 : off < 2 ^ 20) : IsBr p maj k off (br p maj k off) := by
  unfold br
  obtain ⟨c0, c1, c2, c3⟩ := wordFrom_common (maj := maj) (body := k * 2 ^ 20 + off) p hm (by omega)
  refine ⟨c0, c1, c2, c3, ?_, ?_, ?_, ?_, ?_, ?_, ?_, ?_⟩ <;>
    (rw [wordFrom_body p (by decide)]; simp only [fld]; omega)

/-- What a word of `mem` holds. -/
def IsMem (p : Pfx) (maj d a size off ord sc w : Nat) : Prop :=
  w < 2 ^ 32 ∧ fld w 31 1 = bit p.c ∧ fld w 30 1 = bit p.y ∧ fld w 24 6 = maj ∧
    fld w 18 6 = d ∧
    fld w 12 6 = a ∧
    fld w 9 3 = size ∧
    fld w 9 2 = size % 4 ∧
    fld w 11 1 = size / 4 ∧
    fld w 4 5 = off ∧
    fld w 2 2 = ord ∧
    fld w 0 2 = sc
/-- A word of `mem` holds its fields. -/
theorem mem_is (p : Pfx) {maj d a size off ord sc : Nat} (hm : maj < 64) (h0 : d < 64) (h1 : a < 64) (h2 : size < 8) (h3 : off < 32) (h4 : ord < 4) (h5 : sc < 4) : IsMem p maj d a size off ord sc (mem p maj d a size off ord sc) := by
  unfold mem
  obtain ⟨c0, c1, c2, c3⟩ := wordFrom_common (maj := maj) (body := d * 2 ^ 18 + a * 2 ^ 12 + size * 2 ^ 9 + off * 2 ^ 4 + ord * 2 ^ 2 + sc) p hm (by omega)
  refine ⟨c0, c1, c2, c3, ?_, ?_, ?_, ?_, ?_, ?_, ?_, ?_⟩ <;>
    (rw [wordFrom_body p (by decide)]; simp only [fld]; omega)

/-- What a word of `sys` holds. -/
def IsSys (p : Pfx) (maj x y sub imm w : Nat) : Prop :=
  w < 2 ^ 32 ∧ fld w 31 1 = bit p.c ∧ fld w 30 1 = bit p.y ∧ fld w 24 6 = maj ∧
    fld w 18 6 = x ∧
    fld w 12 6 = y ∧
    fld w 12 12 = x * 64 + y ∧
    fld w 8 4 = sub ∧
    fld w 0 8 = imm ∧
    fld w 0 3 = imm % 8 ∧
    fld w 0 2 = imm % 4 ∧
    fld w 2 2 = imm / 4 % 4 ∧
    fld w 0 4 = imm % 16
/-- A word of `sys` holds its fields. -/
theorem sys_is (p : Pfx) {maj x y sub imm : Nat} (hm : maj < 64) (h0 : x < 64) (h1 : y < 64) (h2 : sub < 16) (h3 : imm < 256) : IsSys p maj x y sub imm (sys p maj x y sub imm) := by
  unfold sys
  obtain ⟨c0, c1, c2, c3⟩ := wordFrom_common (maj := maj) (body := x * 2 ^ 18 + y * 2 ^ 12 + sub * 2 ^ 8 + imm) p hm (by omega)
  refine ⟨c0, c1, c2, c3, ?_, ?_, ?_, ?_, ?_, ?_, ?_, ?_, ?_⟩ <;>
    (rw [wordFrom_body p (by decide)]; simp only [fld]; omega)

/-- What a word of `mx` holds. -/
def IsMx (p : Pfx) (maj sub ka kb an side kk fl w : Nat) : Prop :=
  w < 2 ^ 32 ∧ fld w 31 1 = bit p.c ∧ fld w 30 1 = bit p.y ∧ fld w 24 6 = maj ∧
    fld w 21 3 = sub ∧
    fld w 17 4 = ka ∧
    fld w 13 4 = kb ∧
    fld w 11 2 = an ∧
    fld w 10 1 = side ∧
    fld w 5 5 = kk ∧
    fld w 4 1 = fl ∧
    fld w 0 4 = 0 ∧
    fld w 0 5 = fl * 16 ∧
    fld w 0 11 = side * 1024 + kk * 32 + fl * 16 ∧
    fld w 13 8 = ka * 16 + kb
/-- A word of `mx` holds its fields. -/
theorem mx_is (p : Pfx) {maj sub ka kb an side kk fl : Nat} (hm : maj < 64) (h0 : sub < 8) (h1 : ka < 16) (h2 : kb < 16) (h3 : an < 4) (h4 : side < 2) (h5 : kk < 32) (h6 : fl < 2) : IsMx p maj sub ka kb an side kk fl (mx p maj sub ka kb an side kk fl) := by
  unfold mx
  obtain ⟨c0, c1, c2, c3⟩ := wordFrom_common (maj := maj) (body := sub * 2 ^ 21 + ka * 2 ^ 17 + kb * 2 ^ 13 + an * 2 ^ 11 + side * 2 ^ 10 + kk * 2 ^ 5 + fl * 2 ^ 4) p hm (by omega)
  refine ⟨c0, c1, c2, c3, ?_, ?_, ?_, ?_, ?_, ?_, ?_, ?_, ?_, ?_, ?_⟩ <;>
    (rw [wordFrom_body p (by decide)]; simp only [fld]; omega)

/-- A word that decodes raw to a well-formed instruction decodes to it. -/
theorem decode_of_raw {w : Nat} {i : Instr} (hw : i.wf = true) (h : decodeRaw w = .ok i) : decode w = .ok i := by
  simp only [decode, h, hw, if_true]

theorem decodeRaw_00 {w : Nat} (p : Pfx) (h1 : fld w 31 1 = bit p.c) (h2 : fld w 30 1 = bit p.y)
    (h : fld w 24 6 = 0) : decodeRaw w = dec00 p w := by
  simp only [decodeRaw, h1, h2, h, bit_eq_one]
theorem decodeRaw_01 {w : Nat} (p : Pfx) (h1 : fld w 31 1 = bit p.c) (h2 : fld w 30 1 = bit p.y)
    (h : fld w 24 6 = 1) : decodeRaw w = dec01 p w := by
  simp only [decodeRaw, h1, h2, h, bit_eq_one]
theorem decodeRaw_02 {w : Nat} (p : Pfx) (h1 : fld w 31 1 = bit p.c) (h2 : fld w 30 1 = bit p.y)
    (h : fld w 24 6 = 2) : decodeRaw w = dec02 p w := by
  simp only [decodeRaw, h1, h2, h, bit_eq_one]
theorem decodeRaw_03 {w : Nat} (p : Pfx) (h1 : fld w 31 1 = bit p.c) (h2 : fld w 30 1 = bit p.y)
    (h : fld w 24 6 = 3) : decodeRaw w = dec03 p w := by
  simp only [decodeRaw, h1, h2, h, bit_eq_one]
theorem decodeRaw_04 {w : Nat} (p : Pfx) (h1 : fld w 31 1 = bit p.c) (h2 : fld w 30 1 = bit p.y)
    (h : fld w 24 6 = 4) : decodeRaw w = dec04 p w := by
  simp only [decodeRaw, h1, h2, h, bit_eq_one]
theorem decodeRaw_05 {w : Nat} (p : Pfx) (h1 : fld w 31 1 = bit p.c) (h2 : fld w 30 1 = bit p.y)
    (h : fld w 24 6 = 5) : decodeRaw w = dec05 p w := by
  simp only [decodeRaw, h1, h2, h, bit_eq_one]
theorem decodeRaw_06 {w : Nat} (p : Pfx) (h1 : fld w 31 1 = bit p.c) (h2 : fld w 30 1 = bit p.y)
    (h : fld w 24 6 = 6) : decodeRaw w = dec06 p w := by
  simp only [decodeRaw, h1, h2, h, bit_eq_one]
theorem decodeRaw_07 {w : Nat} (p : Pfx) (h1 : fld w 31 1 = bit p.c) (h2 : fld w 30 1 = bit p.y)
    (h : fld w 24 6 = 7) : decodeRaw w = dec07 p w := by
  simp only [decodeRaw, h1, h2, h, bit_eq_one]
theorem decodeRaw_08 {w : Nat} (p : Pfx) (h1 : fld w 31 1 = bit p.c) (h2 : fld w 30 1 = bit p.y)
    (h : fld w 24 6 = 8) : decodeRaw w = dec08 p w := by
  simp only [decodeRaw, h1, h2, h, bit_eq_one]
theorem decodeRaw_09 {w : Nat} (p : Pfx) (h1 : fld w 31 1 = bit p.c) (h2 : fld w 30 1 = bit p.y)
    (h : fld w 24 6 = 9) : decodeRaw w = dec09 p w := by
  simp only [decodeRaw, h1, h2, h, bit_eq_one]
theorem decodeRaw_0A {w : Nat} (p : Pfx) (h1 : fld w 31 1 = bit p.c) (h2 : fld w 30 1 = bit p.y)
    (h : fld w 24 6 = 10) : decodeRaw w = dec0A p w := by
  simp only [decodeRaw, h1, h2, h, bit_eq_one]
theorem decodeRaw_0B {w : Nat} (p : Pfx) (h1 : fld w 31 1 = bit p.c) (h2 : fld w 30 1 = bit p.y)
    (h : fld w 24 6 = 11) : decodeRaw w = dec0B p w := by
  simp only [decodeRaw, h1, h2, h, bit_eq_one]
theorem decodeRaw_10 {w : Nat} (p : Pfx) (h1 : fld w 31 1 = bit p.c) (h2 : fld w 30 1 = bit p.y)
    (h : fld w 24 6 = 16) : decodeRaw w = dec10 p w := by
  simp only [decodeRaw, h1, h2, h, bit_eq_one]
theorem decodeRaw_11 {w : Nat} (p : Pfx) (h1 : fld w 31 1 = bit p.c) (h2 : fld w 30 1 = bit p.y)
    (h : fld w 24 6 = 17) : decodeRaw w = dec11 p w := by
  simp only [decodeRaw, h1, h2, h, bit_eq_one]
theorem decodeRaw_12 {w : Nat} (p : Pfx) (h1 : fld w 31 1 = bit p.c) (h2 : fld w 30 1 = bit p.y)
    (h : fld w 24 6 = 18) : decodeRaw w = dec12 p w := by
  simp only [decodeRaw, h1, h2, h, bit_eq_one]
theorem decodeRaw_13 {w : Nat} (p : Pfx) (h1 : fld w 31 1 = bit p.c) (h2 : fld w 30 1 = bit p.y)
    (h : fld w 24 6 = 19) : decodeRaw w = dec13 p w := by
  simp only [decodeRaw, h1, h2, h, bit_eq_one]
theorem decodeRaw_14 {w : Nat} (p : Pfx) (h1 : fld w 31 1 = bit p.c) (h2 : fld w 30 1 = bit p.y)
    (h : fld w 24 6 = 20) : decodeRaw w = dec14 p w := by
  simp only [decodeRaw, h1, h2, h, bit_eq_one]
theorem decodeRaw_15 {w : Nat} (p : Pfx) (h1 : fld w 31 1 = bit p.c) (h2 : fld w 30 1 = bit p.y)
    (h : fld w 24 6 = 21) : decodeRaw w = dec15 p w := by
  simp only [decodeRaw, h1, h2, h, bit_eq_one]
theorem decodeRaw_16 {w : Nat} (p : Pfx) (h1 : fld w 31 1 = bit p.c) (h2 : fld w 30 1 = bit p.y)
    (h : fld w 24 6 = 22) : decodeRaw w = dec16 p w := by
  simp only [decodeRaw, h1, h2, h, bit_eq_one]
theorem decodeRaw_17 {w : Nat} (p : Pfx) (h1 : fld w 31 1 = bit p.c) (h2 : fld w 30 1 = bit p.y)
    (h : fld w 24 6 = 23) : decodeRaw w = dec17 p w := by
  simp only [decodeRaw, h1, h2, h, bit_eq_one]
theorem decodeRaw_18 {w : Nat} (p : Pfx) (h1 : fld w 31 1 = bit p.c) (h2 : fld w 30 1 = bit p.y)
    (h : fld w 24 6 = 24) : decodeRaw w = dec18 p w := by
  simp only [decodeRaw, h1, h2, h, bit_eq_one]
theorem decodeRaw_19 {w : Nat} (p : Pfx) (h1 : fld w 31 1 = bit p.c) (h2 : fld w 30 1 = bit p.y)
    (h : fld w 24 6 = 25) : decodeRaw w = dec19 p w := by
  simp only [decodeRaw, h1, h2, h, bit_eq_one]
theorem decodeRaw_1A {w : Nat} (p : Pfx) (h1 : fld w 31 1 = bit p.c) (h2 : fld w 30 1 = bit p.y)
    (h : fld w 24 6 = 26) : decodeRaw w = dec1A p w := by
  simp only [decodeRaw, h1, h2, h, bit_eq_one]
theorem decodeRaw_1B {w : Nat} (p : Pfx) (h1 : fld w 31 1 = bit p.c) (h2 : fld w 30 1 = bit p.y)
    (h : fld w 24 6 = 27) : decodeRaw w = dec1B p w := by
  simp only [decodeRaw, h1, h2, h, bit_eq_one]
theorem decodeRaw_1C {w : Nat} (p : Pfx) (h1 : fld w 31 1 = bit p.c) (h2 : fld w 30 1 = bit p.y)
    (h : fld w 24 6 = 28) : decodeRaw w = dec1C p w := by
  simp only [decodeRaw, h1, h2, h, bit_eq_one]
theorem decodeRaw_1D {w : Nat} (p : Pfx) (h1 : fld w 31 1 = bit p.c) (h2 : fld w 30 1 = bit p.y)
    (h : fld w 24 6 = 29) : decodeRaw w = dec1D p w := by
  simp only [decodeRaw, h1, h2, h, bit_eq_one]
theorem decodeRaw_1E {w : Nat} (p : Pfx) (h1 : fld w 31 1 = bit p.c) (h2 : fld w 30 1 = bit p.y)
    (h : fld w 24 6 = 30) : decodeRaw w = dec1E p w := by
  simp only [decodeRaw, h1, h2, h, bit_eq_one]
theorem decodeRaw_1F {w : Nat} (p : Pfx) (h1 : fld w 31 1 = bit p.c) (h2 : fld w 30 1 = bit p.y)
    (h : fld w 24 6 = 31) : decodeRaw w = dec1F p w := by
  simp only [decodeRaw, h1, h2, h, bit_eq_one]
theorem decodeRaw_20 {w : Nat} (p : Pfx) (h1 : fld w 31 1 = bit p.c) (h2 : fld w 30 1 = bit p.y)
    (h : fld w 24 6 = 32) : decodeRaw w = dec20 p w := by
  simp only [decodeRaw, h1, h2, h, bit_eq_one]
theorem decodeRaw_21 {w : Nat} (p : Pfx) (h1 : fld w 31 1 = bit p.c) (h2 : fld w 30 1 = bit p.y)
    (h : fld w 24 6 = 33) : decodeRaw w = dec21 p w := by
  simp only [decodeRaw, h1, h2, h, bit_eq_one]
theorem decodeRaw_30 {w : Nat} (p : Pfx) (h1 : fld w 31 1 = bit p.c) (h2 : fld w 30 1 = bit p.y)
    (h : fld w 24 6 = 48) : decodeRaw w = dec30 p w := by
  simp only [decodeRaw, h1, h2, h, bit_eq_one]
theorem decodeRaw_31 {w : Nat} (p : Pfx) (h1 : fld w 31 1 = bit p.c) (h2 : fld w 30 1 = bit p.y)
    (h : fld w 24 6 = 49) : decodeRaw w = dec31 p w := by
  simp only [decodeRaw, h1, h2, h, bit_eq_one]
theorem decodeRaw_32 {w : Nat} (p : Pfx) (h1 : fld w 31 1 = bit p.c) (h2 : fld w 30 1 = bit p.y)
    (h : fld w 24 6 = 50) : decodeRaw w = dec32 p w := by
  simp only [decodeRaw, h1, h2, h, bit_eq_one]
theorem decodeRaw_33 {w : Nat} (p : Pfx) (h1 : fld w 31 1 = bit p.c) (h2 : fld w 30 1 = bit p.y)
    (h : fld w 24 6 = 51) : decodeRaw w = dec33 p w := by
  simp only [decodeRaw, h1, h2, h, bit_eq_one]
theorem decodeRaw_34 {w : Nat} (p : Pfx) (h1 : fld w 31 1 = bit p.c) (h2 : fld w 30 1 = bit p.y)
    (h : fld w 24 6 = 52) : decodeRaw w = dec34 p w := by
  simp only [decodeRaw, h1, h2, h, bit_eq_one]
theorem decodeRaw_35 {w : Nat} (p : Pfx) (h1 : fld w 31 1 = bit p.c) (h2 : fld w 30 1 = bit p.y)
    (h : fld w 24 6 = 53) : decodeRaw w = dec35 p w := by
  simp only [decodeRaw, h1, h2, h, bit_eq_one]
theorem decodeRaw_36 {w : Nat} (p : Pfx) (h1 : fld w 31 1 = bit p.c) (h2 : fld w 30 1 = bit p.y)
    (h : fld w 24 6 = 54) : decodeRaw w = dec36 p w := by
  simp only [decodeRaw, h1, h2, h, bit_eq_one]
theorem decodeRaw_37 {w : Nat} (p : Pfx) (h1 : fld w 31 1 = bit p.c) (h2 : fld w 30 1 = bit p.y)
    (h : fld w 24 6 = 55) : decodeRaw w = dec37 p w := by
  simp only [decodeRaw, h1, h2, h, bit_eq_one]
theorem decodeRaw_38 {w : Nat} (p : Pfx) (h1 : fld w 31 1 = bit p.c) (h2 : fld w 30 1 = bit p.y)
    (h : fld w 24 6 = 56) : decodeRaw w = dec38 p w := by
  simp only [decodeRaw, h1, h2, h, bit_eq_one]
theorem decodeRaw_39 {w : Nat} (p : Pfx) (h1 : fld w 31 1 = bit p.c) (h2 : fld w 30 1 = bit p.y)
    (h : fld w 24 6 = 57) : decodeRaw w = dec39 p w := by
  simp only [decodeRaw, h1, h2, h, bit_eq_one]
theorem decodeRaw_3A {w : Nat} (p : Pfx) (h1 : fld w 31 1 = bit p.c) (h2 : fld w 30 1 = bit p.y)
    (h : fld w 24 6 = 58) : decodeRaw w = dec3A p w := by
  simp only [decodeRaw, h1, h2, h, bit_eq_one]
theorem decodeRaw_3B {w : Nat} (p : Pfx) (h1 : fld w 31 1 = bit p.c) (h2 : fld w 30 1 = bit p.y)
    (h : fld w 24 6 = 59) : decodeRaw w = dec3B p w := by
  simp only [decodeRaw, h1, h2, h, bit_eq_one]
theorem decodeRaw_3C {w : Nat} (p : Pfx) (h1 : fld w 31 1 = bit p.c) (h2 : fld w 30 1 = bit p.y)
    (h : fld w 24 6 = 60) : decodeRaw w = dec3C p w := by
  simp only [decodeRaw, h1, h2, h, bit_eq_one]
theorem decodeRaw_3D {w : Nat} (p : Pfx) (h1 : fld w 31 1 = bit p.c) (h2 : fld w 30 1 = bit p.y)
    (h : fld w 24 6 = 61) : decodeRaw w = dec3D p w := by
  simp only [decodeRaw, h1, h2, h, bit_eq_one]

end Sys2Proof
end

