-- ==== Sys2Proof/Laws/PerInstr.lean ====
section
/-! SUPPORT. Per instruction: a well-formed instruction's word decodes to it, with every operand at every value the
encoding admits; an event has no word. -/

namespace Sys2Proof.Laws

set_option Elab.async false

/-- The word of a well-formed instruction has 32 bits and decodes to it. -/
def RoundTrip.Statement (i : Instr) : Prop :=
  i.wf = true → ∀ w, encode i = some w → w < 2 ^ 32 ∧ decode w = .ok i


/-- An event has no word. -/
theorem RoundTrip.of_event {i : Instr} (h : encode i = none) : RoundTrip.Statement i := by
  intro _ w hw
  rw [h] at hw
  cases hw
/-- The word of an instruction, by what it holds. -/
theorem RoundTrip.of_word {i : Instr} {w : Nat} {P : Nat → Prop} (he : encode i = some w) (hP : P w)
    (h : ∀ w, P w → i.wf = true → w < 2 ^ 32 ∧ decodeRaw w = .ok i) : RoundTrip.Statement i := by
  intro hw v hv
  rw [he] at hv
  cases hv
  exact ⟨(h w hP hw).1, decode_of_raw hw (h w hP hw).2⟩

theorem RoundTrip.nop (p : Pfx) : RoundTrip.Statement (.nop p) := by
  refine RoundTrip.of_word (w := sys p 0 0 0 0 0) rfl
    (sys_is p (by decide : 0 < 64) (by decide : 0 < 64) (by decide : 0 < 64) (by decide : 0 < 16) (by decide : 0 < 256)) fun v F hw => ?_
  obtain ⟨Z, P1, P2, P3, F0, F1, F2, F3, F4, F5, F6, F7, F8⟩ := F
  refine ⟨Z, (decodeRaw_00 p P1 P2 P3).trans ?_⟩
  simp [dec00, F2, F3, F4, must]

theorem RoundTrip.halt (p : Pfx) : RoundTrip.Statement (.halt p) := by
  refine RoundTrip.of_word (w := sys p 0 0 0 1 0) rfl
    (sys_is p (by decide : 0 < 64) (by decide : 0 < 64) (by decide : 0 < 64) (by decide : 1 < 16) (by decide : 0 < 256)) fun v F hw => ?_
  obtain ⟨Z, P1, P2, P3, F0, F1, F2, F3, F4, F5, F6, F7, F8⟩ := F
  refine ⟨Z, (decodeRaw_00 p P1 P2 P3).trans ?_⟩
  simp [dec00, F2, F3, F4, must]

theorem RoundTrip.bra (p : Pfx) (k : Cond) (o : BitVec 20) : RoundTrip.Statement (.bra p k o) := by
  refine RoundTrip.of_word (w := br p 1 k.code o.toNat) rfl
    (br_is p (by decide : 1 < 64) k.code_lt o.isLt) fun v F hw => ?_
  obtain ⟨Z, P1, P2, P3, F0, F1, F2, F3, F4, F5, F6, F7⟩ := F
  refine ⟨Z, (decodeRaw_01 p P1 P2 P3).trans ?_⟩
  simp [dec01, F0, F1, orCause]

theorem RoundTrip.call (p : Pfx) (o : BitVec 20) : RoundTrip.Statement (.call p o) := by
  refine RoundTrip.of_word (w := br p 2 0 o.toNat) rfl
    (br_is p (by decide : 2 < 64) (by decide : 0 < 16) o.isLt) fun v F hw => ?_
  obtain ⟨Z, P1, P2, P3, F0, F1, F2, F3, F4, F5, F6, F7⟩ := F
  refine ⟨Z, (decodeRaw_02 p P1 P2 P3).trans ?_⟩
  simp [dec02, F0, F1]

theorem RoundTrip.ret (p : Pfx) : RoundTrip.Statement (.ret p) := by
  refine RoundTrip.of_word (w := br p 2 1 0) rfl
    (br_is p (by decide : 2 < 64) (by decide : 1 < 16) (by decide : 0 < 2 ^ 20)) fun v F hw => ?_
  obtain ⟨Z, P1, P2, P3, F0, F1, F2, F3, F4, F5, F6, F7⟩ := F
  refine ⟨Z, (decodeRaw_02 p P1 P2 P3).trans ?_⟩
  simp [dec02, F0, F1, must]

theorem RoundTrip.jmp (p : Pfx) (k : KReg) : RoundTrip.Statement (.jmp p k) := by
  refine RoundTrip.of_word (w := br p 2 2 k.val) rfl
    (br_is p (by decide : 2 < 64) (by decide : 2 < 16) (Nat.lt_trans k.isLt (by decide : 16 < 2 ^ 20))) fun v F hw => ?_
  obtain ⟨Z, P1, P2, P3, F0, F1, F2, F3, F4, F5, F6, F7⟩ := F
  refine ⟨Z, (decodeRaw_02 p P1 P2 P3).trans ?_⟩
  simp [dec02, F0, F2, F7, must, k.isLt, Nat.mod_eq_of_lt k.isLt]

theorem RoundTrip.brd (p : Pfx) (m : MReg) (o : BitVec 20) : RoundTrip.Statement (.brd p m o) := by
  refine RoundTrip.of_word (w := br p 3 m.val o.toNat) rfl
    (br_is p (by decide : 3 < 64) (Nat.lt_trans m.isLt (by decide : 4 < 16)) o.isLt) fun v F hw => ?_
  obtain ⟨Z, P1, P2, P3, F0, F1, F2, F3, F4, F5, F6, F7⟩ := F
  refine ⟨Z, (decodeRaw_03 p P1 P2 P3).trans ?_⟩
  have hm : ∀ m : MReg, m = 0 ∨ m = 1 ∨ m = 2 ∨ m = 3 := by decide
  rcases hm m with rfl | rfl | rfl | rfl <;> simp [dec03, F0, F1, show ((3 : Fin 4).val = 3) from rfl]

theorem RoundTrip.join (p : Pfx) : RoundTrip.Statement (.join p) := by
  refine RoundTrip.of_word (w := br p 3 4 0) rfl
    (br_is p (by decide : 3 < 64) (by decide : 4 < 16) (by decide : 0 < 2 ^ 20)) fun v F hw => ?_
  obtain ⟨Z, P1, P2, P3, F0, F1, F2, F3, F4, F5, F6, F7⟩ := F
  refine ⟨Z, (decodeRaw_03 p P1 P2 P3).trans ?_⟩
  simp [dec03, F0, F1, must]

theorem RoundTrip.mand (p : Pfx) (d : MReg) (a : MReg) (b : MReg) : RoundTrip.Statement (.mand p d a b) := by
  refine RoundTrip.of_word (w := br p 3 5 (d.val * 16 + a.val * 4 + b.val)) rfl
    (br_is p (by decide : 3 < 64) (by decide : 5 < 16) (by have := d.isLt; have := a.isLt; have := b.isLt; omega)) fun v F hw => ?_
  obtain ⟨Z, P1, P2, P3, F0, F1, F2, F3, F4, F5, F6, F7⟩ := F
  refine ⟨Z, (decodeRaw_03 p P1 P2 P3).trans ?_⟩
  simp [dec03, F0, F3, F4, F5, F6, must, show (d.val * 16 + a.val * 4 + b.val) / 64 = 0 by omega, show (d.val * 16 + a.val * 4 + b.val) / 16 % 4 = d.val by omega, show (d.val * 16 + a.val * 4 + b.val) / 4 % 4 = a.val by omega, show (d.val * 16 + a.val * 4 + b.val) % 4 = b.val by omega]

theorem RoundTrip.mor (p : Pfx) (d : MReg) (a : MReg) (b : MReg) : RoundTrip.Statement (.mor p d a b) := by
  refine RoundTrip.of_word (w := br p 3 6 (d.val * 16 + a.val * 4 + b.val)) rfl
    (br_is p (by decide : 3 < 64) (by decide : 6 < 16) (by have := d.isLt; have := a.isLt; have := b.isLt; omega)) fun v F hw => ?_
  obtain ⟨Z, P1, P2, P3, F0, F1, F2, F3, F4, F5, F6, F7⟩ := F
  refine ⟨Z, (decodeRaw_03 p P1 P2 P3).trans ?_⟩
  simp [dec03, F0, F3, F4, F5, F6, must, show (d.val * 16 + a.val * 4 + b.val) / 64 = 0 by omega, show (d.val * 16 + a.val * 4 + b.val) / 16 % 4 = d.val by omega, show (d.val * 16 + a.val * 4 + b.val) / 4 % 4 = a.val by omega, show (d.val * 16 + a.val * 4 + b.val) % 4 = b.val by omega]

theorem RoundTrip.mnot (p : Pfx) (d : MReg) (a : MReg) : RoundTrip.Statement (.mnot p d a) := by
  refine RoundTrip.of_word (w := br p 3 7 (d.val * 16 + a.val * 4)) rfl
    (br_is p (by decide : 3 < 64) (by decide : 7 < 16) (by have := d.isLt; have := a.isLt; omega)) fun v F hw => ?_
  obtain ⟨Z, P1, P2, P3, F0, F1, F2, F3, F4, F5, F6, F7⟩ := F
  refine ⟨Z, (decodeRaw_03 p P1 P2 P3).trans ?_⟩
  simp [dec03, F0, F3, F4, F5, F6, must, show (d.val * 16 + a.val * 4) / 64 = 0 by omega, show (d.val * 16 + a.val * 4) / 16 % 4 = d.val by omega, show (d.val * 16 + a.val * 4) / 4 % 4 = a.val by omega, show (d.val * 16 + a.val * 4) % 4 = 0 by omega]

theorem RoundTrip.mmov (p : Pfx) (d : MReg) (a : MReg) : RoundTrip.Statement (.mmov p d a) := by
  refine RoundTrip.of_word (w := br p 3 8 (d.val * 16 + a.val * 4)) rfl
    (br_is p (by decide : 3 < 64) (by decide : 8 < 16) (by have := d.isLt; have := a.isLt; omega)) fun v F hw => ?_
  obtain ⟨Z, P1, P2, P3, F0, F1, F2, F3, F4, F5, F6, F7⟩ := F
  refine ⟨Z, (decodeRaw_03 p P1 P2 P3).trans ?_⟩
  simp [dec03, F0, F3, F4, F5, F6, must, show (d.val * 16 + a.val * 4) / 64 = 0 by omega, show (d.val * 16 + a.val * 4) / 16 % 4 = d.val by omega, show (d.val * 16 + a.val * 4) / 4 % 4 = a.val by omega, show (d.val * 16 + a.val * 4) % 4 = 0 by omega]

theorem RoundTrip.kadd (p : Pfx) (d : KReg) (a : KReg) (b : KReg) : RoundTrip.Statement (.kadd p d a b) := by
  refine RoundTrip.of_word (w := vr p 4 d.val a.val b.val 0 0) rfl
    (vr_is p (by decide : 4 < 64) (Nat.lt_trans d.isLt (by decide : 16 < 64)) (Nat.lt_trans a.isLt (by decide : 16 < 64)) (Nat.lt_trans b.isLt (by decide : 16 < 64)) (by decide : 0 < 8) (by decide : 0 < 8)) fun v F hw => ?_
  obtain ⟨Z, P1, P2, P3, F0, F1, F2, F3, F4, F5, F6, F7⟩ := F
  refine ⟨Z, (decodeRaw_04 p P1 P2 P3).trans ?_⟩
  simp [dec04, F0, F1, F2, F7, dabK, orCause]

theorem RoundTrip.ksub (p : Pfx) (d : KReg) (a : KReg) (b : KReg) : RoundTrip.Statement (.ksub p d a b) := by
  refine RoundTrip.of_word (w := vr p 4 d.val a.val b.val 0 1) rfl
    (vr_is p (by decide : 4 < 64) (Nat.lt_trans d.isLt (by decide : 16 < 64)) (Nat.lt_trans a.isLt (by decide : 16 < 64)) (Nat.lt_trans b.isLt (by decide : 16 < 64)) (by decide : 0 < 8) (by decide : 1 < 8)) fun v F hw => ?_
  obtain ⟨Z, P1, P2, P3, F0, F1, F2, F3, F4, F5, F6, F7⟩ := F
  refine ⟨Z, (decodeRaw_04 p P1 P2 P3).trans ?_⟩
  simp [dec04, F0, F1, F2, F7, dabK, orCause]

theorem RoundTrip.kand (p : Pfx) (d : KReg) (a : KReg) (b : KReg) : RoundTrip.Statement (.kand p d a b) := by
  refine RoundTrip.of_word (w := vr p 4 d.val a.val b.val 0 2) rfl
    (vr_is p (by decide : 4 < 64) (Nat.lt_trans d.isLt (by decide : 16 < 64)) (Nat.lt_trans a.isLt (by decide : 16 < 64)) (Nat.lt_trans b.isLt (by decide : 16 < 64)) (by decide : 0 < 8) (by decide : 2 < 8)) fun v F hw => ?_
  obtain ⟨Z, P1, P2, P3, F0, F1, F2, F3, F4, F5, F6, F7⟩ := F
  refine ⟨Z, (decodeRaw_04 p P1 P2 P3).trans ?_⟩
  simp [dec04, F0, F1, F2, F7, dabK, orCause]

theorem RoundTrip.kor (p : Pfx) (d : KReg) (a : KReg) (b : KReg) : RoundTrip.Statement (.kor p d a b) := by
  refine RoundTrip.of_word (w := vr p 4 d.val a.val b.val 0 3) rfl
    (vr_is p (by decide : 4 < 64) (Nat.lt_trans d.isLt (by decide : 16 < 64)) (Nat.lt_trans a.isLt (by decide : 16 < 64)) (Nat.lt_trans b.isLt (by decide : 16 < 64)) (by decide : 0 < 8) (by decide : 3 < 8)) fun v F hw => ?_
  obtain ⟨Z, P1, P2, P3, F0, F1, F2, F3, F4, F5, F6, F7⟩ := F
  refine ⟨Z, (decodeRaw_04 p P1 P2 P3).trans ?_⟩
  simp [dec04, F0, F1, F2, F7, dabK, orCause]

theorem RoundTrip.kxor (p : Pfx) (d : KReg) (a : KReg) (b : KReg) : RoundTrip.Statement (.kxor p d a b) := by
  refine RoundTrip.of_word (w := vr p 4 d.val a.val b.val 0 4) rfl
    (vr_is p (by decide : 4 < 64) (Nat.lt_trans d.isLt (by decide : 16 < 64)) (Nat.lt_trans a.isLt (by decide : 16 < 64)) (Nat.lt_trans b.isLt (by decide : 16 < 64)) (by decide : 0 < 8) (by decide : 4 < 8)) fun v F hw => ?_
  obtain ⟨Z, P1, P2, P3, F0, F1, F2, F3, F4, F5, F6, F7⟩ := F
  refine ⟨Z, (decodeRaw_04 p P1 P2 P3).trans ?_⟩
  simp [dec04, F0, F1, F2, F7, dabK, orCause]

theorem RoundTrip.kshl (p : Pfx) (d : KReg) (a : KReg) (b : KReg) : RoundTrip.Statement (.kshl p d a b) := by
  refine RoundTrip.of_word (w := vr p 4 d.val a.val b.val 0 5) rfl
    (vr_is p (by decide : 4 < 64) (Nat.lt_trans d.isLt (by decide : 16 < 64)) (Nat.lt_trans a.isLt (by decide : 16 < 64)) (Nat.lt_trans b.isLt (by decide : 16 < 64)) (by decide : 0 < 8) (by decide : 5 < 8)) fun v F hw => ?_
  obtain ⟨Z, P1, P2, P3, F0, F1, F2, F3, F4, F5, F6, F7⟩ := F
  refine ⟨Z, (decodeRaw_04 p P1 P2 P3).trans ?_⟩
  simp [dec04, F0, F1, F2, F7, dabK, orCause]

theorem RoundTrip.kshrZ32 (p : Pfx) (d : KReg) (a : KReg) (b : KReg) : RoundTrip.Statement (.kshrZ32 p d a b) := by
  refine RoundTrip.of_word (w := vr p 4 d.val a.val b.val 0 6) rfl
    (vr_is p (by decide : 4 < 64) (Nat.lt_trans d.isLt (by decide : 16 < 64)) (Nat.lt_trans a.isLt (by decide : 16 < 64)) (Nat.lt_trans b.isLt (by decide : 16 < 64)) (by decide : 0 < 8) (by decide : 6 < 8)) fun v F hw => ?_
  obtain ⟨Z, P1, P2, P3, F0, F1, F2, F3, F4, F5, F6, F7⟩ := F
  refine ⟨Z, (decodeRaw_04 p P1 P2 P3).trans ?_⟩
  simp [dec04, F0, F1, F2, F7, dabK, orCause]

theorem RoundTrip.kshrS32 (p : Pfx) (d : KReg) (a : KReg) (b : KReg) : RoundTrip.Statement (.kshrS32 p d a b) := by
  refine RoundTrip.of_word (w := vr p 4 d.val a.val b.val 0 7) rfl
    (vr_is p (by decide : 4 < 64) (Nat.lt_trans d.isLt (by decide : 16 < 64)) (Nat.lt_trans a.isLt (by decide : 16 < 64)) (Nat.lt_trans b.isLt (by decide : 16 < 64)) (by decide : 0 < 8) (by decide : 7 < 8)) fun v F hw => ?_
  obtain ⟨Z, P1, P2, P3, F0, F1, F2, F3, F4, F5, F6, F7⟩ := F
  refine ⟨Z, (decodeRaw_04 p P1 P2 P3).trans ?_⟩
  simp [dec04, F0, F1, F2, F7, dabK, orCause]

theorem RoundTrip.kmul (p : Pfx) (d : KReg) (a : KReg) (b : KReg) : RoundTrip.Statement (.kmul p d a b) := by
  refine RoundTrip.of_word (w := vr p 4 d.val a.val b.val 1 0) rfl
    (vr_is p (by decide : 4 < 64) (Nat.lt_trans d.isLt (by decide : 16 < 64)) (Nat.lt_trans a.isLt (by decide : 16 < 64)) (Nat.lt_trans b.isLt (by decide : 16 < 64)) (by decide : 1 < 8) (by decide : 0 < 8)) fun v F hw => ?_
  obtain ⟨Z, P1, P2, P3, F0, F1, F2, F3, F4, F5, F6, F7⟩ := F
  refine ⟨Z, (decodeRaw_04 p P1 P2 P3).trans ?_⟩
  simp [dec04, F0, F1, F2, F7, dabK, orCause]

theorem RoundTrip.kminS32 (p : Pfx) (d : KReg) (a : KReg) (b : KReg) : RoundTrip.Statement (.kminS32 p d a b) := by
  refine RoundTrip.of_word (w := vr p 4 d.val a.val b.val 1 1) rfl
    (vr_is p (by decide : 4 < 64) (Nat.lt_trans d.isLt (by decide : 16 < 64)) (Nat.lt_trans a.isLt (by decide : 16 < 64)) (Nat.lt_trans b.isLt (by decide : 16 < 64)) (by decide : 1 < 8) (by decide : 1 < 8)) fun v F hw => ?_
  obtain ⟨Z, P1, P2, P3, F0, F1, F2, F3, F4, F5, F6, F7⟩ := F
  refine ⟨Z, (decodeRaw_04 p P1 P2 P3).trans ?_⟩
  simp [dec04, F0, F1, F2, F7, dabK, orCause]

theorem RoundTrip.kminZ32 (p : Pfx) (d : KReg) (a : KReg) (b : KReg) : RoundTrip.Statement (.kminZ32 p d a b) := by
  refine RoundTrip.of_word (w := vr p 4 d.val a.val b.val 1 2) rfl
    (vr_is p (by decide : 4 < 64) (Nat.lt_trans d.isLt (by decide : 16 < 64)) (Nat.lt_trans a.isLt (by decide : 16 < 64)) (Nat.lt_trans b.isLt (by decide : 16 < 64)) (by decide : 1 < 8) (by decide : 2 < 8)) fun v F hw => ?_
  obtain ⟨Z, P1, P2, P3, F0, F1, F2, F3, F4, F5, F6, F7⟩ := F
  refine ⟨Z, (decodeRaw_04 p P1 P2 P3).trans ?_⟩
  simp [dec04, F0, F1, F2, F7, dabK, orCause]

theorem RoundTrip.kmaxS32 (p : Pfx) (d : KReg) (a : KReg) (b : KReg) : RoundTrip.Statement (.kmaxS32 p d a b) := by
  refine RoundTrip.of_word (w := vr p 4 d.val a.val b.val 1 3) rfl
    (vr_is p (by decide : 4 < 64) (Nat.lt_trans d.isLt (by decide : 16 < 64)) (Nat.lt_trans a.isLt (by decide : 16 < 64)) (Nat.lt_trans b.isLt (by decide : 16 < 64)) (by decide : 1 < 8) (by decide : 3 < 8)) fun v F hw => ?_
  obtain ⟨Z, P1, P2, P3, F0, F1, F2, F3, F4, F5, F6, F7⟩ := F
  refine ⟨Z, (decodeRaw_04 p P1 P2 P3).trans ?_⟩
  simp [dec04, F0, F1, F2, F7, dabK, orCause]

theorem RoundTrip.kmaxZ32 (p : Pfx) (d : KReg) (a : KReg) (b : KReg) : RoundTrip.Statement (.kmaxZ32 p d a b) := by
  refine RoundTrip.of_word (w := vr p 4 d.val a.val b.val 1 4) rfl
    (vr_is p (by decide : 4 < 64) (Nat.lt_trans d.isLt (by decide : 16 < 64)) (Nat.lt_trans a.isLt (by decide : 16 < 64)) (Nat.lt_trans b.isLt (by decide : 16 < 64)) (by decide : 1 < 8) (by decide : 4 < 8)) fun v F hw => ?_
  obtain ⟨Z, P1, P2, P3, F0, F1, F2, F3, F4, F5, F6, F7⟩ := F
  refine ⟨Z, (decodeRaw_04 p P1 P2 P3).trans ?_⟩
  simp [dec04, F0, F1, F2, F7, dabK, orCause]

theorem RoundTrip.kcmpEq (p : Pfx) (d : KReg) (a : KReg) (b : KReg) : RoundTrip.Statement (.kcmpEq p d a b) := by
  refine RoundTrip.of_word (w := vr p 4 d.val a.val b.val 1 5) rfl
    (vr_is p (by decide : 4 < 64) (Nat.lt_trans d.isLt (by decide : 16 < 64)) (Nat.lt_trans a.isLt (by decide : 16 < 64)) (Nat.lt_trans b.isLt (by decide : 16 < 64)) (by decide : 1 < 8) (by decide : 5 < 8)) fun v F hw => ?_
  obtain ⟨Z, P1, P2, P3, F0, F1, F2, F3, F4, F5, F6, F7⟩ := F
  refine ⟨Z, (decodeRaw_04 p P1 P2 P3).trans ?_⟩
  simp [dec04, F0, F1, F2, F7, dabK, orCause]

theorem RoundTrip.kcmpNe (p : Pfx) (d : KReg) (a : KReg) (b : KReg) : RoundTrip.Statement (.kcmpNe p d a b) := by
  refine RoundTrip.of_word (w := vr p 4 d.val a.val b.val 1 6) rfl
    (vr_is p (by decide : 4 < 64) (Nat.lt_trans d.isLt (by decide : 16 < 64)) (Nat.lt_trans a.isLt (by decide : 16 < 64)) (Nat.lt_trans b.isLt (by decide : 16 < 64)) (by decide : 1 < 8) (by decide : 6 < 8)) fun v F hw => ?_
  obtain ⟨Z, P1, P2, P3, F0, F1, F2, F3, F4, F5, F6, F7⟩ := F
  refine ⟨Z, (decodeRaw_04 p P1 P2 P3).trans ?_⟩
  simp [dec04, F0, F1, F2, F7, dabK, orCause]

theorem RoundTrip.kcmpS32Lt (p : Pfx) (d : KReg) (a : KReg) (b : KReg) : RoundTrip.Statement (.kcmpS32Lt p d a b) := by
  refine RoundTrip.of_word (w := vr p 4 d.val a.val b.val 1 7) rfl
    (vr_is p (by decide : 4 < 64) (Nat.lt_trans d.isLt (by decide : 16 < 64)) (Nat.lt_trans a.isLt (by decide : 16 < 64)) (Nat.lt_trans b.isLt (by decide : 16 < 64)) (by decide : 1 < 8) (by decide : 7 < 8)) fun v F hw => ?_
  obtain ⟨Z, P1, P2, P3, F0, F1, F2, F3, F4, F5, F6, F7⟩ := F
  refine ⟨Z, (decodeRaw_04 p P1 P2 P3).trans ?_⟩
  simp [dec04, F0, F1, F2, F7, dabK, orCause]

theorem RoundTrip.kcmpZ32Lt (p : Pfx) (d : KReg) (a : KReg) (b : KReg) : RoundTrip.Statement (.kcmpZ32Lt p d a b) := by
  refine RoundTrip.of_word (w := vr p 4 d.val a.val b.val 2 0) rfl
    (vr_is p (by decide : 4 < 64) (Nat.lt_trans d.isLt (by decide : 16 < 64)) (Nat.lt_trans a.isLt (by decide : 16 < 64)) (Nat.lt_trans b.isLt (by decide : 16 < 64)) (by decide : 2 < 8) (by decide : 0 < 8)) fun v F hw => ?_
  obtain ⟨Z, P1, P2, P3, F0, F1, F2, F3, F4, F5, F6, F7⟩ := F
  refine ⟨Z, (decodeRaw_04 p P1 P2 P3).trans ?_⟩
  simp [dec04, F0, F1, F2, F7, dabK, orCause]

theorem RoundTrip.kcmpS32Le (p : Pfx) (d : KReg) (a : KReg) (b : KReg) : RoundTrip.Statement (.kcmpS32Le p d a b) := by
  refine RoundTrip.of_word (w := vr p 4 d.val a.val b.val 2 1) rfl
    (vr_is p (by decide : 4 < 64) (Nat.lt_trans d.isLt (by decide : 16 < 64)) (Nat.lt_trans a.isLt (by decide : 16 < 64)) (Nat.lt_trans b.isLt (by decide : 16 < 64)) (by decide : 2 < 8) (by decide : 1 < 8)) fun v F hw => ?_
  obtain ⟨Z, P1, P2, P3, F0, F1, F2, F3, F4, F5, F6, F7⟩ := F
  refine ⟨Z, (decodeRaw_04 p P1 P2 P3).trans ?_⟩
  simp [dec04, F0, F1, F2, F7, dabK, orCause]

theorem RoundTrip.kcmpZ32Le (p : Pfx) (d : KReg) (a : KReg) (b : KReg) : RoundTrip.Statement (.kcmpZ32Le p d a b) := by
  refine RoundTrip.of_word (w := vr p 4 d.val a.val b.val 2 2) rfl
    (vr_is p (by decide : 4 < 64) (Nat.lt_trans d.isLt (by decide : 16 < 64)) (Nat.lt_trans a.isLt (by decide : 16 < 64)) (Nat.lt_trans b.isLt (by decide : 16 < 64)) (by decide : 2 < 8) (by decide : 2 < 8)) fun v F hw => ?_
  obtain ⟨Z, P1, P2, P3, F0, F1, F2, F3, F4, F5, F6, F7⟩ := F
  refine ⟨Z, (decodeRaw_04 p P1 P2 P3).trans ?_⟩
  simp [dec04, F0, F1, F2, F7, dabK, orCause]

theorem RoundTrip.kmov (p : Pfx) (d : KReg) (a : KReg) : RoundTrip.Statement (.kmov p d a) := by
  refine RoundTrip.of_word (w := vr p 4 d.val a.val 0 2 3) rfl
    (vr_is p (by decide : 4 < 64) (Nat.lt_trans d.isLt (by decide : 16 < 64)) (Nat.lt_trans a.isLt (by decide : 16 < 64)) (by decide : 0 < 64) (by decide : 2 < 8) (by decide : 3 < 8)) fun v F hw => ?_
  obtain ⟨Z, P1, P2, P3, F0, F1, F2, F3, F4, F5, F6, F7⟩ := F
  refine ⟨Z, (decodeRaw_04 p P1 P2 P3).trans ?_⟩
  simp [dec04, F0, F1, F2, F7, daK, orCause, must]

theorem RoundTrip.kaddi (p : Pfx) (d : KReg) (a : KReg) (i : BitVec 9) : RoundTrip.Statement (.kaddi p d a i) := by
  refine RoundTrip.of_word (w := vi p 5 d.val a.val 0 i.toNat) rfl
    (vi_is p (by decide : 5 < 64) (Nat.lt_trans d.isLt (by decide : 16 < 64)) (Nat.lt_trans a.isLt (by decide : 16 < 64)) (by decide : 0 < 8) i.isLt) fun v F hw => ?_
  obtain ⟨Z, P1, P2, P3, F0, F1, F2, F3⟩ := F
  refine ⟨Z, (decodeRaw_05 p P1 P2 P3).trans ?_⟩
  simp [dec05, F0, F1, F2, F3, daK, orCause]

theorem RoundTrip.kandi (p : Pfx) (d : KReg) (a : KReg) (i : BitVec 9) : RoundTrip.Statement (.kandi p d a i) := by
  refine RoundTrip.of_word (w := vi p 5 d.val a.val 1 i.toNat) rfl
    (vi_is p (by decide : 5 < 64) (Nat.lt_trans d.isLt (by decide : 16 < 64)) (Nat.lt_trans a.isLt (by decide : 16 < 64)) (by decide : 1 < 8) i.isLt) fun v F hw => ?_
  obtain ⟨Z, P1, P2, P3, F0, F1, F2, F3⟩ := F
  refine ⟨Z, (decodeRaw_05 p P1 P2 P3).trans ?_⟩
  simp [dec05, F0, F1, F2, F3, daK, orCause]

theorem RoundTrip.kori (p : Pfx) (d : KReg) (a : KReg) (i : BitVec 9) : RoundTrip.Statement (.kori p d a i) := by
  refine RoundTrip.of_word (w := vi p 5 d.val a.val 2 i.toNat) rfl
    (vi_is p (by decide : 5 < 64) (Nat.lt_trans d.isLt (by decide : 16 < 64)) (Nat.lt_trans a.isLt (by decide : 16 < 64)) (by decide : 2 < 8) i.isLt) fun v F hw => ?_
  obtain ⟨Z, P1, P2, P3, F0, F1, F2, F3⟩ := F
  refine ⟨Z, (decodeRaw_05 p P1 P2 P3).trans ?_⟩
  simp [dec05, F0, F1, F2, F3, daK, orCause]

theorem RoundTrip.kxori (p : Pfx) (d : KReg) (a : KReg) (i : BitVec 9) : RoundTrip.Statement (.kxori p d a i) := by
  refine RoundTrip.of_word (w := vi p 5 d.val a.val 3 i.toNat) rfl
    (vi_is p (by decide : 5 < 64) (Nat.lt_trans d.isLt (by decide : 16 < 64)) (Nat.lt_trans a.isLt (by decide : 16 < 64)) (by decide : 3 < 8) i.isLt) fun v F hw => ?_
  obtain ⟨Z, P1, P2, P3, F0, F1, F2, F3⟩ := F
  refine ⟨Z, (decodeRaw_05 p P1 P2 P3).trans ?_⟩
  simp [dec05, F0, F1, F2, F3, daK, orCause]

theorem RoundTrip.kshli (p : Pfx) (d : KReg) (a : KReg) (i : Fin 32) : RoundTrip.Statement (.kshli p d a i) := by
  refine RoundTrip.of_word (w := vi p 5 d.val a.val 4 i.val) rfl
    (vi_is p (by decide : 5 < 64) (Nat.lt_trans d.isLt (by decide : 16 < 64)) (Nat.lt_trans a.isLt (by decide : 16 < 64)) (by decide : 4 < 8) (Nat.lt_trans i.isLt (by decide : 32 < 512))) fun v F hw => ?_
  obtain ⟨Z, P1, P2, P3, F0, F1, F2, F3⟩ := F
  refine ⟨Z, (decodeRaw_05 p P1 P2 P3).trans ?_⟩
  simp [dec05, F0, F1, F2, F3, daK, orCause, must, i.isLt]

theorem RoundTrip.kshriZ32 (p : Pfx) (d : KReg) (a : KReg) (i : Fin 32) : RoundTrip.Statement (.kshriZ32 p d a i) := by
  refine RoundTrip.of_word (w := vi p 5 d.val a.val 5 i.val) rfl
    (vi_is p (by decide : 5 < 64) (Nat.lt_trans d.isLt (by decide : 16 < 64)) (Nat.lt_trans a.isLt (by decide : 16 < 64)) (by decide : 5 < 8) (Nat.lt_trans i.isLt (by decide : 32 < 512))) fun v F hw => ?_
  obtain ⟨Z, P1, P2, P3, F0, F1, F2, F3⟩ := F
  refine ⟨Z, (decodeRaw_05 p P1 P2 P3).trans ?_⟩
  simp [dec05, F0, F1, F2, F3, daK, orCause, must, i.isLt]

theorem RoundTrip.kshriS32 (p : Pfx) (d : KReg) (a : KReg) (i : Fin 32) : RoundTrip.Statement (.kshriS32 p d a i) := by
  refine RoundTrip.of_word (w := vi p 5 d.val a.val 6 i.val) rfl
    (vi_is p (by decide : 5 < 64) (Nat.lt_trans d.isLt (by decide : 16 < 64)) (Nat.lt_trans a.isLt (by decide : 16 < 64)) (by decide : 6 < 8) (Nat.lt_trans i.isLt (by decide : 32 < 512))) fun v F hw => ?_
  obtain ⟨Z, P1, P2, P3, F0, F1, F2, F3⟩ := F
  refine ⟨Z, (decodeRaw_05 p P1 P2 P3).trans ?_⟩
  simp [dec05, F0, F1, F2, F3, daK, orCause, must, i.isLt]

theorem RoundTrip.kmovi (p : Pfx) (d : KReg) (i : BitVec 9) : RoundTrip.Statement (.kmovi p d i) := by
  refine RoundTrip.of_word (w := vi p 5 d.val 0 7 i.toNat) rfl
    (vi_is p (by decide : 5 < 64) (Nat.lt_trans d.isLt (by decide : 16 < 64)) (by decide : 0 < 64) (by decide : 7 < 8) i.isLt) fun v F hw => ?_
  obtain ⟨Z, P1, P2, P3, F0, F1, F2, F3⟩ := F
  refine ⟨Z, (decodeRaw_05 p P1 P2 P3).trans ?_⟩
  simp [dec05, F0, F1, F2, F3, xK, orCause, must]

theorem RoundTrip.wait (p : Pfx) (x : Fin 4) (i : BitVec 8) : RoundTrip.Statement (.wait p x i) := by
  refine RoundTrip.of_word (w := sys p 6 x.val 0 0 i.toNat) rfl
    (sys_is p (by decide : 6 < 64) (Nat.lt_trans x.isLt (by decide : 4 < 64)) (by decide : 0 < 64) (by decide : 0 < 16) i.isLt) fun v F hw => ?_
  obtain ⟨Z, P1, P2, P3, F0, F1, F2, F3, F4, F5, F6, F7, F8⟩ := F
  refine ⟨Z, (decodeRaw_06 p P1 P2 P3).trans ?_⟩
  simp [dec06, F0, F1, F3, F4, must, x.isLt]

theorem RoundTrip.yield (p : Pfx) : RoundTrip.Statement (.yield p) := by
  refine RoundTrip.of_word (w := sys p 6 0 0 1 0) rfl
    (sys_is p (by decide : 6 < 64) (by decide : 0 < 64) (by decide : 0 < 64) (by decide : 1 < 16) (by decide : 0 < 256)) fun v F hw => ?_
  obtain ⟨Z, P1, P2, P3, F0, F1, F2, F3, F4, F5, F6, F7, F8⟩ := F
  refine ⟨Z, (decodeRaw_06 p P1 P2 P3).trans ?_⟩
  simp [dec06, F0, F1, F3, F4, must]

theorem RoundTrip.fbar (p : Pfx) (s : BitVec 4) : RoundTrip.Statement (.fbar p s) := by
  refine RoundTrip.of_word (w := sys p 6 0 0 2 s.toNat) rfl
    (sys_is p (by decide : 6 < 64) (by decide : 0 < 64) (by decide : 0 < 64) (by decide : 2 < 16) (Nat.lt_trans s.isLt (by decide : 16 < 256))) fun v F hw => ?_
  obtain ⟨Z, P1, P2, P3, F0, F1, F2, F3, F4, F5, F6, F7, F8⟩ := F
  refine ⟨Z, (decodeRaw_06 p P1 P2 P3).trans ?_⟩
  simp [dec06, F0, F1, F3, F4, must, s.isLt]

theorem RoundTrip.fstop (p : Pfx) (f : Fin 4) : RoundTrip.Statement (.fstop p f) := by
  refine RoundTrip.of_word (w := sys p 6 0 0 3 f.val) rfl
    (sys_is p (by decide : 6 < 64) (by decide : 0 < 64) (by decide : 0 < 64) (by decide : 3 < 16) (Nat.lt_trans f.isLt (by decide : 4 < 256))) fun v F hw => ?_
  obtain ⟨Z, P1, P2, P3, F0, F1, F2, F3, F4, F5, F6, F7, F8⟩ := F
  refine ⟨Z, (decodeRaw_06 p P1 P2 P3).trans ?_⟩
  simp [dec06, F0, F1, F3, F4, must, f.isLt]

theorem RoundTrip.fwake (p : Pfx) (f : Fin 4) : RoundTrip.Statement (.fwake p f) := by
  refine RoundTrip.of_word (w := sys p 6 0 0 4 f.val) rfl
    (sys_is p (by decide : 6 < 64) (by decide : 0 < 64) (by decide : 0 < 64) (by decide : 4 < 16) (Nat.lt_trans f.isLt (by decide : 4 < 256))) fun v F hw => ?_
  obtain ⟨Z, P1, P2, P3, F0, F1, F2, F3, F4, F5, F6, F7, F8⟩ := F
  refine ⟨Z, (decodeRaw_06 p P1 P2 P3).trans ?_⟩
  simp [dec06, F0, F1, F3, F4, must, f.isLt]

theorem RoundTrip.trap (p : Pfx) (i : BitVec 8) : RoundTrip.Statement (.trap p i) := by
  refine RoundTrip.of_word (w := sys p 7 0 0 0 i.toNat) rfl
    (sys_is p (by decide : 7 < 64) (by decide : 0 < 64) (by decide : 0 < 64) (by decide : 0 < 16) i.isLt) fun v F hw => ?_
  obtain ⟨Z, P1, P2, P3, F0, F1, F2, F3, F4, F5, F6, F7, F8⟩ := F
  refine ⟨Z, (decodeRaw_07 p P1 P2 P3).trans ?_⟩
  simp [dec07, F0, F1, F3, F4, must]

theorem RoundTrip.tret (p : Pfx) : RoundTrip.Statement (.tret p) := by
  refine RoundTrip.of_word (w := sys p 7 0 0 1 0) rfl
    (sys_is p (by decide : 7 < 64) (by decide : 0 < 64) (by decide : 0 < 64) (by decide : 1 < 16) (by decide : 0 < 256)) fun v F hw => ?_
  obtain ⟨Z, P1, P2, P3, F0, F1, F2, F3, F4, F5, F6, F7, F8⟩ := F
  refine ⟨Z, (decodeRaw_07 p P1 P2 P3).trans ?_⟩
  simp [dec07, F0, F1, F3, F4, must]

theorem RoundTrip.csrr (p : Pfx) (x : KReg) (i : BitVec 8) : RoundTrip.Statement (.csrr p x i) := by
  refine RoundTrip.of_word (w := sys p 7 x.val 0 2 i.toNat) rfl
    (sys_is p (by decide : 7 < 64) (Nat.lt_trans x.isLt (by decide : 16 < 64)) (by decide : 0 < 64) (by decide : 2 < 16) i.isLt) fun v F hw => ?_
  obtain ⟨Z, P1, P2, P3, F0, F1, F2, F3, F4, F5, F6, F7, F8⟩ := F
  refine ⟨Z, (decodeRaw_07 p P1 P2 P3).trans ?_⟩
  simp only [Instr.wf] at hw
  simp [dec07, F0, F1, F3, F4, xK, orCause, must, hw]

theorem RoundTrip.csrw (p : Pfx) (x : KReg) (i : BitVec 8) : RoundTrip.Statement (.csrw p x i) := by
  refine RoundTrip.of_word (w := sys p 7 x.val 0 3 i.toNat) rfl
    (sys_is p (by decide : 7 < 64) (Nat.lt_trans x.isLt (by decide : 16 < 64)) (by decide : 0 < 64) (by decide : 3 < 16) i.isLt) fun v F hw => ?_
  obtain ⟨Z, P1, P2, P3, F0, F1, F2, F3, F4, F5, F6, F7, F8⟩ := F
  refine ⟨Z, (decodeRaw_07 p P1 P2 P3).trans ?_⟩
  simp only [Instr.wf, Bool.and_eq_true] at hw
  simp [dec07, F0, F1, F3, F4, xK, orCause, must, hw]

theorem RoundTrip.rgrow (p : Pfx) (i : BitVec 8) : RoundTrip.Statement (.rgrow p i) := by
  refine RoundTrip.of_word (w := sys p 7 0 0 4 i.toNat) rfl
    (sys_is p (by decide : 7 < 64) (by decide : 0 < 64) (by decide : 0 < 64) (by decide : 4 < 16) i.isLt) fun v F hw => ?_
  obtain ⟨Z, P1, P2, P3, F0, F1, F2, F3, F4, F5, F6, F7, F8⟩ := F
  refine ⟨Z, (decodeRaw_07 p P1 P2 P3).trans ?_⟩
  simp only [Instr.wf] at hw
  simp [dec07, F0, F1, F3, F4, must, hw]

theorem RoundTrip.rshrink (p : Pfx) (i : BitVec 8) : RoundTrip.Statement (.rshrink p i) := by
  refine RoundTrip.of_word (w := sys p 7 0 0 5 i.toNat) rfl
    (sys_is p (by decide : 7 < 64) (by decide : 0 < 64) (by decide : 0 < 64) (by decide : 5 < 16) i.isLt) fun v F hw => ?_
  obtain ⟨Z, P1, P2, P3, F0, F1, F2, F3, F4, F5, F6, F7, F8⟩ := F
  refine ⟨Z, (decodeRaw_07 p P1 P2 P3).trans ?_⟩
  simp only [Instr.wf] at hw
  simp [dec07, F0, F1, F3, F4, must, hw]

theorem RoundTrip.ldk (p : Pfx) (d : KReg) (a : KReg) (z : KSize) (o : Fin 32) (r : MOrd) (s : Scope) : RoundTrip.Statement (.ldk p d a z o r s) := by
  refine RoundTrip.of_word (w := mem p 8 d.val a.val z.code o.val r.code s.code) rfl
    (mem_is p (by decide : 8 < 64) (Nat.lt_trans d.isLt (by decide : 16 < 64)) (Nat.lt_trans a.isLt (by decide : 16 < 64)) (Nat.lt_trans z.code_lt (by decide : 4 < 8)) o.isLt r.code_lt s.code_lt) fun v F hw => ?_
  obtain ⟨Z, P1, P2, P3, F0, F1, F2, F3, F4, F5, F6, F7⟩ := F
  refine ⟨Z, (decodeRaw_08 p P1 P2 P3).trans ?_⟩
  simp only [Instr.wf, Bool.and_eq_true] at hw
  simp [dec08, F0, F1, F3, F4, F5, F6, F7, daK, orCause, must, hw, Nat.mod_eq_of_lt z.code_lt, Nat.div_eq_of_lt z.code_lt]

theorem RoundTrip.stk (p : Pfx) (d : KReg) (a : KReg) (z : KSize) (o : Fin 32) (r : MOrd) (s : Scope) : RoundTrip.Statement (.stk p d a z o r s) := by
  refine RoundTrip.of_word (w := mem p 8 d.val a.val (4 + z.code) o.val r.code s.code) rfl
    (mem_is p (by decide : 8 < 64) (Nat.lt_trans d.isLt (by decide : 16 < 64)) (Nat.lt_trans a.isLt (by decide : 16 < 64)) (by have := z.code_lt; omega) o.isLt r.code_lt s.code_lt) fun v F hw => ?_
  obtain ⟨Z, P1, P2, P3, F0, F1, F2, F3, F4, F5, F6, F7⟩ := F
  refine ⟨Z, (decodeRaw_08 p P1 P2 P3).trans ?_⟩
  simp only [Instr.wf, Bool.and_eq_true] at hw
  cases z <;>
    simp [dec08, F0, F1, F3, F4, F5, F6, F7, daK, orCause, must, hw, KSize.code, kSizeOf]

theorem RoundTrip.setrm (p : Pfx) (m : BitVec 3) : RoundTrip.Statement (.setrm p m) := by
  refine RoundTrip.of_word (w := sys p 9 0 0 0 m.toNat) rfl
    (sys_is p (by decide : 9 < 64) (by decide : 0 < 64) (by decide : 0 < 64) (by decide : 0 < 16) (Nat.lt_trans m.isLt (by decide : 8 < 256))) fun v F hw => ?_
  obtain ⟨Z, P1, P2, P3, F0, F1, F2, F3, F4, F5, F6, F7, F8⟩ := F
  refine ⟨Z, (decodeRaw_09 p P1 P2 P3).trans ?_⟩
  simp [dec09, F0, F1, F3, F4, must, m.isLt]

theorem RoundTrip.rdflags (p : Pfx) (x : KReg) : RoundTrip.Statement (.rdflags p x) := by
  refine RoundTrip.of_word (w := sys p 9 x.val 0 1 0) rfl
    (sys_is p (by decide : 9 < 64) (Nat.lt_trans x.isLt (by decide : 16 < 64)) (by decide : 0 < 64) (by decide : 1 < 16) (by decide : 0 < 256)) fun v F hw => ?_
  obtain ⟨Z, P1, P2, P3, F0, F1, F2, F3, F4, F5, F6, F7, F8⟩ := F
  refine ⟨Z, (decodeRaw_09 p P1 P2 P3).trans ?_⟩
  simp [dec09, F0, F1, F3, F4, xK, orCause, must]

theorem RoundTrip.clrflags (p : Pfx) (f : BitVec 8) : RoundTrip.Statement (.clrflags p f) := by
  refine RoundTrip.of_word (w := sys p 9 0 0 2 f.toNat) rfl
    (sys_is p (by decide : 9 < 64) (by decide : 0 < 64) (by decide : 0 < 64) (by decide : 2 < 16) f.isLt) fun v F hw => ?_
  obtain ⟨Z, P1, P2, P3, F0, F1, F2, F3, F4, F5, F6, F7, F8⟩ := F
  refine ⟨Z, (decodeRaw_09 p P1 P2 P3).trans ?_⟩
  simp [dec09, F0, F1, F3, F4, must]

theorem RoundTrip.rdamax (p : Pfx) (x : KReg) (s : Bool) : RoundTrip.Statement (.rdamax p x s) := by
  refine RoundTrip.of_word (w := sys p 9 x.val 0 3 (bit s)) rfl
    (sys_is p (by decide : 9 < 64) (Nat.lt_trans x.isLt (by decide : 16 < 64)) (by decide : 0 < 64) (by decide : 3 < 16) (Nat.lt_trans (bit_lt s) (by decide : 2 < 256))) fun v F hw => ?_
  obtain ⟨Z, P1, P2, P3, F0, F1, F2, F3, F4, F5, F6, F7, F8⟩ := F
  refine ⟨Z, (decodeRaw_09 p P1 P2 P3).trans ?_⟩
  cases s <;>
    simp [dec09, F0, F1, F3, F4, xK, orCause, must, bit]

theorem RoundTrip.clramax (p : Pfx) (s : Bool) : RoundTrip.Statement (.clramax p s) := by
  refine RoundTrip.of_word (w := sys p 9 0 0 4 (bit s)) rfl
    (sys_is p (by decide : 9 < 64) (by decide : 0 < 64) (by decide : 0 < 64) (by decide : 4 < 16) (Nat.lt_trans (bit_lt s) (by decide : 2 < 256))) fun v F hw => ?_
  obtain ⟨Z, P1, P2, P3, F0, F1, F2, F3, F4, F5, F6, F7, F8⟩ := F
  refine ⟨Z, (decodeRaw_09 p P1 P2 P3).trans ?_⟩
  cases s <;>
    simp [dec09, F0, F1, F3, F4, must, bit]

theorem RoundTrip.sbind (p : Pfx) (x : KReg) (s : Fin 4) : RoundTrip.Statement (.sbind p x s) := by
  refine RoundTrip.of_word (w := sys p 10 x.val 0 0 s.val) rfl
    (sys_is p (by decide : 10 < 64) (Nat.lt_trans x.isLt (by decide : 16 < 64)) (by decide : 0 < 64) (by decide : 0 < 16) (Nat.lt_trans s.isLt (by decide : 4 < 256))) fun v F hw => ?_
  obtain ⟨Z, P1, P2, P3, F0, F1, F2, F3, F4, F5, F6, F7, F8⟩ := F
  refine ⟨Z, (decodeRaw_0A p P1 P2 P3).trans ?_⟩
  simp only [Instr.wf] at hw
  simp [dec0A, F0, F1, F3, F4, xK, orCause, must, s.isLt]

theorem RoundTrip.srst (p : Pfx) (s : Fin 4) : RoundTrip.Statement (.srst p s) := by
  refine RoundTrip.of_word (w := sys p 10 0 0 1 s.val) rfl
    (sys_is p (by decide : 10 < 64) (by decide : 0 < 64) (by decide : 0 < 64) (by decide : 1 < 16) (Nat.lt_trans s.isLt (by decide : 4 < 256))) fun v F hw => ?_
  obtain ⟨Z, P1, P2, P3, F0, F1, F2, F3, F4, F5, F6, F7, F8⟩ := F
  refine ⟨Z, (decodeRaw_0A p P1 P2 P3).trans ?_⟩
  simp [dec0A, F0, F1, F3, F4, must, s.isLt]

theorem RoundTrip.sadv (p : Pfx) (x : KReg) (s : Fin 4) : RoundTrip.Statement (.sadv p x s) := by
  refine RoundTrip.of_word (w := sys p 10 x.val 0 2 s.val) rfl
    (sys_is p (by decide : 10 < 64) (Nat.lt_trans x.isLt (by decide : 16 < 64)) (by decide : 0 < 64) (by decide : 2 < 16) (Nat.lt_trans s.isLt (by decide : 4 < 256))) fun v F hw => ?_
  obtain ⟨Z, P1, P2, P3, F0, F1, F2, F3, F4, F5, F6, F7, F8⟩ := F
  refine ⟨Z, (decodeRaw_0A p P1 P2 P3).trans ?_⟩
  simp [dec0A, F0, F1, F3, F4, xK, orCause, must, s.isLt]

theorem RoundTrip.sstat (p : Pfx) (x : KReg) (s : Fin 4) : RoundTrip.Statement (.sstat p x s) := by
  refine RoundTrip.of_word (w := sys p 10 x.val 0 3 s.val) rfl
    (sys_is p (by decide : 10 < 64) (Nat.lt_trans x.isLt (by decide : 16 < 64)) (by decide : 0 < 64) (by decide : 3 < 16) (Nat.lt_trans s.isLt (by decide : 4 < 256))) fun v F hw => ?_
  obtain ⟨Z, P1, P2, P3, F0, F1, F2, F3, F4, F5, F6, F7, F8⟩ := F
  refine ⟨Z, (decodeRaw_0A p P1 P2 P3).trans ?_⟩
  simp [dec0A, F0, F1, F3, F4, xK, orCause, must, s.isLt]

theorem RoundTrip.enq (p : Pfx) (x : KReg) (q : Fin 32) : RoundTrip.Statement (.enq p x q) := by
  refine RoundTrip.of_word (w := sys p 11 x.val 0 0 q.val) rfl
    (sys_is p (by decide : 11 < 64) (Nat.lt_trans x.isLt (by decide : 16 < 64)) (by decide : 0 < 64) (by decide : 0 < 16) (Nat.lt_trans q.isLt (by decide : 32 < 256))) fun v F hw => ?_
  obtain ⟨Z, P1, P2, P3, F0, F1, F2, F3, F4, F5, F6, F7, F8⟩ := F
  refine ⟨Z, (decodeRaw_0B p P1 P2 P3).trans ?_⟩
  simp only [Instr.wf] at hw
  simp [dec0B, F0, F1, F3, F4, xK, orCause, must, q.isLt]

theorem RoundTrip.add (p : Pfx) (d : Dst) (a : Src) (b : Src) (t : IType) : RoundTrip.Statement (.add p d a b t) := by
  refine RoundTrip.of_word (w := vr p 16 d.code a.code b.code 0 t.code) rfl
    (vr_is p (by decide : 16 < 64) d.code_lt a.code_lt b.code_lt (by decide : 0 < 8) t.code_lt) fun v F hw => ?_
  obtain ⟨Z, P1, P2, P3, F0, F1, F2, F3, F4, F5, F6, F7⟩ := F
  refine ⟨Z, (decodeRaw_10 p P1 P2 P3).trans ?_⟩
  simp [dec10, F0, F1, F2, F3, F4, dab, orCause]

theorem RoundTrip.sub (p : Pfx) (d : Dst) (a : Src) (b : Src) (t : IType) : RoundTrip.Statement (.sub p d a b t) := by
  refine RoundTrip.of_word (w := vr p 16 d.code a.code b.code 1 t.code) rfl
    (vr_is p (by decide : 16 < 64) d.code_lt a.code_lt b.code_lt (by decide : 1 < 8) t.code_lt) fun v F hw => ?_
  obtain ⟨Z, P1, P2, P3, F0, F1, F2, F3, F4, F5, F6, F7⟩ := F
  refine ⟨Z, (decodeRaw_10 p P1 P2 P3).trans ?_⟩
  simp [dec10, F0, F1, F2, F3, F4, dab, orCause]

theorem RoundTrip.min (p : Pfx) (d : Dst) (a : Src) (b : Src) (t : IType) : RoundTrip.Statement (.min p d a b t) := by
  refine RoundTrip.of_word (w := vr p 16 d.code a.code b.code 2 t.code) rfl
    (vr_is p (by decide : 16 < 64) d.code_lt a.code_lt b.code_lt (by decide : 2 < 8) t.code_lt) fun v F hw => ?_
  obtain ⟨Z, P1, P2, P3, F0, F1, F2, F3, F4, F5, F6, F7⟩ := F
  refine ⟨Z, (decodeRaw_10 p P1 P2 P3).trans ?_⟩
  simp [dec10, F0, F1, F2, F3, F4, dab, orCause]

theorem RoundTrip.max (p : Pfx) (d : Dst) (a : Src) (b : Src) (t : IType) : RoundTrip.Statement (.max p d a b t) := by
  refine RoundTrip.of_word (w := vr p 16 d.code a.code b.code 3 t.code) rfl
    (vr_is p (by decide : 16 < 64) d.code_lt a.code_lt b.code_lt (by decide : 3 < 8) t.code_lt) fun v F hw => ?_
  obtain ⟨Z, P1, P2, P3, F0, F1, F2, F3, F4, F5, F6, F7⟩ := F
  refine ⟨Z, (decodeRaw_10 p P1 P2 P3).trans ?_⟩
  simp [dec10, F0, F1, F2, F3, F4, dab, orCause]

theorem RoundTrip.and (p : Pfx) (d : Dst) (a : Src) (b : Src) : RoundTrip.Statement (.and p d a b) := by
  refine RoundTrip.of_word (w := vr p 16 d.code a.code b.code 4 2) rfl
    (vr_is p (by decide : 16 < 64) d.code_lt a.code_lt b.code_lt (by decide : 4 < 8) (by decide : 2 < 8)) fun v F hw => ?_
  obtain ⟨Z, P1, P2, P3, F0, F1, F2, F3, F4, F5, F6, F7⟩ := F
  refine ⟨Z, (decodeRaw_10 p P1 P2 P3).trans ?_⟩
  simp [dec10, F0, F1, F2, F3, F4, dab, orCause, must]

theorem RoundTrip.or (p : Pfx) (d : Dst) (a : Src) (b : Src) : RoundTrip.Statement (.or p d a b) := by
  refine RoundTrip.of_word (w := vr p 16 d.code a.code b.code 5 2) rfl
    (vr_is p (by decide : 16 < 64) d.code_lt a.code_lt b.code_lt (by decide : 5 < 8) (by decide : 2 < 8)) fun v F hw => ?_
  obtain ⟨Z, P1, P2, P3, F0, F1, F2, F3, F4, F5, F6, F7⟩ := F
  refine ⟨Z, (decodeRaw_10 p P1 P2 P3).trans ?_⟩
  simp [dec10, F0, F1, F2, F3, F4, dab, orCause, must]

theorem RoundTrip.xor (p : Pfx) (d : Dst) (a : Src) (b : Src) : RoundTrip.Statement (.xor p d a b) := by
  refine RoundTrip.of_word (w := vr p 16 d.code a.code b.code 6 2) rfl
    (vr_is p (by decide : 16 < 64) d.code_lt a.code_lt b.code_lt (by decide : 6 < 8) (by decide : 2 < 8)) fun v F hw => ?_
  obtain ⟨Z, P1, P2, P3, F0, F1, F2, F3, F4, F5, F6, F7⟩ := F
  refine ⟨Z, (decodeRaw_10 p P1 P2 P3).trans ?_⟩
  simp [dec10, F0, F1, F2, F3, F4, dab, orCause, must]

theorem RoundTrip.shl (p : Pfx) (d : Dst) (a : Src) (b : Src) : RoundTrip.Statement (.shl p d a b) := by
  refine RoundTrip.of_word (w := vr p 16 d.code a.code b.code 7 2) rfl
    (vr_is p (by decide : 16 < 64) d.code_lt a.code_lt b.code_lt (by decide : 7 < 8) (by decide : 2 < 8)) fun v F hw => ?_
  obtain ⟨Z, P1, P2, P3, F0, F1, F2, F3, F4, F5, F6, F7⟩ := F
  refine ⟨Z, (decodeRaw_10 p P1 P2 P3).trans ?_⟩
  simp [dec10, F0, F1, F2, F3, F4, dab, orCause]

theorem RoundTrip.shrS32 (p : Pfx) (d : Dst) (a : Src) (b : Src) : RoundTrip.Statement (.shrS32 p d a b) := by
  refine RoundTrip.of_word (w := vr p 16 d.code a.code b.code 7 0) rfl
    (vr_is p (by decide : 16 < 64) d.code_lt a.code_lt b.code_lt (by decide : 7 < 8) (by decide : 0 < 8)) fun v F hw => ?_
  obtain ⟨Z, P1, P2, P3, F0, F1, F2, F3, F4, F5, F6, F7⟩ := F
  refine ⟨Z, (decodeRaw_10 p P1 P2 P3).trans ?_⟩
  simp [dec10, F0, F1, F2, F3, F4, dab, orCause]

theorem RoundTrip.shrZ32 (p : Pfx) (d : Dst) (a : Src) (b : Src) : RoundTrip.Statement (.shrZ32 p d a b) := by
  refine RoundTrip.of_word (w := vr p 16 d.code a.code b.code 7 1) rfl
    (vr_is p (by decide : 16 < 64) d.code_lt a.code_lt b.code_lt (by decide : 7 < 8) (by decide : 1 < 8)) fun v F hw => ?_
  obtain ⟨Z, P1, P2, P3, F0, F1, F2, F3, F4, F5, F6, F7⟩ := F
  refine ⟨Z, (decodeRaw_10 p P1 P2 P3).trans ?_⟩
  simp [dec10, F0, F1, F2, F3, F4, dab, orCause]

theorem RoundTrip.addi (p : Pfx) (d : Dst) (a : Src) (i : BitVec 9) : RoundTrip.Statement (.addi p d a i) := by
  refine RoundTrip.of_word (w := vi p 17 d.code a.code 0 i.toNat) rfl
    (vi_is p (by decide : 17 < 64) d.code_lt a.code_lt (by decide : 0 < 8) i.isLt) fun v F hw => ?_
  obtain ⟨Z, P1, P2, P3, F0, F1, F2, F3⟩ := F
  refine ⟨Z, (decodeRaw_11 p P1 P2 P3).trans ?_⟩
  simp [dec11, F0, F1, F2, F3, daI, orCause]

theorem RoundTrip.andi (p : Pfx) (d : Dst) (a : Src) (i : BitVec 9) : RoundTrip.Statement (.andi p d a i) := by
  refine RoundTrip.of_word (w := vi p 17 d.code a.code 1 i.toNat) rfl
    (vi_is p (by decide : 17 < 64) d.code_lt a.code_lt (by decide : 1 < 8) i.isLt) fun v F hw => ?_
  obtain ⟨Z, P1, P2, P3, F0, F1, F2, F3⟩ := F
  refine ⟨Z, (decodeRaw_11 p P1 P2 P3).trans ?_⟩
  simp [dec11, F0, F1, F2, F3, daI, orCause]

theorem RoundTrip.ori (p : Pfx) (d : Dst) (a : Src) (i : BitVec 9) : RoundTrip.Statement (.ori p d a i) := by
  refine RoundTrip.of_word (w := vi p 17 d.code a.code 2 i.toNat) rfl
    (vi_is p (by decide : 17 < 64) d.code_lt a.code_lt (by decide : 2 < 8) i.isLt) fun v F hw => ?_
  obtain ⟨Z, P1, P2, P3, F0, F1, F2, F3⟩ := F
  refine ⟨Z, (decodeRaw_11 p P1 P2 P3).trans ?_⟩
  simp [dec11, F0, F1, F2, F3, daI, orCause]

theorem RoundTrip.xori (p : Pfx) (d : Dst) (a : Src) (i : BitVec 9) : RoundTrip.Statement (.xori p d a i) := by
  refine RoundTrip.of_word (w := vi p 17 d.code a.code 3 i.toNat) rfl
    (vi_is p (by decide : 17 < 64) d.code_lt a.code_lt (by decide : 3 < 8) i.isLt) fun v F hw => ?_
  obtain ⟨Z, P1, P2, P3, F0, F1, F2, F3⟩ := F
  refine ⟨Z, (decodeRaw_11 p P1 P2 P3).trans ?_⟩
  simp [dec11, F0, F1, F2, F3, daI, orCause]

theorem RoundTrip.shli (p : Pfx) (d : Dst) (a : Src) (i : Fin 32) : RoundTrip.Statement (.shli p d a i) := by
  refine RoundTrip.of_word (w := vi p 17 d.code a.code 4 i.val) rfl
    (vi_is p (by decide : 17 < 64) d.code_lt a.code_lt (by decide : 4 < 8) (Nat.lt_trans i.isLt (by decide : 32 < 512))) fun v F hw => ?_
  obtain ⟨Z, P1, P2, P3, F0, F1, F2, F3⟩ := F
  refine ⟨Z, (decodeRaw_11 p P1 P2 P3).trans ?_⟩
  simp [dec11, F0, F1, F2, F3, daI, orCause, must, i.isLt]

theorem RoundTrip.shriZ32 (p : Pfx) (d : Dst) (a : Src) (i : Fin 32) : RoundTrip.Statement (.shriZ32 p d a i) := by
  refine RoundTrip.of_word (w := vi p 17 d.code a.code 5 i.val) rfl
    (vi_is p (by decide : 17 < 64) d.code_lt a.code_lt (by decide : 5 < 8) (Nat.lt_trans i.isLt (by decide : 32 < 512))) fun v F hw => ?_
  obtain ⟨Z, P1, P2, P3, F0, F1, F2, F3⟩ := F
  refine ⟨Z, (decodeRaw_11 p P1 P2 P3).trans ?_⟩
  simp [dec11, F0, F1, F2, F3, daI, orCause, must, i.isLt]

theorem RoundTrip.shriS32 (p : Pfx) (d : Dst) (a : Src) (i : Fin 32) : RoundTrip.Statement (.shriS32 p d a i) := by
  refine RoundTrip.of_word (w := vi p 17 d.code a.code 6 i.val) rfl
    (vi_is p (by decide : 17 < 64) d.code_lt a.code_lt (by decide : 6 < 8) (Nat.lt_trans i.isLt (by decide : 32 < 512))) fun v F hw => ?_
  obtain ⟨Z, P1, P2, P3, F0, F1, F2, F3⟩ := F
  refine ⟨Z, (decodeRaw_11 p P1 P2 P3).trans ?_⟩
  simp [dec11, F0, F1, F2, F3, daI, orCause, must, i.isLt]

theorem RoundTrip.rsubi (p : Pfx) (d : Dst) (a : Src) (i : BitVec 9) : RoundTrip.Statement (.rsubi p d a i) := by
  refine RoundTrip.of_word (w := vi p 17 d.code a.code 7 i.toNat) rfl
    (vi_is p (by decide : 17 < 64) d.code_lt a.code_lt (by decide : 7 < 8) i.isLt) fun v F hw => ?_
  obtain ⟨Z, P1, P2, P3, F0, F1, F2, F3⟩ := F
  refine ⟨Z, (decodeRaw_11 p P1 P2 P3).trans ?_⟩
  simp [dec11, F0, F1, F2, F3, daI, orCause]

theorem RoundTrip.mul (p : Pfx) (d : Dst) (a : Src) (b : Src) : RoundTrip.Statement (.mul p d a b) := by
  refine RoundTrip.of_word (w := vr p 18 d.code a.code b.code 0 0) rfl
    (vr_is p (by decide : 18 < 64) d.code_lt a.code_lt b.code_lt (by decide : 0 < 8) (by decide : 0 < 8)) fun v F hw => ?_
  obtain ⟨Z, P1, P2, P3, F0, F1, F2, F3, F4, F5, F6, F7⟩ := F
  refine ⟨Z, (decodeRaw_12 p P1 P2 P3).trans ?_⟩
  simp [dec12, F0, F1, F2, F3, F4, dab, orCause, must]

theorem RoundTrip.mulhi (p : Pfx) (d : Dst) (a : Src) (b : Src) : RoundTrip.Statement (.mulhi p d a b) := by
  refine RoundTrip.of_word (w := vr p 18 d.code a.code b.code 1 0) rfl
    (vr_is p (by decide : 18 < 64) d.code_lt a.code_lt b.code_lt (by decide : 1 < 8) (by decide : 0 < 8)) fun v F hw => ?_
  obtain ⟨Z, P1, P2, P3, F0, F1, F2, F3, F4, F5, F6, F7⟩ := F
  refine ⟨Z, (decodeRaw_12 p P1 P2 P3).trans ?_⟩
  simp [dec12, F0, F1, F2, F3, F4, dab, orCause, must]

theorem RoundTrip.mulhz (p : Pfx) (d : Dst) (a : Src) (b : Src) : RoundTrip.Statement (.mulhz p d a b) := by
  refine RoundTrip.of_word (w := vr p 18 d.code a.code b.code 2 0) rfl
    (vr_is p (by decide : 18 < 64) d.code_lt a.code_lt b.code_lt (by decide : 2 < 8) (by decide : 0 < 8)) fun v F hw => ?_
  obtain ⟨Z, P1, P2, P3, F0, F1, F2, F3, F4, F5, F6, F7⟩ := F
  refine ⟨Z, (decodeRaw_12 p P1 P2 P3).trans ?_⟩
  simp [dec12, F0, F1, F2, F3, F4, dab, orCause, must]

theorem RoundTrip.div (p : Pfx) (d : Dst) (a : Src) (b : Src) : RoundTrip.Statement (.div p d a b) := by
  refine RoundTrip.of_word (w := vr p 18 d.code a.code b.code 3 0) rfl
    (vr_is p (by decide : 18 < 64) d.code_lt a.code_lt b.code_lt (by decide : 3 < 8) (by decide : 0 < 8)) fun v F hw => ?_
  obtain ⟨Z, P1, P2, P3, F0, F1, F2, F3, F4, F5, F6, F7⟩ := F
  refine ⟨Z, (decodeRaw_12 p P1 P2 P3).trans ?_⟩
  simp [dec12, F0, F1, F2, F3, F4, dab, orCause, must]

theorem RoundTrip.divz (p : Pfx) (d : Dst) (a : Src) (b : Src) : RoundTrip.Statement (.divz p d a b) := by
  refine RoundTrip.of_word (w := vr p 18 d.code a.code b.code 4 0) rfl
    (vr_is p (by decide : 18 < 64) d.code_lt a.code_lt b.code_lt (by decide : 4 < 8) (by decide : 0 < 8)) fun v F hw => ?_
  obtain ⟨Z, P1, P2, P3, F0, F1, F2, F3, F4, F5, F6, F7⟩ := F
  refine ⟨Z, (decodeRaw_12 p P1 P2 P3).trans ?_⟩
  simp [dec12, F0, F1, F2, F3, F4, dab, orCause, must]

theorem RoundTrip.rem (p : Pfx) (d : Dst) (a : Src) (b : Src) : RoundTrip.Statement (.rem p d a b) := by
  refine RoundTrip.of_word (w := vr p 18 d.code a.code b.code 5 0) rfl
    (vr_is p (by decide : 18 < 64) d.code_lt a.code_lt b.code_lt (by decide : 5 < 8) (by decide : 0 < 8)) fun v F hw => ?_
  obtain ⟨Z, P1, P2, P3, F0, F1, F2, F3, F4, F5, F6, F7⟩ := F
  refine ⟨Z, (decodeRaw_12 p P1 P2 P3).trans ?_⟩
  simp [dec12, F0, F1, F2, F3, F4, dab, orCause, must]

theorem RoundTrip.remz (p : Pfx) (d : Dst) (a : Src) (b : Src) : RoundTrip.Statement (.remz p d a b) := by
  refine RoundTrip.of_word (w := vr p 18 d.code a.code b.code 6 0) rfl
    (vr_is p (by decide : 18 < 64) d.code_lt a.code_lt b.code_lt (by decide : 6 < 8) (by decide : 0 < 8)) fun v F hw => ?_
  obtain ⟨Z, P1, P2, P3, F0, F1, F2, F3, F4, F5, F6, F7⟩ := F
  refine ⟨Z, (decodeRaw_12 p P1 P2 P3).trans ?_⟩
  simp [dec12, F0, F1, F2, F3, F4, dab, orCause, must]

theorem RoundTrip.popc (p : Pfx) (d : Dst) (a : Src) : RoundTrip.Statement (.popc p d a) := by
  refine RoundTrip.of_word (w := vr p 19 d.code a.code 60 0 0) rfl
    (vr_is p (by decide : 19 < 64) d.code_lt a.code_lt (by decide : 60 < 64) (by decide : 0 < 8) (by decide : 0 < 8)) fun v F hw => ?_
  obtain ⟨Z, P1, P2, P3, F0, F1, F2, F3, F4, F5, F6, F7⟩ := F
  refine ⟨Z, (decodeRaw_13 p P1 P2 P3).trans ?_⟩
  simp [dec13, F0, F1, F2, F3, F4, daz, orCause, must]

theorem RoundTrip.clz (p : Pfx) (d : Dst) (a : Src) : RoundTrip.Statement (.clz p d a) := by
  refine RoundTrip.of_word (w := vr p 19 d.code a.code 60 1 0) rfl
    (vr_is p (by decide : 19 < 64) d.code_lt a.code_lt (by decide : 60 < 64) (by decide : 1 < 8) (by decide : 0 < 8)) fun v F hw => ?_
  obtain ⟨Z, P1, P2, P3, F0, F1, F2, F3, F4, F5, F6, F7⟩ := F
  refine ⟨Z, (decodeRaw_13 p P1 P2 P3).trans ?_⟩
  simp [dec13, F0, F1, F2, F3, F4, daz, orCause, must]

theorem RoundTrip.brev (p : Pfx) (d : Dst) (a : Src) : RoundTrip.Statement (.brev p d a) := by
  refine RoundTrip.of_word (w := vr p 19 d.code a.code 60 2 0) rfl
    (vr_is p (by decide : 19 < 64) d.code_lt a.code_lt (by decide : 60 < 64) (by decide : 2 < 8) (by decide : 0 < 8)) fun v F hw => ?_
  obtain ⟨Z, P1, P2, P3, F0, F1, F2, F3, F4, F5, F6, F7⟩ := F
  refine ⟨Z, (decodeRaw_13 p P1 P2 P3).trans ?_⟩
  simp [dec13, F0, F1, F2, F3, F4, daz, orCause, must]

theorem RoundTrip.bfeZ32 (p : Pfx) (d : Dst) (a : Src) (b : Src) : RoundTrip.Statement (.bfeZ32 p d a b) := by
  refine RoundTrip.of_word (w := vr p 19 d.code a.code b.code 3 0) rfl
    (vr_is p (by decide : 19 < 64) d.code_lt a.code_lt b.code_lt (by decide : 3 < 8) (by decide : 0 < 8)) fun v F hw => ?_
  obtain ⟨Z, P1, P2, P3, F0, F1, F2, F3, F4, F5, F6, F7⟩ := F
  refine ⟨Z, (decodeRaw_13 p P1 P2 P3).trans ?_⟩
  simp [dec13, F0, F1, F2, F3, F4, dab, orCause, must]

theorem RoundTrip.bfeS32 (p : Pfx) (d : Dst) (a : Src) (b : Src) : RoundTrip.Statement (.bfeS32 p d a b) := by
  refine RoundTrip.of_word (w := vr p 19 d.code a.code b.code 4 0) rfl
    (vr_is p (by decide : 19 < 64) d.code_lt a.code_lt b.code_lt (by decide : 4 < 8) (by decide : 0 < 8)) fun v F hw => ?_
  obtain ⟨Z, P1, P2, P3, F0, F1, F2, F3, F4, F5, F6, F7⟩ := F
  refine ⟨Z, (decodeRaw_13 p P1 P2 P3).trans ?_⟩
  simp [dec13, F0, F1, F2, F3, F4, dab, orCause, must]

theorem RoundTrip.bfi (p : Pfx) (d : Dst) (a : Src) (b : Src) : RoundTrip.Statement (.bfi p d a b) := by
  refine RoundTrip.of_word (w := vr p 19 d.code a.code b.code 5 0) rfl
    (vr_is p (by decide : 19 < 64) d.code_lt a.code_lt b.code_lt (by decide : 5 < 8) (by decide : 0 < 8)) fun v F hw => ?_
  obtain ⟨Z, P1, P2, P3, F0, F1, F2, F3, F4, F5, F6, F7⟩ := F
  refine ⟨Z, (decodeRaw_13 p P1 P2 P3).trans ?_⟩
  simp [dec13, F0, F1, F2, F3, F4, dab, orCause, must]

theorem RoundTrip.cmp (p : Pfx) (d : MReg) (a : Src) (b : Src) (e : CmpOp) (u : Bool) : RoundTrip.Statement (.cmp p d a b e u) := by
  refine RoundTrip.of_word (w := vr p 20 d.val a.code b.code e.code (bit u)) rfl
    (vr_is p (by decide : 20 < 64) (Nat.lt_trans d.isLt (by decide : 4 < 64)) a.code_lt b.code_lt e.code_lt (Nat.lt_trans (bit_lt u) (by decide : 2 < 8))) fun v F hw => ?_
  obtain ⟨Z, P1, P2, P3, F0, F1, F2, F3, F4, F5, F6, F7⟩ := F
  refine ⟨Z, (decodeRaw_14 p P1 P2 P3).trans ?_⟩
  cases u <;>
    simp [dec14, F0, F1, F2, F3, F4, orCause, must, bit]

theorem RoundTrip.movi (p : Pfx) (d : Dst) (i : BitVec 9) : RoundTrip.Statement (.movi p d i) := by
  refine RoundTrip.of_word (w := vi p 21 d.code 60 0 i.toNat) rfl
    (vi_is p (by decide : 21 < 64) d.code_lt (by decide : 60 < 64) (by decide : 0 < 8) i.isLt) fun v F hw => ?_
  obtain ⟨Z, P1, P2, P3, F0, F1, F2, F3⟩ := F
  refine ⟨Z, (decodeRaw_15 p P1 P2 P3).trans ?_⟩
  simp [dec15, F0, F1, F2, F3, orCause]

theorem RoundTrip.mov (p : Pfx) (d : Dst) (a : Src) : RoundTrip.Statement (.mov p d a) := by
  refine RoundTrip.of_word (w := vi p 21 d.code a.code 1 0) rfl
    (vi_is p (by decide : 21 < 64) d.code_lt a.code_lt (by decide : 1 < 8) (by decide : 0 < 512)) fun v F hw => ?_
  obtain ⟨Z, P1, P2, P3, F0, F1, F2, F3⟩ := F
  refine ⟨Z, (decodeRaw_15 p P1 P2 P3).trans ?_⟩
  simp [dec15, F0, F1, F2, F3, daI, orCause, must]

theorem RoundTrip.sel (p : Pfx) (d : Dst) (a : Src) (m : MReg) : RoundTrip.Statement (.sel p d a m) := by
  refine RoundTrip.of_word (w := vi p 21 d.code a.code 2 m.val) rfl
    (vi_is p (by decide : 21 < 64) d.code_lt a.code_lt (by decide : 2 < 8) (Nat.lt_trans m.isLt (by decide : 4 < 512))) fun v F hw => ?_
  obtain ⟨Z, P1, P2, P3, F0, F1, F2, F3⟩ := F
  refine ⟨Z, (decodeRaw_15 p P1 P2 P3).trans ?_⟩
  simp [dec15, F0, F1, F2, F3, daI, orCause, must, m.isLt]

theorem RoundTrip.faddF32 (p : Pfx) (d : Dst) (a : Src) (b : Src) (r : Rnd) : RoundTrip.Statement (.faddF32 p d a b r) := by
  refine RoundTrip.of_word (w := vr p 22 d.code a.code b.code 0 r.code) rfl
    (vr_is p (by decide : 22 < 64) d.code_lt a.code_lt b.code_lt (by decide : 0 < 8) r.code_lt) fun v F hw => ?_
  obtain ⟨Z, P1, P2, P3, F0, F1, F2, F3, F4, F5, F6, F7⟩ := F
  refine ⟨Z, (decodeRaw_16 p P1 P2 P3).trans ?_⟩
  simp [dec16, F0, F1, F2, F3, F4, dab, orCause]

theorem RoundTrip.fsubF32 (p : Pfx) (d : Dst) (a : Src) (b : Src) (r : Rnd) : RoundTrip.Statement (.fsubF32 p d a b r) := by
  refine RoundTrip.of_word (w := vr p 22 d.code a.code b.code 1 r.code) rfl
    (vr_is p (by decide : 22 < 64) d.code_lt a.code_lt b.code_lt (by decide : 1 < 8) r.code_lt) fun v F hw => ?_
  obtain ⟨Z, P1, P2, P3, F0, F1, F2, F3, F4, F5, F6, F7⟩ := F
  refine ⟨Z, (decodeRaw_16 p P1 P2 P3).trans ?_⟩
  simp [dec16, F0, F1, F2, F3, F4, dab, orCause]

theorem RoundTrip.fmulF32 (p : Pfx) (d : Dst) (a : Src) (b : Src) (r : Rnd) : RoundTrip.Statement (.fmulF32 p d a b r) := by
  refine RoundTrip.of_word (w := vr p 22 d.code a.code b.code 2 r.code) rfl
    (vr_is p (by decide : 22 < 64) d.code_lt a.code_lt b.code_lt (by decide : 2 < 8) r.code_lt) fun v F hw => ?_
  obtain ⟨Z, P1, P2, P3, F0, F1, F2, F3, F4, F5, F6, F7⟩ := F
  refine ⟨Z, (decodeRaw_16 p P1 P2 P3).trans ?_⟩
  simp [dec16, F0, F1, F2, F3, F4, dab, orCause]

theorem RoundTrip.fminF32 (p : Pfx) (d : Dst) (a : Src) (b : Src) (r : Rnd) : RoundTrip.Statement (.fminF32 p d a b r) := by
  refine RoundTrip.of_word (w := vr p 22 d.code a.code b.code 3 r.code) rfl
    (vr_is p (by decide : 22 < 64) d.code_lt a.code_lt b.code_lt (by decide : 3 < 8) r.code_lt) fun v F hw => ?_
  obtain ⟨Z, P1, P2, P3, F0, F1, F2, F3, F4, F5, F6, F7⟩ := F
  refine ⟨Z, (decodeRaw_16 p P1 P2 P3).trans ?_⟩
  simp [dec16, F0, F1, F2, F3, F4, dab, orCause]

theorem RoundTrip.fmaxF32 (p : Pfx) (d : Dst) (a : Src) (b : Src) (r : Rnd) : RoundTrip.Statement (.fmaxF32 p d a b r) := by
  refine RoundTrip.of_word (w := vr p 22 d.code a.code b.code 4 r.code) rfl
    (vr_is p (by decide : 22 < 64) d.code_lt a.code_lt b.code_lt (by decide : 4 < 8) r.code_lt) fun v F hw => ?_
  obtain ⟨Z, P1, P2, P3, F0, F1, F2, F3, F4, F5, F6, F7⟩ := F
  refine ⟨Z, (decodeRaw_16 p P1 P2 P3).trans ?_⟩
  simp [dec16, F0, F1, F2, F3, F4, dab, orCause]

theorem RoundTrip.fabsF32 (p : Pfx) (d : Dst) (a : Src) (r : Rnd) : RoundTrip.Statement (.fabsF32 p d a r) := by
  refine RoundTrip.of_word (w := vr p 22 d.code a.code 60 5 r.code) rfl
    (vr_is p (by decide : 22 < 64) d.code_lt a.code_lt (by decide : 60 < 64) (by decide : 5 < 8) r.code_lt) fun v F hw => ?_
  obtain ⟨Z, P1, P2, P3, F0, F1, F2, F3, F4, F5, F6, F7⟩ := F
  refine ⟨Z, (decodeRaw_16 p P1 P2 P3).trans ?_⟩
  simp [dec16, F0, F1, F2, F3, F4, daz, orCause]

theorem RoundTrip.fnegF32 (p : Pfx) (d : Dst) (a : Src) (r : Rnd) : RoundTrip.Statement (.fnegF32 p d a r) := by
  refine RoundTrip.of_word (w := vr p 22 d.code a.code 60 6 r.code) rfl
    (vr_is p (by decide : 22 < 64) d.code_lt a.code_lt (by decide : 60 < 64) (by decide : 6 < 8) r.code_lt) fun v F hw => ?_
  obtain ⟨Z, P1, P2, P3, F0, F1, F2, F3, F4, F5, F6, F7⟩ := F
  refine ⟨Z, (decodeRaw_16 p P1 P2 P3).trans ?_⟩
  simp [dec16, F0, F1, F2, F3, F4, daz, orCause]

theorem RoundTrip.ffmaF32 (p : Pfx) (d : Dst) (a : Src) (b : Src) (u : Fin 16) : RoundTrip.Statement (.ffmaF32 p d a b u) := by
  refine RoundTrip.of_word (w := vf p 23 d.code a.code b.code (0 + u.val)) rfl
    (vf_is p (by decide : 23 < 64) d.code_lt a.code_lt b.code_lt (by have := u.isLt; omega)) fun v F hw => ?_
  obtain ⟨Z, P1, P2, P3, F0, F1, F2, F3, F4, F5, F6, F7⟩ := F
  refine ⟨Z, (decodeRaw_17 p P1 P2 P3).trans ?_⟩
  simp [dec17, F0, F1, F2, F6, F7, dab, orCause, Nat.mod_eq_of_lt u.isLt, show (u.val) / 16 = 0 by omega]

theorem RoundTrip.ffmsF32 (p : Pfx) (d : Dst) (a : Src) (b : Src) (u : Fin 16) : RoundTrip.Statement (.ffmsF32 p d a b u) := by
  refine RoundTrip.of_word (w := vf p 23 d.code a.code b.code (16 + u.val)) rfl
    (vf_is p (by decide : 23 < 64) d.code_lt a.code_lt b.code_lt (by have := u.isLt; omega)) fun v F hw => ?_
  obtain ⟨Z, P1, P2, P3, F0, F1, F2, F3, F4, F5, F6, F7⟩ := F
  refine ⟨Z, (decodeRaw_17 p P1 P2 P3).trans ?_⟩
  simp [dec17, F0, F1, F2, F6, F7, dab, orCause, show (16 + u.val) % 16 = u.val by omega, show (16 + u.val) / 16 = 1 by omega]

theorem RoundTrip.fnmaF32 (p : Pfx) (d : Dst) (a : Src) (b : Src) (u : Fin 16) : RoundTrip.Statement (.fnmaF32 p d a b u) := by
  refine RoundTrip.of_word (w := vf p 23 d.code a.code b.code (32 + u.val)) rfl
    (vf_is p (by decide : 23 < 64) d.code_lt a.code_lt b.code_lt (by have := u.isLt; omega)) fun v F hw => ?_
  obtain ⟨Z, P1, P2, P3, F0, F1, F2, F3, F4, F5, F6, F7⟩ := F
  refine ⟨Z, (decodeRaw_17 p P1 P2 P3).trans ?_⟩
  simp [dec17, F0, F1, F2, F6, F7, dab, orCause, show (32 + u.val) % 16 = u.val by omega, show (32 + u.val) / 16 = 2 by omega]

theorem RoundTrip.faddF16Bf16 (p : Pfx) (d : Dst) (a : Src) (b : Src) (t : HType) (r : Rnd) : RoundTrip.Statement (.faddF16Bf16 p d a b t r) := by
  refine RoundTrip.of_word (w := vr p 24 d.code a.code b.code (4 * t.code + 0) r.code) rfl
    (vr_is p (by decide : 24 < 64) d.code_lt a.code_lt b.code_lt (by have := t.code_lt; omega) r.code_lt) fun v F hw => ?_
  obtain ⟨Z, P1, P2, P3, F0, F1, F2, F3, F4, F5, F6, F7⟩ := F
  refine ⟨Z, (decodeRaw_18 p P1 P2 P3).trans ?_⟩
  cases t <;>
    simp [dec18, F0, F1, F2, F4, F5, F6, dab, orCause, HType.code]

theorem RoundTrip.fsubF16Bf16 (p : Pfx) (d : Dst) (a : Src) (b : Src) (t : HType) (r : Rnd) : RoundTrip.Statement (.fsubF16Bf16 p d a b t r) := by
  refine RoundTrip.of_word (w := vr p 24 d.code a.code b.code (4 * t.code + 1) r.code) rfl
    (vr_is p (by decide : 24 < 64) d.code_lt a.code_lt b.code_lt (by have := t.code_lt; omega) r.code_lt) fun v F hw => ?_
  obtain ⟨Z, P1, P2, P3, F0, F1, F2, F3, F4, F5, F6, F7⟩ := F
  refine ⟨Z, (decodeRaw_18 p P1 P2 P3).trans ?_⟩
  cases t <;>
    simp [dec18, F0, F1, F2, F4, F5, F6, dab, orCause, HType.code]

theorem RoundTrip.fmulF16Bf16 (p : Pfx) (d : Dst) (a : Src) (b : Src) (t : HType) (r : Rnd) : RoundTrip.Statement (.fmulF16Bf16 p d a b t r) := by
  refine RoundTrip.of_word (w := vr p 24 d.code a.code b.code (4 * t.code + 2) r.code) rfl
    (vr_is p (by decide : 24 < 64) d.code_lt a.code_lt b.code_lt (by have := t.code_lt; omega) r.code_lt) fun v F hw => ?_
  obtain ⟨Z, P1, P2, P3, F0, F1, F2, F3, F4, F5, F6, F7⟩ := F
  refine ⟨Z, (decodeRaw_18 p P1 P2 P3).trans ?_⟩
  cases t <;>
    simp [dec18, F0, F1, F2, F4, F5, F6, dab, orCause, HType.code]

theorem RoundTrip.ffmaF16Bf16 (p : Pfx) (d : Dst) (a : Src) (b : Src) (t : HType) (u : Fin 16) : RoundTrip.Statement (.ffmaF16Bf16 p d a b t u) := by
  refine RoundTrip.of_word (w := vf p 25 d.code a.code b.code (16 * t.code + u.val)) rfl
    (vf_is p (by decide : 25 < 64) d.code_lt a.code_lt b.code_lt (by have := t.code_lt; have := u.isLt; omega)) fun v F hw => ?_
  obtain ⟨Z, P1, P2, P3, F0, F1, F2, F3, F4, F5, F6, F7⟩ := F
  refine ⟨Z, (decodeRaw_19 p P1 P2 P3).trans ?_⟩
  cases t <;>
    simp [dec19, F0, F1, F2, F6, F7, dab, orCause, Nat.mod_eq_of_lt u.isLt, show (u.val) / 16 = 0 by omega, show (16 + u.val) % 16 = u.val by omega, show (16 + u.val) / 16 = 1 by omega, HType.code]

theorem RoundTrip.ffmsF16Bf16 (p : Pfx) (d : Dst) (a : Src) (b : Src) (t : HType) (u : Fin 16) : RoundTrip.Statement (.ffmsF16Bf16 p d a b t u) := by
  refine RoundTrip.of_word (w := vf p 25 d.code a.code b.code (32 + 16 * t.code + u.val)) rfl
    (vf_is p (by decide : 25 < 64) d.code_lt a.code_lt b.code_lt (by have := t.code_lt; have := u.isLt; omega)) fun v F hw => ?_
  obtain ⟨Z, P1, P2, P3, F0, F1, F2, F3, F4, F5, F6, F7⟩ := F
  refine ⟨Z, (decodeRaw_19 p P1 P2 P3).trans ?_⟩
  cases t <;>
    simp [dec19, F0, F1, F2, F6, F7, dab, orCause, show (32 + u.val) % 16 = u.val by omega, show (32 + u.val) / 16 = 2 by omega, show (48 + u.val) % 16 = u.val by omega, show (48 + u.val) / 16 = 3 by omega, HType.code]

theorem RoundTrip.faddF64 (p : Pfx) (d : NReg) (a : PSrc) (b : PSrc) (r : Rnd) : RoundTrip.Statement (.faddF64 p d a b r) := by
  refine RoundTrip.of_word (w := vr p 26 d.val a.code b.code 0 r.code) rfl
    (vr_is p (by decide : 26 < 64) (Nat.lt_trans d.isLt (by decide : 32 < 64)) a.code_lt b.code_lt (by decide : 0 < 8) r.code_lt) fun v F hw => ?_
  obtain ⟨Z, P1, P2, P3, F0, F1, F2, F3, F4, F5, F6, F7⟩ := F
  refine ⟨Z, (decodeRaw_1A p P1 P2 P3).trans ?_⟩
  simp only [Instr.wf, Bool.and_eq_true] at hw
  simp [dec1A, F0, F1, F2, F3, F4, dabP, orCause]

theorem RoundTrip.fsubF64 (p : Pfx) (d : NReg) (a : PSrc) (b : PSrc) (r : Rnd) : RoundTrip.Statement (.fsubF64 p d a b r) := by
  refine RoundTrip.of_word (w := vr p 26 d.val a.code b.code 1 r.code) rfl
    (vr_is p (by decide : 26 < 64) (Nat.lt_trans d.isLt (by decide : 32 < 64)) a.code_lt b.code_lt (by decide : 1 < 8) r.code_lt) fun v F hw => ?_
  obtain ⟨Z, P1, P2, P3, F0, F1, F2, F3, F4, F5, F6, F7⟩ := F
  refine ⟨Z, (decodeRaw_1A p P1 P2 P3).trans ?_⟩
  simp only [Instr.wf, Bool.and_eq_true] at hw
  simp [dec1A, F0, F1, F2, F3, F4, dabP, orCause]

theorem RoundTrip.fmulF64 (p : Pfx) (d : NReg) (a : PSrc) (b : PSrc) (r : Rnd) : RoundTrip.Statement (.fmulF64 p d a b r) := by
  refine RoundTrip.of_word (w := vr p 26 d.val a.code b.code 2 r.code) rfl
    (vr_is p (by decide : 26 < 64) (Nat.lt_trans d.isLt (by decide : 32 < 64)) a.code_lt b.code_lt (by decide : 2 < 8) r.code_lt) fun v F hw => ?_
  obtain ⟨Z, P1, P2, P3, F0, F1, F2, F3, F4, F5, F6, F7⟩ := F
  refine ⟨Z, (decodeRaw_1A p P1 P2 P3).trans ?_⟩
  simp only [Instr.wf, Bool.and_eq_true] at hw
  simp [dec1A, F0, F1, F2, F3, F4, dabP, orCause]

theorem RoundTrip.ffmaF64 (p : Pfx) (d : NReg) (a : PSrc) (b : PSrc) (r : Rnd) : RoundTrip.Statement (.ffmaF64 p d a b r) := by
  refine RoundTrip.of_word (w := vr p 26 d.val a.code b.code 3 r.code) rfl
    (vr_is p (by decide : 26 < 64) (Nat.lt_trans d.isLt (by decide : 32 < 64)) a.code_lt b.code_lt (by decide : 3 < 8) r.code_lt) fun v F hw => ?_
  obtain ⟨Z, P1, P2, P3, F0, F1, F2, F3, F4, F5, F6, F7⟩ := F
  refine ⟨Z, (decodeRaw_1A p P1 P2 P3).trans ?_⟩
  simp only [Instr.wf, Bool.and_eq_true] at hw
  simp [dec1A, F0, F1, F2, F3, F4, dabP, orCause]

theorem RoundTrip.fminF64 (p : Pfx) (d : NReg) (a : PSrc) (b : PSrc) (r : Rnd) : RoundTrip.Statement (.fminF64 p d a b r) := by
  refine RoundTrip.of_word (w := vr p 26 d.val a.code b.code 4 r.code) rfl
    (vr_is p (by decide : 26 < 64) (Nat.lt_trans d.isLt (by decide : 32 < 64)) a.code_lt b.code_lt (by decide : 4 < 8) r.code_lt) fun v F hw => ?_
  obtain ⟨Z, P1, P2, P3, F0, F1, F2, F3, F4, F5, F6, F7⟩ := F
  refine ⟨Z, (decodeRaw_1A p P1 P2 P3).trans ?_⟩
  simp only [Instr.wf, Bool.and_eq_true] at hw
  simp [dec1A, F0, F1, F2, F3, F4, dabP, orCause]

theorem RoundTrip.fmaxF64 (p : Pfx) (d : NReg) (a : PSrc) (b : PSrc) (r : Rnd) : RoundTrip.Statement (.fmaxF64 p d a b r) := by
  refine RoundTrip.of_word (w := vr p 26 d.val a.code b.code 5 r.code) rfl
    (vr_is p (by decide : 26 < 64) (Nat.lt_trans d.isLt (by decide : 32 < 64)) a.code_lt b.code_lt (by decide : 5 < 8) r.code_lt) fun v F hw => ?_
  obtain ⟨Z, P1, P2, P3, F0, F1, F2, F3, F4, F5, F6, F7⟩ := F
  refine ⟨Z, (decodeRaw_1A p P1 P2 P3).trans ?_⟩
  simp only [Instr.wf, Bool.and_eq_true] at hw
  simp [dec1A, F0, F1, F2, F3, F4, dabP, orCause]

theorem RoundTrip.rcp (p : Pfx) (d : Dst) (a : Src) (r : Rnd) : RoundTrip.Statement (.rcp p d a r) := by
  refine RoundTrip.of_word (w := vr p 27 d.code a.code 60 0 r.code) rfl
    (vr_is p (by decide : 27 < 64) d.code_lt a.code_lt (by decide : 60 < 64) (by decide : 0 < 8) r.code_lt) fun v F hw => ?_
  obtain ⟨Z, P1, P2, P3, F0, F1, F2, F3, F4, F5, F6, F7⟩ := F
  refine ⟨Z, (decodeRaw_1B p P1 P2 P3).trans ?_⟩
  simp [dec1B, F0, F1, F2, F3, F4, daz, orCause]

theorem RoundTrip.rsq (p : Pfx) (d : Dst) (a : Src) (r : Rnd) : RoundTrip.Statement (.rsq p d a r) := by
  refine RoundTrip.of_word (w := vr p 27 d.code a.code 60 1 r.code) rfl
    (vr_is p (by decide : 27 < 64) d.code_lt a.code_lt (by decide : 60 < 64) (by decide : 1 < 8) r.code_lt) fun v F hw => ?_
  obtain ⟨Z, P1, P2, P3, F0, F1, F2, F3, F4, F5, F6, F7⟩ := F
  refine ⟨Z, (decodeRaw_1B p P1 P2 P3).trans ?_⟩
  simp [dec1B, F0, F1, F2, F3, F4, daz, orCause]

theorem RoundTrip.sqrt (p : Pfx) (d : Dst) (a : Src) (r : Rnd) : RoundTrip.Statement (.sqrt p d a r) := by
  refine RoundTrip.of_word (w := vr p 27 d.code a.code 60 2 r.code) rfl
    (vr_is p (by decide : 27 < 64) d.code_lt a.code_lt (by decide : 60 < 64) (by decide : 2 < 8) r.code_lt) fun v F hw => ?_
  obtain ⟨Z, P1, P2, P3, F0, F1, F2, F3, F4, F5, F6, F7⟩ := F
  refine ⟨Z, (decodeRaw_1B p P1 P2 P3).trans ?_⟩
  simp [dec1B, F0, F1, F2, F3, F4, daz, orCause]

theorem RoundTrip.exp2 (p : Pfx) (d : Dst) (a : Src) (r : Rnd) : RoundTrip.Statement (.exp2 p d a r) := by
  refine RoundTrip.of_word (w := vr p 27 d.code a.code 60 3 r.code) rfl
    (vr_is p (by decide : 27 < 64) d.code_lt a.code_lt (by decide : 60 < 64) (by decide : 3 < 8) r.code_lt) fun v F hw => ?_
  obtain ⟨Z, P1, P2, P3, F0, F1, F2, F3, F4, F5, F6, F7⟩ := F
  refine ⟨Z, (decodeRaw_1B p P1 P2 P3).trans ?_⟩
  simp [dec1B, F0, F1, F2, F3, F4, daz, orCause]

theorem RoundTrip.log2 (p : Pfx) (d : Dst) (a : Src) (r : Rnd) : RoundTrip.Statement (.log2 p d a r) := by
  refine RoundTrip.of_word (w := vr p 27 d.code a.code 60 4 r.code) rfl
    (vr_is p (by decide : 27 < 64) d.code_lt a.code_lt (by decide : 60 < 64) (by decide : 4 < 8) r.code_lt) fun v F hw => ?_
  obtain ⟨Z, P1, P2, P3, F0, F1, F2, F3, F4, F5, F6, F7⟩ := F
  refine ⟨Z, (decodeRaw_1B p P1 P2 P3).trans ?_⟩
  simp [dec1B, F0, F1, F2, F3, F4, daz, orCause]

theorem RoundTrip.sin (p : Pfx) (d : Dst) (a : Src) (r : Rnd) : RoundTrip.Statement (.sin p d a r) := by
  refine RoundTrip.of_word (w := vr p 27 d.code a.code 60 5 r.code) rfl
    (vr_is p (by decide : 27 < 64) d.code_lt a.code_lt (by decide : 60 < 64) (by decide : 5 < 8) r.code_lt) fun v F hw => ?_
  obtain ⟨Z, P1, P2, P3, F0, F1, F2, F3, F4, F5, F6, F7⟩ := F
  refine ⟨Z, (decodeRaw_1B p P1 P2 P3).trans ?_⟩
  simp [dec1B, F0, F1, F2, F3, F4, daz, orCause]

theorem RoundTrip.cos (p : Pfx) (d : Dst) (a : Src) (r : Rnd) : RoundTrip.Statement (.cos p d a r) := by
  refine RoundTrip.of_word (w := vr p 27 d.code a.code 60 6 r.code) rfl
    (vr_is p (by decide : 27 < 64) d.code_lt a.code_lt (by decide : 60 < 64) (by decide : 6 < 8) r.code_lt) fun v F hw => ?_
  obtain ⟨Z, P1, P2, P3, F0, F1, F2, F3, F4, F5, F6, F7⟩ := F
  refine ⟨Z, (decodeRaw_1B p P1 P2 P3).trans ?_⟩
  simp [dec1B, F0, F1, F2, F3, F4, daz, orCause]

theorem RoundTrip.cvtF32F16 (p : Pfx) (d : Dst) (a : Src) : RoundTrip.Statement (.cvtF32F16 p d a) := by
  refine RoundTrip.of_word (w := vf p 28 d.code a.code 60 0) rfl
    (vf_is p (by decide : 28 < 64) d.code_lt a.code_lt (by decide : 60 < 64) (by decide : 0 < 64)) fun v F hw => ?_
  obtain ⟨Z, P1, P2, P3, F0, F1, F2, F3, F4, F5, F6, F7⟩ := F
  refine ⟨Z, (decodeRaw_1C p P1 P2 P3).trans ?_⟩
  simp [dec1C, F0, F1, F2, F4, F5, daz, orCause, must]

theorem RoundTrip.cvtF32Bf16 (p : Pfx) (d : Dst) (a : Src) : RoundTrip.Statement (.cvtF32Bf16 p d a) := by
  refine RoundTrip.of_word (w := vf p 28 d.code a.code 60 1) rfl
    (vf_is p (by decide : 28 < 64) d.code_lt a.code_lt (by decide : 60 < 64) (by decide : 1 < 64)) fun v F hw => ?_
  obtain ⟨Z, P1, P2, P3, F0, F1, F2, F3, F4, F5, F6, F7⟩ := F
  refine ⟨Z, (decodeRaw_1C p P1 P2 P3).trans ?_⟩
  simp [dec1C, F0, F1, F2, F4, F5, daz, orCause, must]

theorem RoundTrip.cvtF16F32 (p : Pfx) (d : Dst) (a : Src) : RoundTrip.Statement (.cvtF16F32 p d a) := by
  refine RoundTrip.of_word (w := vf p 28 d.code a.code 60 2) rfl
    (vf_is p (by decide : 28 < 64) d.code_lt a.code_lt (by decide : 60 < 64) (by decide : 2 < 64)) fun v F hw => ?_
  obtain ⟨Z, P1, P2, P3, F0, F1, F2, F3, F4, F5, F6, F7⟩ := F
  refine ⟨Z, (decodeRaw_1C p P1 P2 P3).trans ?_⟩
  simp [dec1C, F0, F1, F2, F4, F5, daz, orCause, must]

theorem RoundTrip.cvtBf16F32 (p : Pfx) (d : Dst) (a : Src) : RoundTrip.Statement (.cvtBf16F32 p d a) := by
  refine RoundTrip.of_word (w := vf p 28 d.code a.code 60 3) rfl
    (vf_is p (by decide : 28 < 64) d.code_lt a.code_lt (by decide : 60 < 64) (by decide : 3 < 64)) fun v F hw => ?_
  obtain ⟨Z, P1, P2, P3, F0, F1, F2, F3, F4, F5, F6, F7⟩ := F
  refine ⟨Z, (decodeRaw_1C p P1 P2 P3).trans ?_⟩
  simp [dec1C, F0, F1, F2, F4, F5, daz, orCause, must]

theorem RoundTrip.cvtF64F32 (p : Pfx) (d : NReg) (a : Src) : RoundTrip.Statement (.cvtF64F32 p d a) := by
  refine RoundTrip.of_word (w := vf p 28 d.val a.code 60 4) rfl
    (vf_is p (by decide : 28 < 64) (Nat.lt_trans d.isLt (by decide : 32 < 64)) a.code_lt (by decide : 60 < 64) (by decide : 4 < 64)) fun v F hw => ?_
  obtain ⟨Z, P1, P2, P3, F0, F1, F2, F3, F4, F5, F6, F7⟩ := F
  refine ⟨Z, (decodeRaw_1C p P1 P2 P3).trans ?_⟩
  simp only [Instr.wf] at hw
  simp [dec1C, F0, F1, F2, F4, F5, orCause, must]

theorem RoundTrip.cvtF32F64 (p : Pfx) (d : Dst) (a : PSrc) : RoundTrip.Statement (.cvtF32F64 p d a) := by
  refine RoundTrip.of_word (w := vf p 28 d.code a.code 60 5) rfl
    (vf_is p (by decide : 28 < 64) d.code_lt a.code_lt (by decide : 60 < 64) (by decide : 5 < 64)) fun v F hw => ?_
  obtain ⟨Z, P1, P2, P3, F0, F1, F2, F3, F4, F5, F6, F7⟩ := F
  refine ⟨Z, (decodeRaw_1C p P1 P2 P3).trans ?_⟩
  simp only [Instr.wf] at hw
  simp [dec1C, F0, F1, F2, F4, F5, orCause, must]

theorem RoundTrip.cvtE4m3F32 (p : Pfx) (d : Dst) (a : Src) (b : Src) (x : Bool) : RoundTrip.Statement (.cvtE4m3F32 p d a b x) := by
  refine RoundTrip.of_word (w := vf p 28 d.code a.code b.code (32 * bit x + 6)) rfl
    (vf_is p (by decide : 28 < 64) d.code_lt a.code_lt b.code_lt (by have := bit_lt x; omega)) fun v F hw => ?_
  obtain ⟨Z, P1, P2, P3, F0, F1, F2, F3, F4, F5, F6, F7⟩ := F
  refine ⟨Z, (decodeRaw_1C p P1 P2 P3).trans ?_⟩
  cases x <;>
    simp [dec1C, F0, F1, F2, F4, F5, dab, orCause, bit]

theorem RoundTrip.cvtE5m2F32 (p : Pfx) (d : Dst) (a : Src) (b : Src) (x : Bool) : RoundTrip.Statement (.cvtE5m2F32 p d a b x) := by
  refine RoundTrip.of_word (w := vf p 28 d.code a.code b.code (32 * bit x + 7)) rfl
    (vf_is p (by decide : 28 < 64) d.code_lt a.code_lt b.code_lt (by have := bit_lt x; omega)) fun v F hw => ?_
  obtain ⟨Z, P1, P2, P3, F0, F1, F2, F3, F4, F5, F6, F7⟩ := F
  refine ⟨Z, (decodeRaw_1C p P1 P2 P3).trans ?_⟩
  cases x <;>
    simp [dec1C, F0, F1, F2, F4, F5, dab, orCause, bit]

theorem RoundTrip.cvtF32E4m3 (p : Pfx) (d : Dst) (a : Src) (b : Src) : RoundTrip.Statement (.cvtF32E4m3 p d a b) := by
  refine RoundTrip.of_word (w := vf p 28 d.code a.code b.code 8) rfl
    (vf_is p (by decide : 28 < 64) d.code_lt a.code_lt b.code_lt (by decide : 8 < 64)) fun v F hw => ?_
  obtain ⟨Z, P1, P2, P3, F0, F1, F2, F3, F4, F5, F6, F7⟩ := F
  refine ⟨Z, (decodeRaw_1C p P1 P2 P3).trans ?_⟩
  simp [dec1C, F0, F1, F2, F4, F5, dab, orCause, must]

theorem RoundTrip.cvtF32E5m2 (p : Pfx) (d : Dst) (a : Src) (b : Src) : RoundTrip.Statement (.cvtF32E5m2 p d a b) := by
  refine RoundTrip.of_word (w := vf p 28 d.code a.code b.code 9) rfl
    (vf_is p (by decide : 28 < 64) d.code_lt a.code_lt b.code_lt (by decide : 9 < 64)) fun v F hw => ?_
  obtain ⟨Z, P1, P2, P3, F0, F1, F2, F3, F4, F5, F6, F7⟩ := F
  refine ⟨Z, (decodeRaw_1C p P1 P2 P3).trans ?_⟩
  simp [dec1C, F0, F1, F2, F4, F5, dab, orCause, must]

theorem RoundTrip.cvtL8F32 (p : Pfx) (d : Dst) (a : Src) (b : Src) (x : Bool) : RoundTrip.Statement (.cvtL8F32 p d a b x) := by
  refine RoundTrip.of_word (w := vf p 28 d.code a.code b.code (32 * bit x + 10)) rfl
    (vf_is p (by decide : 28 < 64) d.code_lt a.code_lt b.code_lt (by have := bit_lt x; omega)) fun v F hw => ?_
  obtain ⟨Z, P1, P2, P3, F0, F1, F2, F3, F4, F5, F6, F7⟩ := F
  refine ⟨Z, (decodeRaw_1C p P1 P2 P3).trans ?_⟩
  cases x <;>
    simp [dec1C, F0, F1, F2, F4, F5, dab, orCause, bit]

theorem RoundTrip.cvtL16F32 (p : Pfx) (d : Dst) (a : Src) (b : Src) (x : Bool) : RoundTrip.Statement (.cvtL16F32 p d a b x) := by
  refine RoundTrip.of_word (w := vf p 28 d.code a.code b.code (32 * bit x + 11)) rfl
    (vf_is p (by decide : 28 < 64) d.code_lt a.code_lt b.code_lt (by have := bit_lt x; omega)) fun v F hw => ?_
  obtain ⟨Z, P1, P2, P3, F0, F1, F2, F3, F4, F5, F6, F7⟩ := F
  refine ⟨Z, (decodeRaw_1C p P1 P2 P3).trans ?_⟩
  cases x <;>
    simp [dec1C, F0, F1, F2, F4, F5, dab, orCause, bit]

theorem RoundTrip.cvtF32L8 (p : Pfx) (d : Dst) (a : Src) (b : Src) : RoundTrip.Statement (.cvtF32L8 p d a b) := by
  refine RoundTrip.of_word (w := vf p 28 d.code a.code b.code 12) rfl
    (vf_is p (by decide : 28 < 64) d.code_lt a.code_lt b.code_lt (by decide : 12 < 64)) fun v F hw => ?_
  obtain ⟨Z, P1, P2, P3, F0, F1, F2, F3, F4, F5, F6, F7⟩ := F
  refine ⟨Z, (decodeRaw_1C p P1 P2 P3).trans ?_⟩
  simp [dec1C, F0, F1, F2, F4, F5, dab, orCause, must]

theorem RoundTrip.cvtF32L16 (p : Pfx) (d : Dst) (a : Src) (b : Src) : RoundTrip.Statement (.cvtF32L16 p d a b) := by
  refine RoundTrip.of_word (w := vf p 28 d.code a.code b.code 13) rfl
    (vf_is p (by decide : 28 < 64) d.code_lt a.code_lt b.code_lt (by decide : 13 < 64)) fun v F hw => ?_
  obtain ⟨Z, P1, P2, P3, F0, F1, F2, F3, F4, F5, F6, F7⟩ := F
  refine ⟨Z, (decodeRaw_1C p P1 P2 P3).trans ?_⟩
  simp [dec1C, F0, F1, F2, F4, F5, dab, orCause, must]

theorem RoundTrip.cvtQ8F32 (p : Pfx) (d : Dst) (a : Src) (b : Src) (x : Bool) : RoundTrip.Statement (.cvtQ8F32 p d a b x) := by
  refine RoundTrip.of_word (w := vf p 28 d.code a.code b.code (32 * bit x + 14)) rfl
    (vf_is p (by decide : 28 < 64) d.code_lt a.code_lt b.code_lt (by have := bit_lt x; omega)) fun v F hw => ?_
  obtain ⟨Z, P1, P2, P3, F0, F1, F2, F3, F4, F5, F6, F7⟩ := F
  refine ⟨Z, (decodeRaw_1C p P1 P2 P3).trans ?_⟩
  cases x <;>
    simp [dec1C, F0, F1, F2, F4, F5, dab, orCause, bit]

theorem RoundTrip.cvtQ4F32 (p : Pfx) (d : Dst) (a : Src) (b : Src) (x : Bool) : RoundTrip.Statement (.cvtQ4F32 p d a b x) := by
  refine RoundTrip.of_word (w := vf p 28 d.code a.code b.code (32 * bit x + 15)) rfl
    (vf_is p (by decide : 28 < 64) d.code_lt a.code_lt b.code_lt (by have := bit_lt x; omega)) fun v F hw => ?_
  obtain ⟨Z, P1, P2, P3, F0, F1, F2, F3, F4, F5, F6, F7⟩ := F
  refine ⟨Z, (decodeRaw_1C p P1 P2 P3).trans ?_⟩
  cases x <;>
    simp [dec1C, F0, F1, F2, F4, F5, dab, orCause, bit]

theorem RoundTrip.cvtF32Q8 (p : Pfx) (d : Dst) (a : Src) (b : Src) : RoundTrip.Statement (.cvtF32Q8 p d a b) := by
  refine RoundTrip.of_word (w := vf p 28 d.code a.code b.code 16) rfl
    (vf_is p (by decide : 28 < 64) d.code_lt a.code_lt b.code_lt (by decide : 16 < 64)) fun v F hw => ?_
  obtain ⟨Z, P1, P2, P3, F0, F1, F2, F3, F4, F5, F6, F7⟩ := F
  refine ⟨Z, (decodeRaw_1C p P1 P2 P3).trans ?_⟩
  simp [dec1C, F0, F1, F2, F4, F5, dab, orCause, must]

theorem RoundTrip.cvtF32Q4 (p : Pfx) (d : Dst) (a : Src) (b : Src) : RoundTrip.Statement (.cvtF32Q4 p d a b) := by
  refine RoundTrip.of_word (w := vf p 28 d.code a.code b.code 17) rfl
    (vf_is p (by decide : 28 < 64) d.code_lt a.code_lt b.code_lt (by decide : 17 < 64)) fun v F hw => ?_
  obtain ⟨Z, P1, P2, P3, F0, F1, F2, F3, F4, F5, F6, F7⟩ := F
  refine ⟨Z, (decodeRaw_1C p P1 P2 P3).trans ?_⟩
  simp [dec1C, F0, F1, F2, F4, F5, dab, orCause, must]

theorem RoundTrip.cvtS32F32 (p : Pfx) (d : Dst) (a : Src) : RoundTrip.Statement (.cvtS32F32 p d a) := by
  refine RoundTrip.of_word (w := vf p 28 d.code a.code 60 18) rfl
    (vf_is p (by decide : 28 < 64) d.code_lt a.code_lt (by decide : 60 < 64) (by decide : 18 < 64)) fun v F hw => ?_
  obtain ⟨Z, P1, P2, P3, F0, F1, F2, F3, F4, F5, F6, F7⟩ := F
  refine ⟨Z, (decodeRaw_1C p P1 P2 P3).trans ?_⟩
  simp [dec1C, F0, F1, F2, F4, F5, daz, orCause, must]

theorem RoundTrip.cvtS32F32Rz (p : Pfx) (d : Dst) (a : Src) : RoundTrip.Statement (.cvtS32F32Rz p d a) := by
  refine RoundTrip.of_word (w := vf p 28 d.code a.code 60 19) rfl
    (vf_is p (by decide : 28 < 64) d.code_lt a.code_lt (by decide : 60 < 64) (by decide : 19 < 64)) fun v F hw => ?_
  obtain ⟨Z, P1, P2, P3, F0, F1, F2, F3, F4, F5, F6, F7⟩ := F
  refine ⟨Z, (decodeRaw_1C p P1 P2 P3).trans ?_⟩
  simp [dec1C, F0, F1, F2, F4, F5, daz, orCause, must]

theorem RoundTrip.cvtZ32F32 (p : Pfx) (d : Dst) (a : Src) : RoundTrip.Statement (.cvtZ32F32 p d a) := by
  refine RoundTrip.of_word (w := vf p 28 d.code a.code 60 20) rfl
    (vf_is p (by decide : 28 < 64) d.code_lt a.code_lt (by decide : 60 < 64) (by decide : 20 < 64)) fun v F hw => ?_
  obtain ⟨Z, P1, P2, P3, F0, F1, F2, F3, F4, F5, F6, F7⟩ := F
  refine ⟨Z, (decodeRaw_1C p P1 P2 P3).trans ?_⟩
  simp [dec1C, F0, F1, F2, F4, F5, daz, orCause, must]

theorem RoundTrip.cvtF32S32 (p : Pfx) (d : Dst) (a : Src) : RoundTrip.Statement (.cvtF32S32 p d a) := by
  refine RoundTrip.of_word (w := vf p 28 d.code a.code 60 21) rfl
    (vf_is p (by decide : 28 < 64) d.code_lt a.code_lt (by decide : 60 < 64) (by decide : 21 < 64)) fun v F hw => ?_
  obtain ⟨Z, P1, P2, P3, F0, F1, F2, F3, F4, F5, F6, F7⟩ := F
  refine ⟨Z, (decodeRaw_1C p P1 P2 P3).trans ?_⟩
  simp [dec1C, F0, F1, F2, F4, F5, daz, orCause, must]

theorem RoundTrip.cvtF32Z32 (p : Pfx) (d : Dst) (a : Src) : RoundTrip.Statement (.cvtF32Z32 p d a) := by
  refine RoundTrip.of_word (w := vf p 28 d.code a.code 60 22) rfl
    (vf_is p (by decide : 28 < 64) d.code_lt a.code_lt (by decide : 60 < 64) (by decide : 22 < 64)) fun v F hw => ?_
  obtain ⟨Z, P1, P2, P3, F0, F1, F2, F3, F4, F5, F6, F7⟩ := F
  refine ⟨Z, (decodeRaw_1C p P1 P2 P3).trans ?_⟩
  simp [dec1C, F0, F1, F2, F4, F5, daz, orCause, must]

theorem RoundTrip.sacc (p : Pfx) (d : Dst) (a : Src) (b : Src) (e : Src) : RoundTrip.Statement (.sacc p d a b e) := by
  refine RoundTrip.of_word (w := vf p 29 d.code a.code b.code e.code) rfl
    (vf_is p (by decide : 29 < 64) d.code_lt a.code_lt b.code_lt e.code_lt) fun v F hw => ?_
  obtain ⟨Z, P1, P2, P3, F0, F1, F2, F3, F4, F5, F6, F7⟩ := F
  refine ⟨Z, (decodeRaw_1D p P1 P2 P3).trans ?_⟩
  simp [dec1D, F0, F1, F2, F3, orCause]

theorem RoundTrip.shflIdx (p : Pfx) (d : Dst) (a : Src) (b : Src) : RoundTrip.Statement (.shflIdx p d a b) := by
  refine RoundTrip.of_word (w := vr p 30 d.code a.code b.code 0 0) rfl
    (vr_is p (by decide : 30 < 64) d.code_lt a.code_lt b.code_lt (by decide : 0 < 8) (by decide : 0 < 8)) fun v F hw => ?_
  obtain ⟨Z, P1, P2, P3, F0, F1, F2, F3, F4, F5, F6, F7⟩ := F
  refine ⟨Z, (decodeRaw_1E p P1 P2 P3).trans ?_⟩
  simp [dec1E, F0, F1, F2, F3, F4, dab, orCause, must]

theorem RoundTrip.shflUp (p : Pfx) (d : Dst) (a : Src) (b : Src) : RoundTrip.Statement (.shflUp p d a b) := by
  refine RoundTrip.of_word (w := vr p 30 d.code a.code b.code 1 0) rfl
    (vr_is p (by decide : 30 < 64) d.code_lt a.code_lt b.code_lt (by decide : 1 < 8) (by decide : 0 < 8)) fun v F hw => ?_
  obtain ⟨Z, P1, P2, P3, F0, F1, F2, F3, F4, F5, F6, F7⟩ := F
  refine ⟨Z, (decodeRaw_1E p P1 P2 P3).trans ?_⟩
  simp [dec1E, F0, F1, F2, F3, F4, dab, orCause, must]

theorem RoundTrip.shflDown (p : Pfx) (d : Dst) (a : Src) (b : Src) : RoundTrip.Statement (.shflDown p d a b) := by
  refine RoundTrip.of_word (w := vr p 30 d.code a.code b.code 2 0) rfl
    (vr_is p (by decide : 30 < 64) d.code_lt a.code_lt b.code_lt (by decide : 2 < 8) (by decide : 0 < 8)) fun v F hw => ?_
  obtain ⟨Z, P1, P2, P3, F0, F1, F2, F3, F4, F5, F6, F7⟩ := F
  refine ⟨Z, (decodeRaw_1E p P1 P2 P3).trans ?_⟩
  simp [dec1E, F0, F1, F2, F3, F4, dab, orCause, must]

theorem RoundTrip.shflXor (p : Pfx) (d : Dst) (a : Src) (b : Src) : RoundTrip.Statement (.shflXor p d a b) := by
  refine RoundTrip.of_word (w := vr p 30 d.code a.code b.code 3 0) rfl
    (vr_is p (by decide : 30 < 64) d.code_lt a.code_lt b.code_lt (by decide : 3 < 8) (by decide : 0 < 8)) fun v F hw => ?_
  obtain ⟨Z, P1, P2, P3, F0, F1, F2, F3, F4, F5, F6, F7⟩ := F
  refine ⟨Z, (decodeRaw_1E p P1 P2 P3).trans ?_⟩
  simp [dec1E, F0, F1, F2, F3, F4, dab, orCause, must]

theorem RoundTrip.voteAny (p : Pfx) (d : MReg) (a : MReg) : RoundTrip.Statement (.voteAny p d a) := by
  refine RoundTrip.of_word (w := vr p 30 d.val a.val 60 4 0) rfl
    (vr_is p (by decide : 30 < 64) (Nat.lt_trans d.isLt (by decide : 4 < 64)) (Nat.lt_trans a.isLt (by decide : 4 < 64)) (by decide : 60 < 64) (by decide : 4 < 8) (by decide : 0 < 8)) fun v F hw => ?_
  obtain ⟨Z, P1, P2, P3, F0, F1, F2, F3, F4, F5, F6, F7⟩ := F
  refine ⟨Z, (decodeRaw_1E p P1 P2 P3).trans ?_⟩
  simp [dec1E, F0, F1, F2, F3, F4, orCause]

theorem RoundTrip.voteAll (p : Pfx) (d : MReg) (a : MReg) : RoundTrip.Statement (.voteAll p d a) := by
  refine RoundTrip.of_word (w := vr p 30 d.val a.val 60 4 1) rfl
    (vr_is p (by decide : 30 < 64) (Nat.lt_trans d.isLt (by decide : 4 < 64)) (Nat.lt_trans a.isLt (by decide : 4 < 64)) (by decide : 60 < 64) (by decide : 4 < 8) (by decide : 1 < 8)) fun v F hw => ?_
  obtain ⟨Z, P1, P2, P3, F0, F1, F2, F3, F4, F5, F6, F7⟩ := F
  refine ⟨Z, (decodeRaw_1E p P1 P2 P3).trans ?_⟩
  simp [dec1E, F0, F1, F2, F3, F4, orCause]

theorem RoundTrip.voteUni (p : Pfx) (d : MReg) (a : MReg) : RoundTrip.Statement (.voteUni p d a) := by
  refine RoundTrip.of_word (w := vr p 30 d.val a.val 60 4 2) rfl
    (vr_is p (by decide : 30 < 64) (Nat.lt_trans d.isLt (by decide : 4 < 64)) (Nat.lt_trans a.isLt (by decide : 4 < 64)) (by decide : 60 < 64) (by decide : 4 < 8) (by decide : 2 < 8)) fun v F hw => ?_
  obtain ⟨Z, P1, P2, P3, F0, F1, F2, F3, F4, F5, F6, F7⟩ := F
  refine ⟨Z, (decodeRaw_1E p P1 P2 P3).trans ?_⟩
  simp [dec1E, F0, F1, F2, F3, F4, orCause]

theorem RoundTrip.ballot (p : Pfx) (d : KReg) (a : MReg) : RoundTrip.Statement (.ballot p d a) := by
  refine RoundTrip.of_word (w := vr p 30 d.val a.val 60 5 0) rfl
    (vr_is p (by decide : 30 < 64) (Nat.lt_trans d.isLt (by decide : 16 < 64)) (Nat.lt_trans a.isLt (by decide : 4 < 64)) (by decide : 60 < 64) (by decide : 5 < 8) (by decide : 0 < 8)) fun v F hw => ?_
  obtain ⟨Z, P1, P2, P3, F0, F1, F2, F3, F4, F5, F6, F7⟩ := F
  refine ⟨Z, (decodeRaw_1E p P1 P2 P3).trans ?_⟩
  simp [dec1E, F0, F1, F2, F3, F4, orCause, must]

theorem RoundTrip.mpopcBelow (p : Pfx) (d : Dst) (a : MReg) : RoundTrip.Statement (.mpopcBelow p d a) := by
  refine RoundTrip.of_word (w := vr p 30 d.code a.val 60 6 0) rfl
    (vr_is p (by decide : 30 < 64) d.code_lt (Nat.lt_trans a.isLt (by decide : 4 < 64)) (by decide : 60 < 64) (by decide : 6 < 8) (by decide : 0 < 8)) fun v F hw => ?_
  obtain ⟨Z, P1, P2, P3, F0, F1, F2, F3, F4, F5, F6, F7⟩ := F
  refine ⟨Z, (decodeRaw_1E p P1 P2 P3).trans ?_⟩
  simp [dec1E, F0, F1, F2, F3, F4, orCause]

theorem RoundTrip.mpopcTotal (p : Pfx) (d : Dst) (a : MReg) : RoundTrip.Statement (.mpopcTotal p d a) := by
  refine RoundTrip.of_word (w := vr p 30 d.code a.val 60 6 1) rfl
    (vr_is p (by decide : 30 < 64) d.code_lt (Nat.lt_trans a.isLt (by decide : 4 < 64)) (by decide : 60 < 64) (by decide : 6 < 8) (by decide : 1 < 8)) fun v F hw => ?_
  obtain ⟨Z, P1, P2, P3, F0, F1, F2, F3, F4, F5, F6, F7⟩ := F
  refine ⟨Z, (decodeRaw_1E p P1 P2 P3).trans ?_⟩
  simp [dec1E, F0, F1, F2, F3, F4, orCause]

theorem RoundTrip.scan (p : Pfx) (d : Dst) (a : Src) (o : Machine.RedOp) : RoundTrip.Statement (.scan p d a o) := by
  refine RoundTrip.of_word (w := vr p 30 d.code a.code 60 7 (redCode o)) rfl
    (vr_is p (by decide : 30 < 64) d.code_lt a.code_lt (by decide : 60 < 64) (by decide : 7 < 8) (redCode_lt o)) fun v F hw => ?_
  obtain ⟨Z, P1, P2, P3, F0, F1, F2, F3, F4, F5, F6, F7⟩ := F
  refine ⟨Z, (decodeRaw_1E p P1 P2 P3).trans ?_⟩
  cases o <;>
    simp [dec1E, F0, F1, F2, F3, F4, daz, orCause, redCode, redOf]

theorem RoundTrip.red (p : Pfx) (d : Dst) (a : Src) (o : Machine.RedOp) : RoundTrip.Statement (.red p d a o) := by
  refine RoundTrip.of_word (w := vr p 31 d.code a.code 60 0 (redCode o)) rfl
    (vr_is p (by decide : 31 < 64) d.code_lt a.code_lt (by decide : 60 < 64) (by decide : 0 < 8) (redCode_lt o)) fun v F hw => ?_
  obtain ⟨Z, P1, P2, P3, F0, F1, F2, F3, F4, F5, F6, F7⟩ := F
  refine ⟨Z, (decodeRaw_1F p P1 P2 P3).trans ?_⟩
  cases o <;>
    simp [dec1F, F0, F1, F2, F3, F4, daz, orCause, redCode, redOf]

theorem RoundTrip.redSeg (p : Pfx) (d : Dst) (a : Src) (b : MReg) (o : Machine.RedOp) : RoundTrip.Statement (.redSeg p d a b o) := by
  refine RoundTrip.of_word (w := vr p 31 d.code a.code b.val 1 (redCode o)) rfl
    (vr_is p (by decide : 31 < 64) d.code_lt a.code_lt (Nat.lt_trans b.isLt (by decide : 4 < 64)) (by decide : 1 < 8) (redCode_lt o)) fun v F hw => ?_
  obtain ⟨Z, P1, P2, P3, F0, F1, F2, F3, F4, F5, F6, F7⟩ := F
  refine ⟨Z, (decodeRaw_1F p P1 P2 P3).trans ?_⟩
  cases o <;>
    simp [dec1F, F0, F1, F2, F3, F4, orCause, redCode, redOf]

theorem RoundTrip.scanSeg (p : Pfx) (d : Dst) (a : Src) (b : MReg) (o : Machine.RedOp) : RoundTrip.Statement (.scanSeg p d a b o) := by
  refine RoundTrip.of_word (w := vr p 31 d.code a.code b.val 2 (redCode o)) rfl
    (vr_is p (by decide : 31 < 64) d.code_lt a.code_lt (Nat.lt_trans b.isLt (by decide : 4 < 64)) (by decide : 2 < 8) (redCode_lt o)) fun v F hw => ?_
  obtain ⟨Z, P1, P2, P3, F0, F1, F2, F3, F4, F5, F6, F7⟩ := F
  refine ⟨Z, (decodeRaw_1F p P1 P2 P3).trans ?_⟩
  cases o <;>
    simp [dec1F, F0, F1, F2, F3, F4, orCause, redCode, redOf]

theorem RoundTrip.topk (p : Pfx) (d : Dst) (a : Src) (b : Src) (o : Machine.TopOp) : RoundTrip.Statement (.topk p d a b o) := by
  refine RoundTrip.of_word (w := vr p 31 d.code a.code b.code 3 (topCode o)) rfl
    (vr_is p (by decide : 31 < 64) d.code_lt a.code_lt b.code_lt (by decide : 3 < 8) (topCode_lt o)) fun v F hw => ?_
  obtain ⟨Z, P1, P2, P3, F0, F1, F2, F3, F4, F5, F6, F7⟩ := F
  refine ⟨Z, (decodeRaw_1F p P1 P2 P3).trans ?_⟩
  cases o <;>
    simp [dec1F, F0, F1, F2, F3, F4, dab, orCause, topCode, topOf]

theorem RoundTrip.topkSeg (p : Pfx) (d : Dst) (a : Src) (b : Src) (o : Machine.TopOp) : RoundTrip.Statement (.topkSeg p d a b o) := by
  refine RoundTrip.of_word (w := vr p 31 d.code a.code b.code 4 (topCode o)) rfl
    (vr_is p (by decide : 31 < 64) d.code_lt a.code_lt b.code_lt (by decide : 4 < 8) (topCode_lt o)) fun v F hw => ?_
  obtain ⟨Z, P1, P2, P3, F0, F1, F2, F3, F4, F5, F6, F7⟩ := F
  refine ⟨Z, (decodeRaw_1F p P1 P2 P3).trans ?_⟩
  cases o <;>
    simp [dec1F, F0, F1, F2, F3, F4, dab, orCause, topCode, topOf]

theorem RoundTrip.xshuf (p : Pfx) (d : Dst) (a : Src) (b : Src) : RoundTrip.Statement (.xshuf p d a b) := by
  refine RoundTrip.of_word (w := vr p 32 d.code a.code b.code 0 0) rfl
    (vr_is p (by decide : 32 < 64) d.code_lt a.code_lt b.code_lt (by decide : 0 < 8) (by decide : 0 < 8)) fun v F hw => ?_
  obtain ⟨Z, P1, P2, P3, F0, F1, F2, F3, F4, F5, F6, F7⟩ := F
  refine ⟨Z, (decodeRaw_20 p P1 P2 P3).trans ?_⟩
  simp [dec20, F0, F1, F2, F3, F4, dab, orCause, must]

theorem RoundTrip.regroup (p : Pfx) (d : Dst) (a : Src) : RoundTrip.Statement (.regroup p d a) := by
  refine RoundTrip.of_word (w := vr p 32 d.code a.code 60 1 0) rfl
    (vr_is p (by decide : 32 < 64) d.code_lt a.code_lt (by decide : 60 < 64) (by decide : 1 < 8) (by decide : 0 < 8)) fun v F hw => ?_
  obtain ⟨Z, P1, P2, P3, F0, F1, F2, F3, F4, F5, F6, F7⟩ := F
  refine ⟨Z, (decodeRaw_20 p P1 P2 P3).trans ?_⟩
  simp [dec20, F0, F1, F2, F3, F4, daz, orCause, must]

theorem RoundTrip.lea (p : Pfx) (d : NReg) (a : PSrc) (b : Src) (e : Fin 5) : RoundTrip.Statement (.lea p d a b e) := by
  refine RoundTrip.of_word (w := vr p 33 d.val a.code b.code 0 e.val) rfl
    (vr_is p (by decide : 33 < 64) (Nat.lt_trans d.isLt (by decide : 32 < 64)) a.code_lt b.code_lt (by decide : 0 < 8) (Nat.lt_trans e.isLt (by decide : 5 < 8))) fun v F hw => ?_
  obtain ⟨Z, P1, P2, P3, F0, F1, F2, F3, F4, F5, F6, F7⟩ := F
  refine ⟨Z, (decodeRaw_21 p P1 P2 P3).trans ?_⟩
  simp only [Instr.wf, Bool.and_eq_true] at hw
  simp [dec21, F0, F1, F2, F3, F4, orCause, must, e.isLt]

theorem RoundTrip.wpack (p : Pfx) (d : NReg) (a : PSrc) (b : PSrc) (e : Fin 6) : RoundTrip.Statement (.wpack p d a b e) := by
  refine RoundTrip.of_word (w := vr p 33 d.val a.code b.code 1 e.val) rfl
    (vr_is p (by decide : 33 < 64) (Nat.lt_trans d.isLt (by decide : 32 < 64)) a.code_lt b.code_lt (by decide : 1 < 8) (Nat.lt_trans e.isLt (by decide : 6 < 8))) fun v F hw => ?_
  obtain ⟨Z, P1, P2, P3, F0, F1, F2, F3, F4, F5, F6, F7⟩ := F
  refine ⟨Z, (decodeRaw_21 p P1 P2 P3).trans ?_⟩
  simp only [Instr.wf, Bool.and_eq_true] at hw
  simp [dec21, F0, F1, F2, F3, F4, dabP, orCause, must, e.isLt]

theorem RoundTrip.wext (p : Pfx) (d : NReg) (a : PSrc) (e : Fin 6) : RoundTrip.Statement (.wext p d a e) := by
  refine RoundTrip.of_word (w := vr p 33 d.val a.code 60 2 e.val) rfl
    (vr_is p (by decide : 33 < 64) (Nat.lt_trans d.isLt (by decide : 32 < 64)) a.code_lt (by decide : 60 < 64) (by decide : 2 < 8) (Nat.lt_trans e.isLt (by decide : 6 < 8))) fun v F hw => ?_
  obtain ⟨Z, P1, P2, P3, F0, F1, F2, F3, F4, F5, F6, F7⟩ := F
  refine ⟨Z, (decodeRaw_21 p P1 P2 P3).trans ?_⟩
  simp only [Instr.wf, Bool.and_eq_true] at hw
  simp [dec21, F0, F1, F2, F3, F4, orCause, must, e.isLt]

theorem RoundTrip.addD (p : Pfx) (d : NReg) (a : PSrc) (b : PSrc) : RoundTrip.Statement (.addD p d a b) := by
  refine RoundTrip.of_word (w := vr p 33 d.val a.code b.code 3 0) rfl
    (vr_is p (by decide : 33 < 64) (Nat.lt_trans d.isLt (by decide : 32 < 64)) a.code_lt b.code_lt (by decide : 3 < 8) (by decide : 0 < 8)) fun v F hw => ?_
  obtain ⟨Z, P1, P2, P3, F0, F1, F2, F3, F4, F5, F6, F7⟩ := F
  refine ⟨Z, (decodeRaw_21 p P1 P2 P3).trans ?_⟩
  simp only [Instr.wf, Bool.and_eq_true] at hw
  simp [dec21, F0, F1, F2, F3, F4, dabP, orCause, must]

theorem RoundTrip.subD (p : Pfx) (d : NReg) (a : PSrc) (b : PSrc) : RoundTrip.Statement (.subD p d a b) := by
  refine RoundTrip.of_word (w := vr p 33 d.val a.code b.code 4 0) rfl
    (vr_is p (by decide : 33 < 64) (Nat.lt_trans d.isLt (by decide : 32 < 64)) a.code_lt b.code_lt (by decide : 4 < 8) (by decide : 0 < 8)) fun v F hw => ?_
  obtain ⟨Z, P1, P2, P3, F0, F1, F2, F3, F4, F5, F6, F7⟩ := F
  refine ⟨Z, (decodeRaw_21 p P1 P2 P3).trans ?_⟩
  simp only [Instr.wf, Bool.and_eq_true] at hw
  simp [dec21, F0, F1, F2, F3, F4, dabP, orCause, must]

theorem RoundTrip.ld (p : Pfx) (d : NReg) (a : NReg) (z : LdSize) (o : Fin 32) (r : MOrd) (s : Scope) : RoundTrip.Statement (.ld p d a z o r s) := by
  refine RoundTrip.of_word (w := mem p 48 d.val a.val z.code o.val r.code s.code) rfl
    (mem_is p (by decide : 48 < 64) (Nat.lt_trans d.isLt (by decide : 32 < 64)) (Nat.lt_trans a.isLt (by decide : 32 < 64)) z.code_lt o.isLt r.code_lt s.code_lt) fun v F hw => ?_
  obtain ⟨Z, P1, P2, P3, F0, F1, F2, F3, F4, F5, F6, F7⟩ := F
  refine ⟨Z, (decodeRaw_30 p P1 P2 P3).trans ?_⟩
  simp only [Instr.wf, Bool.and_eq_true] at hw
  simp [dec30, F0, F1, F2, F5, F6, F7, daN, orCause, must, hw]

theorem RoundTrip.st (p : Pfx) (d : NReg) (a : NReg) (z : StSize) (o : Fin 32) (r : MOrd) (s : Scope) : RoundTrip.Statement (.st p d a z o r s) := by
  refine RoundTrip.of_word (w := mem p 49 d.val a.val z.code o.val r.code s.code) rfl
    (mem_is p (by decide : 49 < 64) (Nat.lt_trans d.isLt (by decide : 32 < 64)) (Nat.lt_trans a.isLt (by decide : 32 < 64)) z.code_lt o.isLt r.code_lt s.code_lt) fun v F hw => ?_
  obtain ⟨Z, P1, P2, P3, F0, F1, F2, F3, F4, F5, F6, F7⟩ := F
  refine ⟨Z, (decodeRaw_31 p P1 P2 P3).trans ?_⟩
  simp only [Instr.wf, Bool.and_eq_true] at hw
  simp [dec31, F0, F1, F2, F5, F6, F7, daN, orCause, must, hw]

theorem RoundTrip.ldc (p : Pfx) (d : NReg) (a : NReg) (z : KSize) (r : MOrd) (s : Scope) : RoundTrip.Statement (.ldc p d a z r s) := by
  refine RoundTrip.of_word (w := mem p 50 d.val a.val z.code 0 r.code s.code) rfl
    (mem_is p (by decide : 50 < 64) (Nat.lt_trans d.isLt (by decide : 32 < 64)) (Nat.lt_trans a.isLt (by decide : 32 < 64)) (Nat.lt_trans z.code_lt (by decide : 4 < 8)) (by decide : 0 < 32) r.code_lt s.code_lt) fun v F hw => ?_
  obtain ⟨Z, P1, P2, P3, F0, F1, F2, F3, F4, F5, F6, F7⟩ := F
  refine ⟨Z, (decodeRaw_32 p P1 P2 P3).trans ?_⟩
  simp only [Instr.wf, Bool.and_eq_true] at hw
  simp [dec32, F0, F1, F3, F4, F5, F6, F7, daN, orCause, must, hw, Nat.mod_eq_of_lt z.code_lt, Nat.div_eq_of_lt z.code_lt]

theorem RoundTrip.stc (p : Pfx) (d : NReg) (a : NReg) (z : KSize) (r : MOrd) (s : Scope) : RoundTrip.Statement (.stc p d a z r s) := by
  refine RoundTrip.of_word (w := mem p 50 d.val a.val (4 + z.code) 0 r.code s.code) rfl
    (mem_is p (by decide : 50 < 64) (Nat.lt_trans d.isLt (by decide : 32 < 64)) (Nat.lt_trans a.isLt (by decide : 32 < 64)) (by have := z.code_lt; omega) (by decide : 0 < 32) r.code_lt s.code_lt) fun v F hw => ?_
  obtain ⟨Z, P1, P2, P3, F0, F1, F2, F3, F4, F5, F6, F7⟩ := F
  refine ⟨Z, (decodeRaw_32 p P1 P2 P3).trans ?_⟩
  simp only [Instr.wf, Bool.and_eq_true] at hw
  cases z <;>
    simp [dec32, F0, F1, F3, F4, F5, F6, F7, daN, orCause, must, hw, KSize.code, kSizeOf]

theorem RoundTrip.lds (p : Pfx) (d : NReg) (a : NReg) (z : SSize) (o : Fin 32) (r : MOrd) (s : Scope) : RoundTrip.Statement (.lds p d a z o r s) := by
  refine RoundTrip.of_word (w := mem p 51 d.val a.val z.code o.val r.code s.code) rfl
    (mem_is p (by decide : 51 < 64) (Nat.lt_trans d.isLt (by decide : 32 < 64)) (Nat.lt_trans a.isLt (by decide : 32 < 64)) (Nat.lt_trans z.code_lt (by decide : 4 < 8)) o.isLt r.code_lt s.code_lt) fun v F hw => ?_
  obtain ⟨Z, P1, P2, P3, F0, F1, F2, F3, F4, F5, F6, F7⟩ := F
  refine ⟨Z, (decodeRaw_33 p P1 P2 P3).trans ?_⟩
  simp only [Instr.wf, Bool.and_eq_true] at hw
  simp [dec33, F0, F1, F3, F4, F5, F6, F7, daN, orCause, must, hw, Nat.mod_eq_of_lt z.code_lt, Nat.div_eq_of_lt z.code_lt]

theorem RoundTrip.sts (p : Pfx) (d : NReg) (a : NReg) (z : SSize) (o : Fin 32) (r : MOrd) (s : Scope) : RoundTrip.Statement (.sts p d a z o r s) := by
  refine RoundTrip.of_word (w := mem p 51 d.val a.val (4 + z.code) o.val r.code s.code) rfl
    (mem_is p (by decide : 51 < 64) (Nat.lt_trans d.isLt (by decide : 32 < 64)) (Nat.lt_trans a.isLt (by decide : 32 < 64)) (by have := z.code_lt; omega) o.isLt r.code_lt s.code_lt) fun v F hw => ?_
  obtain ⟨Z, P1, P2, P3, F0, F1, F2, F3, F4, F5, F6, F7⟩ := F
  refine ⟨Z, (decodeRaw_33 p P1 P2 P3).trans ?_⟩
  simp only [Instr.wf, Bool.and_eq_true] at hw
  cases z <;>
    simp [dec33, F0, F1, F3, F4, F5, F6, F7, daN, orCause, must, hw, SSize.code, sSizeOf]

theorem RoundTrip.atomAdd (p : Pfx) (d : NReg) (a : NReg) (z : ASize) (r : MOrd) (s : Scope) : RoundTrip.Statement (.atomAdd p d a z r s) := by
  refine RoundTrip.of_word (w := mem p 52 d.val a.val z.code 0 r.code s.code) rfl
    (mem_is p (by decide : 52 < 64) (Nat.lt_trans d.isLt (by decide : 32 < 64)) (Nat.lt_trans a.isLt (by decide : 32 < 64)) z.code_lt (by decide : 0 < 32) r.code_lt s.code_lt) fun v F hw => ?_
  obtain ⟨Z, P1, P2, P3, F0, F1, F2, F3, F4, F5, F6, F7⟩ := F
  refine ⟨Z, (decodeRaw_34 p P1 P2 P3).trans ?_⟩
  simp only [Instr.wf, Bool.and_eq_true] at hw
  simp [dec34, F0, F1, F2, F5, F6, F7, daN, orCause, must, hw]

theorem RoundTrip.atomAnd (p : Pfx) (d : NReg) (a : NReg) (z : ASize) (r : MOrd) (s : Scope) : RoundTrip.Statement (.atomAnd p d a z r s) := by
  refine RoundTrip.of_word (w := mem p 52 d.val a.val z.code 1 r.code s.code) rfl
    (mem_is p (by decide : 52 < 64) (Nat.lt_trans d.isLt (by decide : 32 < 64)) (Nat.lt_trans a.isLt (by decide : 32 < 64)) z.code_lt (by decide : 1 < 32) r.code_lt s.code_lt) fun v F hw => ?_
  obtain ⟨Z, P1, P2, P3, F0, F1, F2, F3, F4, F5, F6, F7⟩ := F
  refine ⟨Z, (decodeRaw_34 p P1 P2 P3).trans ?_⟩
  simp only [Instr.wf, Bool.and_eq_true] at hw
  simp [dec34, F0, F1, F2, F5, F6, F7, daN, orCause, must, hw]

theorem RoundTrip.atomOr (p : Pfx) (d : NReg) (a : NReg) (z : ASize) (r : MOrd) (s : Scope) : RoundTrip.Statement (.atomOr p d a z r s) := by
  refine RoundTrip.of_word (w := mem p 52 d.val a.val z.code 2 r.code s.code) rfl
    (mem_is p (by decide : 52 < 64) (Nat.lt_trans d.isLt (by decide : 32 < 64)) (Nat.lt_trans a.isLt (by decide : 32 < 64)) z.code_lt (by decide : 2 < 32) r.code_lt s.code_lt) fun v F hw => ?_
  obtain ⟨Z, P1, P2, P3, F0, F1, F2, F3, F4, F5, F6, F7⟩ := F
  refine ⟨Z, (decodeRaw_34 p P1 P2 P3).trans ?_⟩
  simp only [Instr.wf, Bool.and_eq_true] at hw
  simp [dec34, F0, F1, F2, F5, F6, F7, daN, orCause, must, hw]

theorem RoundTrip.atomXor (p : Pfx) (d : NReg) (a : NReg) (z : ASize) (r : MOrd) (s : Scope) : RoundTrip.Statement (.atomXor p d a z r s) := by
  refine RoundTrip.of_word (w := mem p 52 d.val a.val z.code 3 r.code s.code) rfl
    (mem_is p (by decide : 52 < 64) (Nat.lt_trans d.isLt (by decide : 32 < 64)) (Nat.lt_trans a.isLt (by decide : 32 < 64)) z.code_lt (by decide : 3 < 32) r.code_lt s.code_lt) fun v F hw => ?_
  obtain ⟨Z, P1, P2, P3, F0, F1, F2, F3, F4, F5, F6, F7⟩ := F
  refine ⟨Z, (decodeRaw_34 p P1 P2 P3).trans ?_⟩
  simp only [Instr.wf, Bool.and_eq_true] at hw
  simp [dec34, F0, F1, F2, F5, F6, F7, daN, orCause, must, hw]

theorem RoundTrip.atomMinS (p : Pfx) (d : NReg) (a : NReg) (z : ASize) (r : MOrd) (s : Scope) : RoundTrip.Statement (.atomMinS p d a z r s) := by
  refine RoundTrip.of_word (w := mem p 52 d.val a.val z.code 4 r.code s.code) rfl
    (mem_is p (by decide : 52 < 64) (Nat.lt_trans d.isLt (by decide : 32 < 64)) (Nat.lt_trans a.isLt (by decide : 32 < 64)) z.code_lt (by decide : 4 < 32) r.code_lt s.code_lt) fun v F hw => ?_
  obtain ⟨Z, P1, P2, P3, F0, F1, F2, F3, F4, F5, F6, F7⟩ := F
  refine ⟨Z, (decodeRaw_34 p P1 P2 P3).trans ?_⟩
  simp only [Instr.wf, Bool.and_eq_true] at hw
  simp [dec34, F0, F1, F2, F5, F6, F7, daN, orCause, must, hw]

theorem RoundTrip.atomMaxS (p : Pfx) (d : NReg) (a : NReg) (z : ASize) (r : MOrd) (s : Scope) : RoundTrip.Statement (.atomMaxS p d a z r s) := by
  refine RoundTrip.of_word (w := mem p 52 d.val a.val z.code 5 r.code s.code) rfl
    (mem_is p (by decide : 52 < 64) (Nat.lt_trans d.isLt (by decide : 32 < 64)) (Nat.lt_trans a.isLt (by decide : 32 < 64)) z.code_lt (by decide : 5 < 32) r.code_lt s.code_lt) fun v F hw => ?_
  obtain ⟨Z, P1, P2, P3, F0, F1, F2, F3, F4, F5, F6, F7⟩ := F
  refine ⟨Z, (decodeRaw_34 p P1 P2 P3).trans ?_⟩
  simp only [Instr.wf, Bool.and_eq_true] at hw
  simp [dec34, F0, F1, F2, F5, F6, F7, daN, orCause, must, hw]

theorem RoundTrip.atomMinZ (p : Pfx) (d : NReg) (a : NReg) (z : ASize) (r : MOrd) (s : Scope) : RoundTrip.Statement (.atomMinZ p d a z r s) := by
  refine RoundTrip.of_word (w := mem p 52 d.val a.val z.code 6 r.code s.code) rfl
    (mem_is p (by decide : 52 < 64) (Nat.lt_trans d.isLt (by decide : 32 < 64)) (Nat.lt_trans a.isLt (by decide : 32 < 64)) z.code_lt (by decide : 6 < 32) r.code_lt s.code_lt) fun v F hw => ?_
  obtain ⟨Z, P1, P2, P3, F0, F1, F2, F3, F4, F5, F6, F7⟩ := F
  refine ⟨Z, (decodeRaw_34 p P1 P2 P3).trans ?_⟩
  simp only [Instr.wf, Bool.and_eq_true] at hw
  simp [dec34, F0, F1, F2, F5, F6, F7, daN, orCause, must, hw]

theorem RoundTrip.atomMaxZ (p : Pfx) (d : NReg) (a : NReg) (z : ASize) (r : MOrd) (s : Scope) : RoundTrip.Statement (.atomMaxZ p d a z r s) := by
  refine RoundTrip.of_word (w := mem p 52 d.val a.val z.code 7 r.code s.code) rfl
    (mem_is p (by decide : 52 < 64) (Nat.lt_trans d.isLt (by decide : 32 < 64)) (Nat.lt_trans a.isLt (by decide : 32 < 64)) z.code_lt (by decide : 7 < 32) r.code_lt s.code_lt) fun v F hw => ?_
  obtain ⟨Z, P1, P2, P3, F0, F1, F2, F3, F4, F5, F6, F7⟩ := F
  refine ⟨Z, (decodeRaw_34 p P1 P2 P3).trans ?_⟩
  simp only [Instr.wf, Bool.and_eq_true] at hw
  simp [dec34, F0, F1, F2, F5, F6, F7, daN, orCause, must, hw]

theorem RoundTrip.atomExch (p : Pfx) (d : NReg) (a : NReg) (z : ASize) (r : MOrd) (s : Scope) : RoundTrip.Statement (.atomExch p d a z r s) := by
  refine RoundTrip.of_word (w := mem p 52 d.val a.val z.code 8 r.code s.code) rfl
    (mem_is p (by decide : 52 < 64) (Nat.lt_trans d.isLt (by decide : 32 < 64)) (Nat.lt_trans a.isLt (by decide : 32 < 64)) z.code_lt (by decide : 8 < 32) r.code_lt s.code_lt) fun v F hw => ?_
  obtain ⟨Z, P1, P2, P3, F0, F1, F2, F3, F4, F5, F6, F7⟩ := F
  refine ⟨Z, (decodeRaw_34 p P1 P2 P3).trans ?_⟩
  simp only [Instr.wf, Bool.and_eq_true] at hw
  simp [dec34, F0, F1, F2, F5, F6, F7, daN, orCause, must, hw]

theorem RoundTrip.atomCas (p : Pfx) (d : NReg) (a : NReg) (z : ASize) (r : MOrd) (s : Scope) : RoundTrip.Statement (.atomCas p d a z r s) := by
  refine RoundTrip.of_word (w := mem p 52 d.val a.val z.code 9 r.code s.code) rfl
    (mem_is p (by decide : 52 < 64) (Nat.lt_trans d.isLt (by decide : 32 < 64)) (Nat.lt_trans a.isLt (by decide : 32 < 64)) z.code_lt (by decide : 9 < 32) r.code_lt s.code_lt) fun v F hw => ?_
  obtain ⟨Z, P1, P2, P3, F0, F1, F2, F3, F4, F5, F6, F7⟩ := F
  refine ⟨Z, (decodeRaw_34 p P1 P2 P3).trans ?_⟩
  simp only [Instr.wf, Bool.and_eq_true] at hw
  simp [dec34, F0, F1, F2, F5, F6, F7, daN, orCause, must, hw]

theorem RoundTrip.atomFadd (p : Pfx) (d : NReg) (a : NReg) (r : MOrd) (s : Scope) : RoundTrip.Statement (.atomFadd p d a r s) := by
  refine RoundTrip.of_word (w := mem p 52 d.val a.val 2 10 r.code s.code) rfl
    (mem_is p (by decide : 52 < 64) (Nat.lt_trans d.isLt (by decide : 32 < 64)) (Nat.lt_trans a.isLt (by decide : 32 < 64)) (by decide : 2 < 8) (by decide : 10 < 32) r.code_lt s.code_lt) fun v F hw => ?_
  obtain ⟨Z, P1, P2, P3, F0, F1, F2, F3, F4, F5, F6, F7⟩ := F
  refine ⟨Z, (decodeRaw_34 p P1 P2 P3).trans ?_⟩
  simp only [Instr.wf, Bool.and_eq_true] at hw
  simp [dec34, F0, F1, F2, F5, F6, F7, daN, orCause, must, hw, aSizeOf]

theorem RoundTrip.atomXadd (p : Pfx) (d : NReg) (a : NReg) (z : ASize) (r : MOrd) (s : Scope) : RoundTrip.Statement (.atomXadd p d a z r s) := by
  refine RoundTrip.of_word (w := mem p 52 d.val a.val z.code 11 r.code s.code) rfl
    (mem_is p (by decide : 52 < 64) (Nat.lt_trans d.isLt (by decide : 32 < 64)) (Nat.lt_trans a.isLt (by decide : 32 < 64)) z.code_lt (by decide : 11 < 32) r.code_lt s.code_lt) fun v F hw => ?_
  obtain ⟨Z, P1, P2, P3, F0, F1, F2, F3, F4, F5, F6, F7⟩ := F
  refine ⟨Z, (decodeRaw_34 p P1 P2 P3).trans ?_⟩
  simp only [Instr.wf, Bool.and_eq_true] at hw
  simp [dec34, F0, F1, F2, F5, F6, F7, daN, orCause, must, hw]

theorem RoundTrip.barArr (p : Pfx) (x : KReg) (i : Fin 64) : RoundTrip.Statement (.barArr p x i) := by
  refine RoundTrip.of_word (w := sys p 53 x.val 0 0 i.val) rfl
    (sys_is p (by decide : 53 < 64) (Nat.lt_trans x.isLt (by decide : 16 < 64)) (by decide : 0 < 64) (by decide : 0 < 16) (Nat.lt_trans i.isLt (by decide : 64 < 256))) fun v F hw => ?_
  obtain ⟨Z, P1, P2, P3, F0, F1, F2, F3, F4, F5, F6, F7, F8⟩ := F
  refine ⟨Z, (decodeRaw_35 p P1 P2 P3).trans ?_⟩
  simp [dec35, F0, F1, F3, F4, xK, orCause, must]

theorem RoundTrip.barWt (p : Pfx) (x : KReg) (i : Fin 64) : RoundTrip.Statement (.barWt p x i) := by
  refine RoundTrip.of_word (w := sys p 53 x.val 0 1 i.val) rfl
    (sys_is p (by decide : 53 < 64) (Nat.lt_trans x.isLt (by decide : 16 < 64)) (by decide : 0 < 64) (by decide : 1 < 16) (Nat.lt_trans i.isLt (by decide : 64 < 256))) fun v F hw => ?_
  obtain ⟨Z, P1, P2, P3, F0, F1, F2, F3, F4, F5, F6, F7, F8⟩ := F
  refine ⟨Z, (decodeRaw_35 p P1 P2 P3).trans ?_⟩
  simp [dec35, F0, F1, F3, F4, xK, orCause, must]

theorem RoundTrip.barTst (p : Pfx) (x : KReg) (i : Fin 64) : RoundTrip.Statement (.barTst p x i) := by
  refine RoundTrip.of_word (w := sys p 53 x.val 0 2 i.val) rfl
    (sys_is p (by decide : 53 < 64) (Nat.lt_trans x.isLt (by decide : 16 < 64)) (by decide : 0 < 64) (by decide : 2 < 16) (Nat.lt_trans i.isLt (by decide : 64 < 256))) fun v F hw => ?_
  obtain ⟨Z, P1, P2, P3, F0, F1, F2, F3, F4, F5, F6, F7, F8⟩ := F
  refine ⟨Z, (decodeRaw_35 p P1 P2 P3).trans ?_⟩
  simp [dec35, F0, F1, F3, F4, xK, orCause, must]

theorem RoundTrip.fence (p : Pfx) (o : MOrd) (s : Scope) : RoundTrip.Statement (.fence p o s) := by
  refine RoundTrip.of_word (w := sys p 53 0 0 3 (4 * o.code + s.code)) rfl
    (sys_is p (by decide : 53 < 64) (by decide : 0 < 64) (by decide : 0 < 64) (by decide : 3 < 16) (by have := o.code_lt; have := s.code_lt; omega)) fun v F hw => ?_
  obtain ⟨Z, P1, P2, P3, F0, F1, F2, F3, F4, F5, F6, F7, F8⟩ := F
  refine ⟨Z, (decodeRaw_35 p P1 P2 P3).trans ?_⟩
  cases o <;> cases s <;>
    first | (exfalso; revert hw; simp +decide [Instr.wf]; done) | simp [dec35, F0, F1, F3, F4, F6, F7, must, MOrd.code, Scope.code, ordOf, scopeOf]

theorem RoundTrip.seal (p : Pfx) (x : KReg) (w : KReg) : RoundTrip.Statement (.seal p x w) := by
  refine RoundTrip.of_word (w := sys p 54 x.val w.val 0 0) rfl
    (sys_is p (by decide : 54 < 64) (Nat.lt_trans x.isLt (by decide : 16 < 64)) (Nat.lt_trans w.isLt (by decide : 16 < 64)) (by decide : 0 < 16) (by decide : 0 < 256)) fun v F hw => ?_
  obtain ⟨Z, P1, P2, P3, F0, F1, F2, F3, F4, F5, F6, F7, F8⟩ := F
  refine ⟨Z, (decodeRaw_36 p P1 P2 P3).trans ?_⟩
  simp only [Instr.wf] at hw
  simp [dec36, F0, F1, F3, F4, xyK, orCause, must]

theorem RoundTrip.unseal (p : Pfx) (x : KReg) (w : KReg) : RoundTrip.Statement (.unseal p x w) := by
  refine RoundTrip.of_word (w := sys p 54 x.val w.val 1 0) rfl
    (sys_is p (by decide : 54 < 64) (Nat.lt_trans x.isLt (by decide : 16 < 64)) (Nat.lt_trans w.isLt (by decide : 16 < 64)) (by decide : 1 < 16) (by decide : 0 < 256)) fun v F hw => ?_
  obtain ⟨Z, P1, P2, P3, F0, F1, F2, F3, F4, F5, F6, F7, F8⟩ := F
  refine ⟨Z, (decodeRaw_36 p P1 P2 P3).trans ?_⟩
  simp only [Instr.wf] at hw
  simp [dec36, F0, F1, F3, F4, xyK, orCause, must]

theorem RoundTrip.cwb (p : Pfx) (x : KReg) (w : KReg) : RoundTrip.Statement (.cwb p x w) := by
  refine RoundTrip.of_word (w := sys p 54 x.val w.val 2 0) rfl
    (sys_is p (by decide : 54 < 64) (Nat.lt_trans x.isLt (by decide : 16 < 64)) (Nat.lt_trans w.isLt (by decide : 16 < 64)) (by decide : 2 < 16) (by decide : 0 < 256)) fun v F hw => ?_
  obtain ⟨Z, P1, P2, P3, F0, F1, F2, F3, F4, F5, F6, F7, F8⟩ := F
  refine ⟨Z, (decodeRaw_36 p P1 P2 P3).trans ?_⟩
  simp only [Instr.wf] at hw
  simp [dec36, F0, F1, F3, F4, xyK, orCause, must]

theorem RoundTrip.cinv (p : Pfx) (x : KReg) (w : KReg) : RoundTrip.Statement (.cinv p x w) := by
  refine RoundTrip.of_word (w := sys p 54 x.val w.val 3 0) rfl
    (sys_is p (by decide : 54 < 64) (Nat.lt_trans x.isLt (by decide : 16 < 64)) (Nat.lt_trans w.isLt (by decide : 16 < 64)) (by decide : 3 < 16) (by decide : 0 < 256)) fun v F hw => ?_
  obtain ⟨Z, P1, P2, P3, F0, F1, F2, F3, F4, F5, F6, F7, F8⟩ := F
  refine ⟨Z, (decodeRaw_36 p P1 P2 P3).trans ?_⟩
  simp only [Instr.wf] at hw
  simp [dec36, F0, F1, F3, F4, xyK, orCause, must]

theorem RoundTrip.nred (p : Pfx) (x : KReg) (w : KReg) (o : Machine.RedOp) : RoundTrip.Statement (.nred p x w o) := by
  refine RoundTrip.of_word (w := sys p 55 x.val w.val 0 (redCode o)) rfl
    (sys_is p (by decide : 55 < 64) (Nat.lt_trans x.isLt (by decide : 16 < 64)) (Nat.lt_trans w.isLt (by decide : 16 < 64)) (by decide : 0 < 16) (Nat.lt_trans (redCode_lt o) (by decide : 8 < 256))) fun v F hw => ?_
  obtain ⟨Z, P1, P2, P3, F0, F1, F2, F3, F4, F5, F6, F7, F8⟩ := F
  refine ⟨Z, (decodeRaw_37 p P1 P2 P3).trans ?_⟩
  cases o <;>
    simp [dec37, F0, F1, F3, F4, F5, xyK, orCause, must, redCode, redOf]

theorem RoundTrip.nbar (p : Pfx) (w : KReg) : RoundTrip.Statement (.nbar p w) := by
  refine RoundTrip.of_word (w := sys p 55 0 w.val 1 0) rfl
    (sys_is p (by decide : 55 < 64) (by decide : 0 < 64) (Nat.lt_trans w.isLt (by decide : 16 < 64)) (by decide : 1 < 16) (by decide : 0 < 256)) fun v F hw => ?_
  obtain ⟨Z, P1, P2, P3, F0, F1, F2, F3, F4, F5, F6, F7, F8⟩ := F
  refine ⟨Z, (decodeRaw_37 p P1 P2 P3).trans ?_⟩
  simp [dec37, F0, F1, F3, F4, yK, orCause, must]

theorem RoundTrip.rsig (p : Pfx) (x : KReg) (w : KReg) : RoundTrip.Statement (.rsig p x w) := by
  refine RoundTrip.of_word (w := sys p 55 x.val w.val 2 0) rfl
    (sys_is p (by decide : 55 < 64) (Nat.lt_trans x.isLt (by decide : 16 < 64)) (Nat.lt_trans w.isLt (by decide : 16 < 64)) (by decide : 2 < 16) (by decide : 0 < 256)) fun v F hw => ?_
  obtain ⟨Z, P1, P2, P3, F0, F1, F2, F3, F4, F5, F6, F7, F8⟩ := F
  refine ⟨Z, (decodeRaw_37 p P1 P2 P3).trans ?_⟩
  simp only [Instr.wf] at hw
  simp [dec37, F0, F1, F3, F4, xyK, orCause, must]

theorem RoundTrip.axins (p : Pfx) (x : KReg) (w : KReg) : RoundTrip.Statement (.axins p x w) := by
  refine RoundTrip.of_word (w := sys p 56 x.val w.val 0 0) rfl
    (sys_is p (by decide : 56 < 64) (Nat.lt_trans x.isLt (by decide : 16 < 64)) (Nat.lt_trans w.isLt (by decide : 16 < 64)) (by decide : 0 < 16) (by decide : 0 < 256)) fun v F hw => ?_
  obtain ⟨Z, P1, P2, P3, F0, F1, F2, F3, F4, F5, F6, F7, F8⟩ := F
  refine ⟨Z, (decodeRaw_38 p P1 P2 P3).trans ?_⟩
  simp only [Instr.wf] at hw
  simp [dec38, F0, F1, F3, F4, xyK, orCause, must]

theorem RoundTrip.axdel (p : Pfx) (x : KReg) : RoundTrip.Statement (.axdel p x) := by
  refine RoundTrip.of_word (w := sys p 56 x.val 0 1 0) rfl
    (sys_is p (by decide : 56 < 64) (Nat.lt_trans x.isLt (by decide : 16 < 64)) (by decide : 0 < 64) (by decide : 1 < 16) (by decide : 0 < 256)) fun v F hw => ?_
  obtain ⟨Z, P1, P2, P3, F0, F1, F2, F3, F4, F5, F6, F7, F8⟩ := F
  refine ⟨Z, (decodeRaw_38 p P1 P2 P3).trans ?_⟩
  simp [dec38, F0, F1, F3, F4, xK, orCause, must]

theorem RoundTrip.axset (p : Pfx) (x : KReg) (w : KReg) : RoundTrip.Statement (.axset p x w) := by
  refine RoundTrip.of_word (w := sys p 56 x.val w.val 2 0) rfl
    (sys_is p (by decide : 56 < 64) (Nat.lt_trans x.isLt (by decide : 16 < 64)) (Nat.lt_trans w.isLt (by decide : 16 < 64)) (by decide : 2 < 16) (by decide : 0 < 256)) fun v F hw => ?_
  obtain ⟨Z, P1, P2, P3, F0, F1, F2, F3, F4, F5, F6, F7, F8⟩ := F
  refine ⟨Z, (decodeRaw_38 p P1 P2 P3).trans ?_⟩
  simp only [Instr.wf] at hw
  simp [dec38, F0, F1, F3, F4, xyK, orCause, must]

theorem RoundTrip.axpub (p : Pfx) (s : Scope) : RoundTrip.Statement (.axpub p s) := by
  refine RoundTrip.of_word (w := sys p 56 0 0 3 s.code) rfl
    (sys_is p (by decide : 56 < 64) (by decide : 0 < 64) (by decide : 0 < 64) (by decide : 3 < 16) (Nat.lt_trans s.code_lt (by decide : 4 < 256))) fun v F hw => ?_
  obtain ⟨Z, P1, P2, P3, F0, F1, F2, F3, F4, F5, F6, F7, F8⟩ := F
  refine ⟨Z, (decodeRaw_38 p P1 P2 P3).trans ?_⟩
  simp [dec38, F2, F3, F4, must, s.code_lt]

theorem RoundTrip.axrd (p : Pfx) (x : KReg) (w : KReg) : RoundTrip.Statement (.axrd p x w) := by
  refine RoundTrip.of_word (w := sys p 56 x.val w.val 4 0) rfl
    (sys_is p (by decide : 56 < 64) (Nat.lt_trans x.isLt (by decide : 16 < 64)) (Nat.lt_trans w.isLt (by decide : 16 < 64)) (by decide : 4 < 16) (by decide : 0 < 256)) fun v F hw => ?_
  obtain ⟨Z, P1, P2, P3, F0, F1, F2, F3, F4, F5, F6, F7, F8⟩ := F
  refine ⟨Z, (decodeRaw_38 p P1 P2 P3).trans ?_⟩
  simp only [Instr.wf] at hw
  simp [dec38, F0, F1, F3, F4, xyK, orCause, must]

theorem RoundTrip.thset (p : Pfx) (x : KReg) (w : KReg) : RoundTrip.Statement (.thset p x w) := by
  refine RoundTrip.of_word (w := sys p 57 x.val w.val 0 0) rfl
    (sys_is p (by decide : 57 < 64) (Nat.lt_trans x.isLt (by decide : 16 < 64)) (Nat.lt_trans w.isLt (by decide : 16 < 64)) (by decide : 0 < 16) (by decide : 0 < 256)) fun v F hw => ?_
  obtain ⟨Z, P1, P2, P3, F0, F1, F2, F3, F4, F5, F6, F7, F8⟩ := F
  refine ⟨Z, (decodeRaw_39 p P1 P2 P3).trans ?_⟩
  simp only [Instr.wf] at hw
  simp [dec39, F0, F1, F3, F4, xyK, orCause, must]

theorem RoundTrip.thget (p : Pfx) (x : KReg) (w : KReg) : RoundTrip.Statement (.thget p x w) := by
  refine RoundTrip.of_word (w := sys p 57 x.val w.val 1 0) rfl
    (sys_is p (by decide : 57 < 64) (Nat.lt_trans x.isLt (by decide : 16 < 64)) (Nat.lt_trans w.isLt (by decide : 16 < 64)) (by decide : 1 < 16) (by decide : 0 < 256)) fun v F hw => ?_
  obtain ⟨Z, P1, P2, P3, F0, F1, F2, F3, F4, F5, F6, F7, F8⟩ := F
  refine ⟨Z, (decodeRaw_39 p P1 P2 P3).trans ?_⟩
  simp only [Instr.wf] at hw
  simp [dec39, F0, F1, F3, F4, xyK, orCause, must]

theorem RoundTrip.thfill (p : Pfx) (x : KReg) (w : KReg) : RoundTrip.Statement (.thfill p x w) := by
  refine RoundTrip.of_word (w := sys p 57 x.val w.val 2 0) rfl
    (sys_is p (by decide : 57 < 64) (Nat.lt_trans x.isLt (by decide : 16 < 64)) (Nat.lt_trans w.isLt (by decide : 16 < 64)) (by decide : 2 < 16) (by decide : 0 < 256)) fun v F hw => ?_
  obtain ⟨Z, P1, P2, P3, F0, F1, F2, F3, F4, F5, F6, F7, F8⟩ := F
  refine ⟨Z, (decodeRaw_39 p P1 P2 P3).trans ?_⟩
  simp only [Instr.wf] at hw
  simp [dec39, F0, F1, F3, F4, xyK, orCause, must]

theorem RoundTrip.tbres (p : Pfx) (x : KReg) (t : Fin 32) : RoundTrip.Statement (.tbres p x t) := by
  refine RoundTrip.of_word (w := sys p 58 x.val 0 0 t.val) rfl
    (sys_is p (by decide : 58 < 64) (Nat.lt_trans x.isLt (by decide : 16 < 64)) (by decide : 0 < 64) (by decide : 0 < 16) (Nat.lt_trans t.isLt (by decide : 32 < 256))) fun v F hw => ?_
  obtain ⟨Z, P1, P2, P3, F0, F1, F2, F3, F4, F5, F6, F7, F8⟩ := F
  refine ⟨Z, (decodeRaw_3A p P1 P2 P3).trans ?_⟩
  simp [dec3A, F0, F1, F3, F4, xK, orCause, must, t.isLt]

theorem RoundTrip.tbcom (p : Pfx) (t : Fin 32) : RoundTrip.Statement (.tbcom p t) := by
  refine RoundTrip.of_word (w := sys p 58 0 0 1 t.val) rfl
    (sys_is p (by decide : 58 < 64) (by decide : 0 < 64) (by decide : 0 < 64) (by decide : 1 < 16) (Nat.lt_trans t.isLt (by decide : 32 < 256))) fun v F hw => ?_
  obtain ⟨Z, P1, P2, P3, F0, F1, F2, F3, F4, F5, F6, F7, F8⟩ := F
  refine ⟨Z, (decodeRaw_3A p P1 P2 P3).trans ?_⟩
  simp [dec3A, F0, F1, F3, F4, must, t.isLt]

theorem RoundTrip.tbacq (p : Pfx) (x : KReg) (t : Fin 32) : RoundTrip.Statement (.tbacq p x t) := by
  refine RoundTrip.of_word (w := sys p 58 x.val 0 2 t.val) rfl
    (sys_is p (by decide : 58 < 64) (Nat.lt_trans x.isLt (by decide : 16 < 64)) (by decide : 0 < 64) (by decide : 2 < 16) (Nat.lt_trans t.isLt (by decide : 32 < 256))) fun v F hw => ?_
  obtain ⟨Z, P1, P2, P3, F0, F1, F2, F3, F4, F5, F6, F7, F8⟩ := F
  refine ⟨Z, (decodeRaw_3A p P1 P2 P3).trans ?_⟩
  simp [dec3A, F0, F1, F3, F4, xK, orCause, must, t.isLt]

theorem RoundTrip.tbrel (p : Pfx) (t : Fin 32) : RoundTrip.Statement (.tbrel p t) := by
  refine RoundTrip.of_word (w := sys p 58 0 0 3 t.val) rfl
    (sys_is p (by decide : 58 < 64) (by decide : 0 < 64) (by decide : 0 < 64) (by decide : 3 < 16) (Nat.lt_trans t.isLt (by decide : 32 < 256))) fun v F hw => ?_
  obtain ⟨Z, P1, P2, P3, F0, F1, F2, F3, F4, F5, F6, F7, F8⟩ := F
  refine ⟨Z, (decodeRaw_3A p P1 P2 P3).trans ?_⟩
  simp [dec3A, F0, F1, F3, F4, must, t.isLt]

theorem RoundTrip.tbst (p : Pfx) (x : KReg) (t : Fin 32) : RoundTrip.Statement (.tbst p x t) := by
  refine RoundTrip.of_word (w := sys p 58 x.val 0 4 t.val) rfl
    (sys_is p (by decide : 58 < 64) (Nat.lt_trans x.isLt (by decide : 16 < 64)) (by decide : 0 < 64) (by decide : 4 < 16) (Nat.lt_trans t.isLt (by decide : 32 < 256))) fun v F hw => ?_
  obtain ⟨Z, P1, P2, P3, F0, F1, F2, F3, F4, F5, F6, F7, F8⟩ := F
  refine ⟨Z, (decodeRaw_3A p P1 P2 P3).trans ?_⟩
  simp [dec3A, F0, F1, F3, F4, xK, orCause, must, t.isLt]

theorem RoundTrip.mxgat (p : Pfx) (a : KReg) (b : KReg) (s : Side) (k : Fin 32) : RoundTrip.Statement (.mxgat p a b s k) := by
  refine RoundTrip.of_word (w := mx p 59 0 a.val b.val 0 s.code k.val 0) rfl
    (mx_is p (by decide : 59 < 64) (by decide : 0 < 8) a.isLt b.isLt (by decide : 0 < 4) s.code_lt k.isLt (by decide : 0 < 2)) fun v F hw => ?_
  obtain ⟨Z, P1, P2, P3, F0, F1, F2, F3, F4, F5, F6, F7, F8, F9, F10⟩ := F
  refine ⟨Z, (decodeRaw_3B p P1 P2 P3).trans ?_⟩
  simp only [Instr.wf] at hw
  simp [dec3B, F0, F1, F2, F3, F4, F5, F8, must]

theorem RoundTrip.mxlda (p : Pfx) (a : KReg) (s : Side) (k : Fin 32) : RoundTrip.Statement (.mxlda p a s k) := by
  refine RoundTrip.of_word (w := mx p 59 1 a.val 0 0 s.code k.val 0) rfl
    (mx_is p (by decide : 59 < 64) (by decide : 1 < 8) a.isLt (by decide : 0 < 16) (by decide : 0 < 4) s.code_lt k.isLt (by decide : 0 < 2)) fun v F hw => ?_
  obtain ⟨Z, P1, P2, P3, F0, F1, F2, F3, F4, F5, F6, F7, F8, F9, F10⟩ := F
  refine ⟨Z, (decodeRaw_3B p P1 P2 P3).trans ?_⟩
  simp only [Instr.wf] at hw
  simp [dec3B, F0, F1, F2, F3, F4, F5, F8, must]

theorem RoundTrip.mxmul (p : Pfx) (n : Fin 4) : RoundTrip.Statement (.mxmul p n) := by
  refine RoundTrip.of_word (w := mx p 60 0 0 0 n.val 0 0 0) rfl
    (mx_is p (by decide : 60 < 64) (by decide : 0 < 8) (by decide : 0 < 16) (by decide : 0 < 16) n.isLt (by decide : 0 < 2) (by decide : 0 < 32) (by decide : 0 < 2)) fun v F hw => ?_
  obtain ⟨Z, P1, P2, P3, F0, F1, F2, F3, F4, F5, F6, F7, F8, F9, F10⟩ := F
  refine ⟨Z, (decodeRaw_3C p P1 P2 P3).trans ?_⟩
  simp [dec3C, F0, F3, F9, F10, must]

theorem RoundTrip.mxzero (p : Pfx) (n : Fin 4) : RoundTrip.Statement (.mxzero p n) := by
  refine RoundTrip.of_word (w := mx p 60 1 0 0 n.val 0 0 0) rfl
    (mx_is p (by decide : 60 < 64) (by decide : 1 < 8) (by decide : 0 < 16) (by decide : 0 < 16) n.isLt (by decide : 0 < 2) (by decide : 0 < 32) (by decide : 0 < 2)) fun v F hw => ?_
  obtain ⟨Z, P1, P2, P3, F0, F1, F2, F3, F4, F5, F6, F7, F8, F9, F10⟩ := F
  refine ⟨Z, (decodeRaw_3C p P1 P2 P3).trans ?_⟩
  simp [dec3C, F0, F3, F9, F10, must]

theorem RoundTrip.mxdrn (p : Pfx) (a : KReg) (n : Fin 4) (f : Bool) : RoundTrip.Statement (.mxdrn p a n f) := by
  refine RoundTrip.of_word (w := mx p 61 0 a.val 0 n.val 0 0 (bit f)) rfl
    (mx_is p (by decide : 61 < 64) (by decide : 0 < 8) a.isLt (by decide : 0 < 16) n.isLt (by decide : 0 < 2) (by decide : 0 < 32) (bit_lt f)) fun v F hw => ?_
  obtain ⟨Z, P1, P2, P3, F0, F1, F2, F3, F4, F5, F6, F7, F8, F9, F10⟩ := F
  refine ⟨Z, (decodeRaw_3D p P1 P2 P3).trans ?_⟩
  simp only [Instr.wf] at hw
  cases f <;>
    simp [dec3D, F0, F1, F2, F3, F4, F5, F6, F7, must, bit]

theorem RoundTrip.mxwait (p : Pfx) (n : Fin 4) (f : Bool) : RoundTrip.Statement (.mxwait p n f) := by
  refine RoundTrip.of_word (w := mx p 61 1 0 0 n.val 0 0 (bit f)) rfl
    (mx_is p (by decide : 61 < 64) (by decide : 1 < 8) (by decide : 0 < 16) (by decide : 0 < 16) n.isLt (by decide : 0 < 2) (by decide : 0 < 32) (bit_lt f)) fun v F hw => ?_
  obtain ⟨Z, P1, P2, P3, F0, F1, F2, F3, F4, F5, F6, F7, F8, F9, F10⟩ := F
  refine ⟨Z, (decodeRaw_3D p P1 P2 P3).trans ?_⟩
  cases f <;> simp [Instr.wf] at hw <;> (try subst hw) <;>
    simp [dec3D, F0, F1, F2, F3, F4, F5, F6, F7, must, bit]

theorem RoundTrip.mxmeta (p : Pfx) (a : KReg) (n : Fin 4) (s : Side) (f : Bool) : RoundTrip.Statement (.mxmeta p a n s f) := by
  refine RoundTrip.of_word (w := mx p 61 2 a.val 0 n.val s.code 0 (bit f)) rfl
    (mx_is p (by decide : 61 < 64) (by decide : 2 < 8) a.isLt (by decide : 0 < 16) n.isLt s.code_lt (by decide : 0 < 32) (bit_lt f)) fun v F hw => ?_
  obtain ⟨Z, P1, P2, P3, F0, F1, F2, F3, F4, F5, F6, F7, F8, F9, F10⟩ := F
  refine ⟨Z, (decodeRaw_3D p P1 P2 P3).trans ?_⟩
  cases f <;> simp [Instr.wf] at hw <;> (try subst hw) <;> (try cases s) <;>
    simp [dec3D, F0, F1, F2, F3, F4, F5, F6, F7, must, bit, sideOf, Side.code]

theorem RoundTrip.packetFetch (a : Agent) : RoundTrip.Statement (.packetFetch a) := RoundTrip.of_event rfl

theorem RoundTrip.watchdog (a : Agent) : RoundTrip.Statement (.watchdog a) := RoundTrip.of_event rfl

theorem RoundTrip.breakpoint (a : Agent) : RoundTrip.Statement (.breakpoint a) := RoundTrip.of_event rfl

theorem RoundTrip.dataWatchpoint (a : Agent) (lanes : LaneSet) (va : Word64) : RoundTrip.Statement (.dataWatchpoint a lanes va) := RoundTrip.of_event rfl

theorem RoundTrip.singleStep (a : Agent) : RoundTrip.Statement (.singleStep a) := RoundTrip.of_event rfl

theorem RoundTrip.releaseEnd (cluster : Nat) : RoundTrip.Statement (.releaseEnd cluster) := RoundTrip.of_event rfl

theorem RoundTrip.releaseReturn (cluster : Nat) : RoundTrip.Statement (.releaseReturn cluster) := RoundTrip.of_event rfl

theorem RoundTrip.registerWrite (r : DevReg) (v : Word64) : RoundTrip.Statement (.registerWrite r v) := RoundTrip.of_event rfl

theorem RoundTrip.readClear (r : RcReg) : RoundTrip.Statement (.readClear r) := RoundTrip.of_event rfl

theorem RoundTrip.stagingStore (a : Agent) (reg : Fin 4) (v : Word64) : RoundTrip.Statement (.stagingStore a reg v) := RoundTrip.of_event rfl

theorem RoundTrip.go (a : Agent) : RoundTrip.Statement (.go a) := RoundTrip.of_event rfl

theorem RoundTrip.goAccept (cluster : Nat) : RoundTrip.Statement (.goAccept cluster) := RoundTrip.of_event rfl

theorem RoundTrip.copyCommandStart (cluster : Nat) : RoundTrip.Statement (.copyCommandStart cluster) := RoundTrip.of_event rfl

theorem RoundTrip.copyLineTransfer (cluster : Nat) : RoundTrip.Statement (.copyLineTransfer cluster) := RoundTrip.of_event rfl

theorem RoundTrip.copyCommandComplete (cluster : Nat) : RoundTrip.Statement (.copyCommandComplete cluster) := RoundTrip.of_event rfl

theorem RoundTrip.copyCommandFault (cluster : Nat) (cause sub : Nat) : RoundTrip.Statement (.copyCommandFault cluster cause sub) := RoundTrip.of_event rfl

theorem RoundTrip.copyFaultDelivery (a : Agent) : RoundTrip.Statement (.copyFaultDelivery a) := RoundTrip.of_event rfl

theorem RoundTrip.fstart (a : Agent) (v : Word64) : RoundTrip.Statement (.fstart a v) := RoundTrip.of_event rfl

theorem RoundTrip.frondStreamStart (cluster : Nat) : RoundTrip.Statement (.frondStreamStart cluster) := RoundTrip.of_event rfl

theorem RoundTrip.frondStreamEnd (cluster : Nat) : RoundTrip.Statement (.frondStreamEnd cluster) := RoundTrip.of_event rfl

theorem RoundTrip.mxLoadComplete (cluster : Nat) : RoundTrip.Statement (.mxLoadComplete cluster) := RoundTrip.of_event rfl

theorem RoundTrip.mxOperationComplete (cluster : Nat) : RoundTrip.Statement (.mxOperationComplete cluster) := RoundTrip.of_event rfl

theorem RoundTrip.mxDrainComplete (cluster : Nat) : RoundTrip.Statement (.mxDrainComplete cluster) := RoundTrip.of_event rfl

theorem RoundTrip.loadDataReturn (a : Agent) : RoundTrip.Statement (.loadDataReturn a) := RoundTrip.of_event rfl

theorem RoundTrip.storePerformed (a : Agent) : RoundTrip.Statement (.storePerformed a) := RoundTrip.of_event rfl

theorem RoundTrip.slicePassGrant (cluster : Nat) : RoundTrip.Statement (.slicePassGrant cluster) := RoundTrip.of_event rfl

theorem RoundTrip.scratchpadWriteRefused (a : Agent) (va : Word64) (lanes : LaneSet) : RoundTrip.Statement (.scratchpadWriteRefused a va lanes) := RoundTrip.of_event rfl

theorem RoundTrip.acknowledgementReturn (unit launch : Nat) : RoundTrip.Statement (.acknowledgementReturn unit launch) := RoundTrip.of_event rfl

theorem RoundTrip.barrierArrival (launch g : Nat) (i : Nat) (c : Nat) (a : Agent) : RoundTrip.Statement (.barrierArrival launch g i c a) := RoundTrip.of_event rfl

theorem RoundTrip.rsigRefusal (a : Agent) (sig : Word64) : RoundTrip.Statement (.rsigRefusal a sig) := RoundTrip.of_event rfl

theorem RoundTrip.exchangeMessageArrival (cluster : Nat) : RoundTrip.Statement (.exchangeMessageArrival cluster) := RoundTrip.of_event rfl

theorem RoundTrip.exchangeTimeout (a : Agent) : RoundTrip.Statement (.exchangeTimeout a) := RoundTrip.of_event rfl

theorem RoundTrip.regroupMove (launch g f : Nat) : RoundTrip.Statement (.regroupMove launch g f) := RoundTrip.of_event rfl

theorem RoundTrip.reductionResult (launch j : Nat) (bar : Bool) : RoundTrip.Statement (.reductionResult launch j bar) := RoundTrip.of_event rfl

theorem RoundTrip.reductionTimeout (launch j : Nat) (bar : Bool) : RoundTrip.Statement (.reductionTimeout launch j bar) := RoundTrip.of_event rfl

theorem RoundTrip.networkFailureDelivery (a : Agent) (cause : Nat) (lanes : LaneSet) (va : Word64) : RoundTrip.Statement (.networkFailureDelivery a cause lanes va) := RoundTrip.of_event rfl

theorem RoundTrip.axpubComplete (a : Agent) : RoundTrip.Statement (.axpubComplete a) := RoundTrip.of_event rfl

theorem RoundTrip.sealComplete (a : Agent) : RoundTrip.Statement (.sealComplete a) := RoundTrip.of_event rfl

theorem RoundTrip.unsealComplete (a : Agent) : RoundTrip.Statement (.unsealComplete a) := RoundTrip.of_event rfl

theorem RoundTrip.cacheMaintenanceComplete (a : Agent) : RoundTrip.Statement (.cacheMaintenanceComplete a) := RoundTrip.of_event rfl

theorem RoundTrip.streamFetch (a : Agent) (s : Fin 4) : RoundTrip.Statement (.streamFetch a s) := RoundTrip.of_event rfl

theorem RoundTrip.tileBufferApply (cluster : Nat) : RoundTrip.Statement (.tileBufferApply cluster) := RoundTrip.of_event rfl

theorem RoundTrip.rgrowGrant (core : Nat) : RoundTrip.Statement (.rgrowGrant core) := RoundTrip.of_event rfl

theorem RoundTrip.registerGrowEviction (core : Nat) : RoundTrip.Statement (.registerGrowEviction core) := RoundTrip.of_event rfl

theorem RoundTrip.evictedSlotRestore (core : Nat) : RoundTrip.Statement (.evictedSlotRestore core) := RoundTrip.of_event rfl

theorem RoundTrip.workgroupPlacement (launch : Nat) : RoundTrip.Statement (.workgroupPlacement launch) := RoundTrip.of_event rfl

theorem RoundTrip.warpRetire (warp : Nat) : RoundTrip.Statement (.warpRetire warp) := RoundTrip.of_event rfl

theorem RoundTrip.taskNotCreated (launch : Nat) : RoundTrip.Statement (.taskNotCreated launch) := RoundTrip.of_event rfl

theorem RoundTrip.launchCompletion (comp : Nat) : RoundTrip.Statement (.launchCompletion comp) := RoundTrip.of_event rfl

theorem RoundTrip.qtail (q : Nat) (t : Word) : RoundTrip.Statement (.qtail q t) := RoundTrip.of_event rfl

theorem RoundTrip.signal (q : Nat) : RoundTrip.Statement (.signal q) := RoundTrip.of_event rfl

theorem RoundTrip.waitPacket (q : Nat) : RoundTrip.Statement (.waitPacket q) := RoundTrip.of_event rfl

theorem RoundTrip.waitPacketPoll (q : Nat) : RoundTrip.Statement (.waitPacketPoll q) := RoundTrip.of_event rfl

theorem RoundTrip.launch (q : Nat) : RoundTrip.Statement (.launch q) := RoundTrip.of_event rfl

theorem RoundTrip.launchIndirect (q : Nat) : RoundTrip.Statement (.launchIndirect q) := RoundTrip.of_event rfl

theorem RoundTrip.prologueStepLimit (q : Nat) : RoundTrip.Statement (.prologueStepLimit q) := RoundTrip.of_event rfl

theorem RoundTrip.nopPacket (q : Nat) : RoundTrip.Statement (.nopPacket q) := RoundTrip.of_event rfl

theorem RoundTrip.reservedPacket (q : Nat) : RoundTrip.Statement (.reservedPacket q) := RoundTrip.of_event rfl

theorem RoundTrip.overflowDrain (q : Nat) : RoundTrip.Statement (.overflowDrain q) := RoundTrip.of_event rfl

theorem RoundTrip.timeTriggeredSlot (i : Nat) : RoundTrip.Statement (.timeTriggeredSlot i) := RoundTrip.of_event rfl

theorem RoundTrip.timeTriggeredEntryWrite (i w : Nat) (v : Word64) : RoundTrip.Statement (.timeTriggeredEntryWrite i w v) := RoundTrip.of_event rfl

theorem RoundTrip.clusterReassignment (part : Nat) : RoundTrip.Statement (.clusterReassignment part) := RoundTrip.of_event rfl

theorem RoundTrip.batchStart (launch : Nat) : RoundTrip.Statement (.batchStart launch) := RoundTrip.of_event rfl

theorem RoundTrip.tokenRefill : RoundTrip.Statement (.tokenRefill) := RoundTrip.of_event rfl

theorem RoundTrip.portAdmission (cluster : Nat) : RoundTrip.Statement (.portAdmission cluster) := RoundTrip.of_event rfl

theorem RoundTrip.throttlePeriod (core : Nat) : RoundTrip.Statement (.throttlePeriod core) := RoundTrip.of_event rfl

theorem RoundTrip.congestionRefresh : RoundTrip.Statement (.congestionRefresh) := RoundTrip.of_event rfl

theorem RoundTrip.drain (part : Nat) : RoundTrip.Statement (.drain part) := RoundTrip.of_event rfl

theorem RoundTrip.forced (part : Nat) : RoundTrip.Statement (.forced part) := RoundTrip.of_event rfl

theorem RoundTrip.restore (part : Nat) : RoundTrip.Statement (.restore part) := RoundTrip.of_event rfl

theorem RoundTrip.evict (part : Nat) : RoundTrip.Statement (.evict part) := RoundTrip.of_event rfl

theorem RoundTrip.savedArrivalApply (part : Nat) : RoundTrip.Statement (.savedArrivalApply part) := RoundTrip.of_event rfl

theorem RoundTrip.attestationGo : RoundTrip.Statement (.attestationGo) := RoundTrip.of_event rfl

theorem RoundTrip.attestationDone : RoundTrip.Statement (.attestationDone) := RoundTrip.of_event rfl

theorem RoundTrip.contextEnable (i : Nat) (v : Word64) : RoundTrip.Statement (.contextEnable i v) := RoundTrip.of_event rfl

theorem RoundTrip.contextDisable (i : Nat) : RoundTrip.Statement (.contextDisable i) := RoundTrip.of_event rfl

theorem RoundTrip.cpartWrite (cluster : Nat) (v : Word64) : RoundTrip.Statement (.cpartWrite cluster v) := RoundTrip.of_event rfl

theorem RoundTrip.cpartTakesEffect (cluster : Nat) : RoundTrip.Statement (.cpartTakesEffect cluster) := RoundTrip.of_event rfl

theorem RoundTrip.pmemWrite (part j : Nat) (v : Word64) : RoundTrip.Statement (.pmemWrite part j v) := RoundTrip.of_event rfl

theorem RoundTrip.accwWrite (hi : Bool) (v : Word64) : RoundTrip.Statement (.accwWrite hi v) := RoundTrip.of_event rfl

theorem RoundTrip.bar2Access (write : Bool) (off size : Nat) (v : Word64) : RoundTrip.Statement (.bar2Access write off size v) := RoundTrip.of_event rfl

theorem RoundTrip.peerRequest (r : PeerReq) : RoundTrip.Statement (.peerRequest r) := RoundTrip.of_event rfl

theorem RoundTrip.flitForward (router input : Nat) : RoundTrip.Statement (.flitForward router input) := RoundTrip.of_event rfl

theorem RoundTrip.linkReplay (link : Nat) : RoundTrip.Statement (.linkReplay link) := RoundTrip.of_event rfl

theorem RoundTrip.linkDown (link : Nat) : RoundTrip.Statement (.linkDown link) := RoundTrip.of_event rfl

theorem RoundTrip.routerGate (router : Nat) : RoundTrip.Statement (.routerGate router) := RoundTrip.of_event rfl

theorem RoundTrip.routerWake (router : Nat) (pkt : NetPkt) : RoundTrip.Statement (.routerWake router pkt) := RoundTrip.of_event rfl

theorem RoundTrip.powerGood (fcode : Fin 8) : RoundTrip.Statement (.powerGood fcode) := RoundTrip.of_event rfl

theorem RoundTrip.powerLoss : RoundTrip.Statement (.powerLoss) := RoundTrip.of_event rfl

theorem RoundTrip.conventionalReset : RoundTrip.Statement .conventionalReset := RoundTrip.of_event rfl

theorem RoundTrip.functionLevelReset : RoundTrip.Statement .functionLevelReset := RoundTrip.of_event rfl

theorem RoundTrip.thermalReport (die celsius : Nat) : RoundTrip.Statement (.thermalReport die celsius) := RoundTrip.of_event rfl

theorem RoundTrip.statisticsSample : RoundTrip.Statement (.statisticsSample) := RoundTrip.of_event rfl

theorem RoundTrip.errorRecord (kind unit : Nat) (pa : Nat) : RoundTrip.Statement (.errorRecord kind unit pa) := RoundTrip.of_event rfl

theorem RoundTrip.scrub (cluster : Nat) : RoundTrip.Statement (.scrub cluster) := RoundTrip.of_event rfl

theorem RoundTrip.lpddr6Refresh (channel bank : Nat) : RoundTrip.Statement (.lpddr6Refresh channel bank) := RoundTrip.of_event rfl

theorem RoundTrip.timeCorrection (ahead : Bool) (ns : Nat) : RoundTrip.Statement (.timeCorrection ahead ns) := RoundTrip.of_event rfl

theorem RoundTrip.linkUp (link : Nat) : RoundTrip.Statement (.linkUp link) := RoundTrip.of_event rfl

theorem RoundTrip.launchCancellation (comp : Nat) : RoundTrip.Statement (.launchCancellation comp) := RoundTrip.of_event rfl

end Sys2Proof.Laws
end

