-- ==== Sys2Proof/Laws/Tables.lean ====
section
/-! SUPPORT. Sparse tables and memories: what a read gives after a write, and that every operation keeps the canonical
form. -/

namespace Sys2Proof.Machine

set_option Elab.async false

variable {α : Type} [DecidableEq α] (d : α)

/-- A value other than the default reads back where it was set, in any table. -/
theorem tget_tset_self_of_ne {d : α} (t : Tab α) (k : Nat) {v : α} (h : v ≠ d) : tget d (tset d t k v) k = v := by
  induction t with
  | nil => simp [tset, h, tget]
  | cons p r ih =>
    obtain ⟨a, w⟩ := p
    rcases Nat.lt_trichotomy k a with hk | hk | hk
    · simp [tset, hk, h, tget]
    · subst hk; simp [tset, h, tget]
    · simp [tset, Nat.not_lt.2 (Nat.le_of_lt hk), Nat.ne_of_gt hk, tget, ih]

theorem tabAbove_mono {d : α} {lo lo' : Nat} (h : lo' ≤ lo) : ∀ t : Tab α, tabAbove d lo t = true → tabAbove d lo' t = true
  | [], _ => rfl
  | (a, v) :: r, ht => by
    simp only [tabAbove, Bool.and_eq_true, decide_eq_true_eq] at ht ⊢
    exact ⟨⟨by omega, ht.1.2⟩, ht.2⟩

/-- Above its lowest key a table reads the default below it. -/
theorem tget_below {d : α} {lo k : Nat} (hk : k ≤ lo) : ∀ t : Tab α, tabAbove d lo t = true → tget d t k = d
  | [], _ => rfl
  | (a, v) :: r, ht => by
    simp only [tabAbove, Bool.and_eq_true, decide_eq_true_eq] at ht
    simp [tget, show k ≠ a by omega, show k < a by omega]

theorem tabAbove_tset {d : α} {lo k : Nat} (v : α) (hk : lo < k) :
    ∀ t : Tab α, tabAbove d lo t = true → tabAbove d lo (tset d t k v) = true
  | [], _ => by
    by_cases hv : v = d <;> simp [tset, hv, tabAbove, hk]
  | (a, w) :: r, ht => by
    simp only [tabAbove, Bool.and_eq_true, decide_eq_true_eq] at ht
    rcases Nat.lt_trichotomy k a with h | h | h
    · by_cases hv : v = d <;> simp [tset, h, hv, tabAbove, ht.1.1, ht.1.2, hk, ht.2]
    · subst h
      by_cases hv : v = d
      · simp [tset, hv, tabAbove_mono (Nat.le_of_lt ht.1.1) _ ht.2]
      · simp [tset, hv, tabAbove, hk, ht.2]
    · simp [tset, Nat.not_lt.2 (Nat.le_of_lt h), Nat.ne_of_gt h, tabAbove, ht.1.1, ht.1.2, tabAbove_tset v h r ht.2]

/-- Setting an entry keeps the canonical form. -/
theorem tabWf_tset {d : α} (k : Nat) (v : α) : ∀ t : Tab α, tabWf d t = true → tabWf d (tset d t k v) = true
  | [], _ => by by_cases hv : v = d <;> simp [tset, hv, tabWf, tabAbove]
  | (a, w) :: r, ht => by
    simp only [tabWf, Bool.and_eq_true, decide_eq_true_eq] at ht
    rcases Nat.lt_trichotomy k a with h | h | h
    · by_cases hv : v = d <;> simp [tset, h, hv, tabWf, tabAbove, ht.1, ht.2]
    · subst h
      by_cases hv : v = d
      · rw [tset]; simp only [Nat.lt_irrefl, if_false, hv, if_true]
        cases r with
        | nil => rfl
        | cons p q =>
          obtain ⟨b, x⟩ := p
          simp only [tabAbove, Bool.and_eq_true, decide_eq_true_eq] at ht
          simp [tabWf, ht.2.1.2, ht.2.2]
      · simp [tset, hv, tabWf, ht.2]
    · simp [tset, Nat.not_lt.2 (Nat.le_of_lt h), Nat.ne_of_gt h, tabWf, ht.1, tabAbove_tset v h r ht.2]

/-- In a canonical table the value set reads back. -/
theorem tget_tset_self {d : α} (k : Nat) (v : α) : ∀ t : Tab α, tabWf d t = true → tget d (tset d t k v) k = v
  | t, ht => by
    by_cases hv : v = d
    · subst hv
      suffices H : ∀ (t : Tab α), (tabWf v t = true) → tget v (tset v t k v) k = v from H t ht
      intro t
      induction t with
      | nil => intro _; simp [tset, tget]
      | cons p r ih =>
        obtain ⟨a, w⟩ := p
        intro ht
        simp only [tabWf, Bool.and_eq_true, decide_eq_true_eq] at ht
        rcases Nat.lt_trichotomy k a with h | h | h
        · simp [tset, h, tget, Nat.ne_of_lt h]
        · subst h; simp [tset, tget_below (Nat.le_refl _) r ht.2]
        · have : tabWf v r = true := by
            cases r with
            | nil => rfl
            | cons q l =>
              obtain ⟨b, x⟩ := q
              simp only [tabAbove, Bool.and_eq_true, decide_eq_true_eq] at ht
              simp [tabWf, ht.2.1.2, ht.2.2]
          simp [tset, Nat.not_lt.2 (Nat.le_of_lt h), Nat.ne_of_gt h, tget, ih this]
    · exact tget_tset_self_of_ne t k hv

theorem tget_tset_above {d : α} {k j : Nat} (v : α) (hj : j ≠ k) :
    ∀ (t : Tab α) (lo : Nat), tabAbove d lo t = true → tget d (tset d t k v) j = tget d t j
  | [], _, _ => by
    by_cases hv : v = d <;> simp [tset, hv, tget, hj]
  | (a, w) :: r, lo, ht => by
    simp only [tabAbove, Bool.and_eq_true, decide_eq_true_eq] at ht
    rcases Nat.lt_trichotomy k a with h | h | h
    · by_cases hv : v = d
      · simp [tset, h, hv]
      · rw [tset, if_pos h, if_neg hv, tget, if_neg hj]
        by_cases hjk : j < k
        · rw [if_pos hjk, tget, if_neg (by omega), if_pos (by omega)]
        · rw [if_neg hjk]
    · subst h
      by_cases hv : v = d
      · simp only [tset, Nat.lt_irrefl, if_false, hv, if_true, tget, hj]
        by_cases hjk : j < k
        · simp [hjk, tget_below (Nat.le_of_lt hjk) r ht.2]
        · simp [hjk]
      · simp [tset, hv, tget, hj]
    · simp only [tset, Nat.not_lt.2 (Nat.le_of_lt h), Nat.ne_of_gt h, if_false, tget, tget_tset_above v hj r a ht.2]

/-- In a canonical table the other entries stay. -/
theorem tget_tset_ne {d : α} {k j : Nat} (v : α) (hj : j ≠ k) (t : Tab α) (ht : tabWf d t = true) :
    tget d (tset d t k v) j = tget d t j := by
  cases t with
  | nil => by_cases hv : v = d <;> simp [tset, hv, tget, hj]
  | cons p r =>
    obtain ⟨a, w⟩ := p
    simp only [tabWf, Bool.and_eq_true, decide_eq_true_eq] at ht
    rcases Nat.lt_trichotomy k a with h | h | h
    · by_cases hv : v = d
      · simp [tset, h, hv]
      · rw [tset, if_pos h, if_neg hv, tget, if_neg hj]
        by_cases hjk : j < k
        · rw [if_pos hjk, tget, if_neg (by omega), if_pos (by omega)]
        · rw [if_neg hjk]
    · subst h
      by_cases hv : v = d
      · simp only [tset, Nat.lt_irrefl, if_false, hv, if_true, tget, hj]
        by_cases hjk : j < k
        · simp [hjk, tget_below (Nat.le_of_lt hjk) r ht.2]
        · simp [hjk]
      · simp [tset, hv, tget, hj]
    · simp only [tset, Nat.not_lt.2 (Nat.le_of_lt h), Nat.ne_of_gt h, if_false, tget, tget_tset_above v hj r a ht.2]

/-! Memories. -/

theorem wrByte_wf (m : Tab Byte) (a : Nat) (v : Byte) (h : Memory.wf m = true) : Memory.wf (wrByte m a v) = true :=
  tabWf_tset a v m h
theorem wrBytes_wf : ∀ (n : Nat) (m : Tab Byte) (a v : Nat), Memory.wf m = true → Memory.wf (wrBytes m a v n) = true
  | 0, _, _, _, h => h
  | n + 1, m, a, _, h => wrBytes_wf n _ _ _ (wrByte_wf m a _ h)
theorem tabAbove_filter {d : α} (p : Nat × α → Bool) : ∀ (t : Tab α) (lo : Nat), tabAbove d lo t = true →
    tabAbove d lo (t.filter p) = true
  | [], _, _ => rfl
  | (a, v) :: r, lo, ht => by
    simp only [tabAbove, Bool.and_eq_true, decide_eq_true_eq] at ht
    by_cases hp : p (a, v)
    · rw [List.filter_cons_of_pos hp]; simp [tabAbove, ht.1.1, ht.1.2, tabAbove_filter p r a ht.2]
    · rw [List.filter_cons_of_neg hp]; exact tabAbove_mono (Nat.le_of_lt ht.1.1) _ (tabAbove_filter p r a ht.2)
/-- Removing entries keeps the canonical form. -/
theorem tabWf_filter {d : α} (p : Nat × α → Bool) (t : Tab α) (ht : tabWf d t = true) : tabWf d (t.filter p) = true := by
  induction t with
  | nil => rfl
  | cons q r ih =>
    obtain ⟨a, v⟩ := q
    simp only [tabWf, Bool.and_eq_true, decide_eq_true_eq] at ht
    by_cases hp : p (a, v)
    · rw [List.filter_cons_of_pos hp]; simp [tabWf, ht.1, tabAbove_filter p r a ht.2]
    · rw [List.filter_cons_of_neg hp]
      apply ih
      cases r with
      | nil => rfl
      | cons s l =>
        obtain ⟨b, x⟩ := s
        simp only [tabAbove, Bool.and_eq_true, decide_eq_true_eq] at ht
        simp [tabWf, ht.2.1.2, ht.2.2]
theorem zeroBytes_wf (m : Tab Byte) (a n : Nat) (h : Memory.wf m = true) : Memory.wf (zeroBytes m a n) = true :=
  tabWf_filter _ m h

/-- A byte written reads back. -/
theorem rdByte_wrByte_self (m : Tab Byte) (a : Nat) (v : Byte) (h : Memory.wf m = true) : rdByte (wrByte m a v) a = v :=
  tget_tset_self a v m h
/-- A byte written leaves every other byte. -/
theorem rdByte_wrByte_ne (m : Tab Byte) {a b : Nat} (v : Byte) (hb : b ≠ a) (h : Memory.wf m = true) :
    rdByte (wrByte m a v) b = rdByte m b := tget_tset_ne v hb m h
/-- n bytes written leave every byte outside them. -/
theorem rdByte_wrBytes_outside : ∀ (n : Nat) (m : Tab Byte) (a v b : Nat), Memory.wf m = true → (b < a ∨ a + n ≤ b) →
    rdByte (wrBytes m a v n) b = rdByte m b
  | 0, _, _, _, _, _, _ => rfl
  | n + 1, m, a, v, b, h, hb => by
    rw [wrBytes, rdByte_wrBytes_outside n _ _ _ b (wrByte_wf m a _ h) (by omega)]
    exact rdByte_wrByte_ne m _ (by omega) h
/-- n bytes written read back, little-endian. -/
theorem rdBytes_wrBytes : ∀ (n : Nat) (m : Tab Byte) (a v : Nat), Memory.wf m = true → v < 256 ^ n →
    rdBytes (wrBytes m a v n) a n = v
  | 0, _, _, v, _, hv => by simp only [rdBytes]; omega
  | n + 1, m, a, v, h, hv => by
    have hw := wrByte_wf m a (BitVec.ofNat 8 v) h
    have hq : v / 256 < 256 ^ n := by
      rw [Nat.div_lt_iff_lt_mul (by omega)]; rw [Nat.pow_succ] at hv; exact hv
    rw [wrBytes, rdBytes, rdByte_wrBytes_outside n _ _ _ a hw (by omega), rdByte_wrByte_self m a _ h,
      rdBytes_wrBytes n _ _ _ hw hq, BitVec.toNat_ofNat]
    omega

end Sys2Proof.Machine
end

