-- ==== Sys2Proof/Laws/State.lean ====
section
/-! SUPPORT. What each update of the state leaves, field by field. -/

namespace Sys2Proof.Machine

@[simp] theorem post_cur (s : State) (l : List Ev) : (post s l).cur = s.cur := rfl
@[simp] theorem post_f (s : State) (l : List Ev) : (post s l).f = s.f := rfl
@[simp] theorem post_w (s : State) (l : List Ev) : (post s l).w = s.w := rfl
@[simp] theorem post_grp (s : State) (l : List Ev) : (post s l).grp = s.grp := rfl
@[simp] theorem post_sched (s : State) (l : List Ev) : (post s l).sched = s.sched := rfl
@[simp] theorem post_bootEnds (s : State) (l : List Ev) : (post s l).bootEnds = s.bootEnds := rfl
@[simp] theorem post_tick (s : State) (l : List Ev) : (post s l).tick = s.tick := rfl
@[simp] theorem post_fibs (s : State) (l : List Ev) : (post s l).fibs = s.fibs := rfl
@[simp] theorem post_warps (s : State) (l : List Ev) : (post s l).warps = s.warps := rfl
@[simp] theorem post_wgs (s : State) (l : List Ev) : (post s l).wgs = s.wgs := rfl
@[simp] theorem post_launches (s : State) (l : List Ev) : (post s l).launches = s.launches := rfl
@[simp] theorem post_comps (s : State) (l : List Ev) : (post s l).comps = s.comps := rfl
@[simp] theorem post_pipes (s : State) (l : List Ev) : (post s l).pipes = s.pipes := rfl
@[simp] theorem post_clusters (s : State) (l : List Ev) : (post s l).clusters = s.clusters := rfl
@[simp] theorem post_cores (s : State) (l : List Ev) : (post s l).cores = s.cores := rfl
@[simp] theorem post_mem (s : State) (l : List Ev) : (post s l).mem = s.mem := rfl
@[simp] theorem post_slices (s : State) (l : List Ev) : (post s l).slices = s.slices := rfl
@[simp] theorem post_hostMem (s : State) (l : List Ev) : (post s l).hostMem = s.hostMem := rfl
@[simp] theorem post_peerMem (s : State) (l : List Ev) : (post s l).peerMem = s.peerMem := rfl
@[simp] theorem post_memBad (s : State) (l : List Ev) : (post s l).memBad = s.memBad := rfl
@[simp] theorem post_hist (s : State) (l : List Ev) : (post s l).hist = s.hist := rfl
@[simp] theorem post_cacheBad (s : State) (l : List Ev) : (post s l).cacheBad = s.cacheBad := rfl
@[simp] theorem post_sealMap (s : State) (l : List Ev) : (post s l).sealMap = s.sealMap := rfl
@[simp] theorem post_ctxs (s : State) (l : List Ev) : (post s l).ctxs = s.ctxs := rfl
@[simp] theorem post_queues (s : State) (l : List Ev) : (post s l).queues = s.queues := rfl
@[simp] theorem post_parts (s : State) (l : List Ev) : (post s l).parts = s.parts := rfl
@[simp] theorem post_redns (s : State) (l : List Ev) : (post s l).redns = s.redns := rfl
@[simp] theorem post_outst (s : State) (l : List Ev) : (post s l).outst = s.outst := rfl
@[simp] theorem post_soft (s : State) (l : List Ev) : (post s l).soft = s.soft := rfl
@[simp] theorem post_stage (s : State) (l : List Ev) : (post s l).stage = s.stage := rfl
@[simp] theorem post_msix (s : State) (l : List Ev) : (post s l).msix = s.msix := rfl
@[simp] theorem post_msixTab (s : State) (l : List Ev) : (post s l).msixTab = s.msixTab := rfl
@[simp] theorem post_msixPend (s : State) (l : List Ev) : (post s l).msixPend = s.msixPend := rfl
@[simp] theorem post_accw (s : State) (l : List Ev) : (post s l).accw = s.accw := rfl
@[simp] theorem post_prolTurn (s : State) (l : List Ev) : (post s l).prolTurn = s.prolTurn := rfl
@[simp] theorem post_nextId (s : State) (l : List Ev) : (post s l).nextId = s.nextId := rfl
@[simp] theorem post_tt (s : State) (l : List Ev) : (post s l).tt = s.tt := rfl
@[simp] theorem post_netq (s : State) (l : List Ev) : (post s l).netq = s.netq := rfl
@[simp] theorem post_gated (s : State) (l : List Ev) : (post s l).gated = s.gated := rfl
@[simp] theorem post_retries (s : State) (l : List Ev) : (post s l).retries = s.retries := rfl
@[simp] theorem post_linksDown (s : State) (l : List Ev) : (post s l).linksDown = s.linksDown := rfl
@[simp] theorem post_closed (s : State) (l : List Ev) : (post s l).closed = s.closed := rfl

@[simp] theorem setCl_cur (s : State) (c : Nat) (x : Cluster) : (setCl s c x).cur = s.cur := rfl
@[simp] theorem setCl_f (s : State) (c : Nat) (x : Cluster) : (setCl s c x).f = s.f := rfl
@[simp] theorem setCl_w (s : State) (c : Nat) (x : Cluster) : (setCl s c x).w = s.w := rfl
@[simp] theorem setCl_grp (s : State) (c : Nat) (x : Cluster) : (setCl s c x).grp = s.grp := rfl
@[simp] theorem setCl_evq (s : State) (c : Nat) (x : Cluster) : (setCl s c x).evq = s.evq := rfl
@[simp] theorem setCl_sched (s : State) (c : Nat) (x : Cluster) : (setCl s c x).sched = s.sched := rfl
@[simp] theorem setCl_bootEnds (s : State) (c : Nat) (x : Cluster) : (setCl s c x).bootEnds = s.bootEnds := rfl
@[simp] theorem setCl_tick (s : State) (c : Nat) (x : Cluster) : (setCl s c x).tick = s.tick := rfl
@[simp] theorem setCl_fibs (s : State) (c : Nat) (x : Cluster) : (setCl s c x).fibs = s.fibs := rfl
@[simp] theorem setCl_warps (s : State) (c : Nat) (x : Cluster) : (setCl s c x).warps = s.warps := rfl
@[simp] theorem setCl_wgs (s : State) (c : Nat) (x : Cluster) : (setCl s c x).wgs = s.wgs := rfl
@[simp] theorem setCl_launches (s : State) (c : Nat) (x : Cluster) : (setCl s c x).launches = s.launches := rfl
@[simp] theorem setCl_comps (s : State) (c : Nat) (x : Cluster) : (setCl s c x).comps = s.comps := rfl
@[simp] theorem setCl_pipes (s : State) (c : Nat) (x : Cluster) : (setCl s c x).pipes = s.pipes := rfl
@[simp] theorem setCl_cores (s : State) (c : Nat) (x : Cluster) : (setCl s c x).cores = s.cores := rfl
@[simp] theorem setCl_mem (s : State) (c : Nat) (x : Cluster) : (setCl s c x).mem = s.mem := rfl
@[simp] theorem setCl_slices (s : State) (c : Nat) (x : Cluster) : (setCl s c x).slices = s.slices := rfl
@[simp] theorem setCl_hostMem (s : State) (c : Nat) (x : Cluster) : (setCl s c x).hostMem = s.hostMem := rfl
@[simp] theorem setCl_peerMem (s : State) (c : Nat) (x : Cluster) : (setCl s c x).peerMem = s.peerMem := rfl
@[simp] theorem setCl_memBad (s : State) (c : Nat) (x : Cluster) : (setCl s c x).memBad = s.memBad := rfl
@[simp] theorem setCl_hist (s : State) (c : Nat) (x : Cluster) : (setCl s c x).hist = s.hist := rfl
@[simp] theorem setCl_cacheBad (s : State) (c : Nat) (x : Cluster) : (setCl s c x).cacheBad = s.cacheBad := rfl
@[simp] theorem setCl_sealMap (s : State) (c : Nat) (x : Cluster) : (setCl s c x).sealMap = s.sealMap := rfl
@[simp] theorem setCl_ctxs (s : State) (c : Nat) (x : Cluster) : (setCl s c x).ctxs = s.ctxs := rfl
@[simp] theorem setCl_queues (s : State) (c : Nat) (x : Cluster) : (setCl s c x).queues = s.queues := rfl
@[simp] theorem setCl_parts (s : State) (c : Nat) (x : Cluster) : (setCl s c x).parts = s.parts := rfl
@[simp] theorem setCl_redns (s : State) (c : Nat) (x : Cluster) : (setCl s c x).redns = s.redns := rfl
@[simp] theorem setCl_outst (s : State) (c : Nat) (x : Cluster) : (setCl s c x).outst = s.outst := rfl
@[simp] theorem setCl_soft (s : State) (c : Nat) (x : Cluster) : (setCl s c x).soft = s.soft := rfl
@[simp] theorem setCl_stage (s : State) (c : Nat) (x : Cluster) : (setCl s c x).stage = s.stage := rfl
@[simp] theorem setCl_msix (s : State) (c : Nat) (x : Cluster) : (setCl s c x).msix = s.msix := rfl
@[simp] theorem setCl_msixTab (s : State) (c : Nat) (x : Cluster) : (setCl s c x).msixTab = s.msixTab := rfl
@[simp] theorem setCl_msixPend (s : State) (c : Nat) (x : Cluster) : (setCl s c x).msixPend = s.msixPend := rfl
@[simp] theorem setCl_accw (s : State) (c : Nat) (x : Cluster) : (setCl s c x).accw = s.accw := rfl
@[simp] theorem setCl_prolTurn (s : State) (c : Nat) (x : Cluster) : (setCl s c x).prolTurn = s.prolTurn := rfl
@[simp] theorem setCl_nextId (s : State) (c : Nat) (x : Cluster) : (setCl s c x).nextId = s.nextId := rfl
@[simp] theorem setCl_tt (s : State) (c : Nat) (x : Cluster) : (setCl s c x).tt = s.tt := rfl
@[simp] theorem setCl_netq (s : State) (c : Nat) (x : Cluster) : (setCl s c x).netq = s.netq := rfl
@[simp] theorem setCl_gated (s : State) (c : Nat) (x : Cluster) : (setCl s c x).gated = s.gated := rfl
@[simp] theorem setCl_retries (s : State) (c : Nat) (x : Cluster) : (setCl s c x).retries = s.retries := rfl
@[simp] theorem setCl_linksDown (s : State) (c : Nat) (x : Cluster) : (setCl s c x).linksDown = s.linksDown := rfl
@[simp] theorem setCl_closed (s : State) (c : Nat) (x : Cluster) : (setCl s c x).closed = s.closed := rfl

@[simp] theorem modCl_cur (s : State) (c : Nat) (g : Cluster → Cluster) : (modCl s c g).cur = s.cur := rfl
@[simp] theorem modCl_f (s : State) (c : Nat) (g : Cluster → Cluster) : (modCl s c g).f = s.f := rfl
@[simp] theorem modCl_w (s : State) (c : Nat) (g : Cluster → Cluster) : (modCl s c g).w = s.w := rfl
@[simp] theorem modCl_grp (s : State) (c : Nat) (g : Cluster → Cluster) : (modCl s c g).grp = s.grp := rfl
@[simp] theorem modCl_evq (s : State) (c : Nat) (g : Cluster → Cluster) : (modCl s c g).evq = s.evq := rfl
@[simp] theorem modCl_sched (s : State) (c : Nat) (g : Cluster → Cluster) : (modCl s c g).sched = s.sched := rfl
@[simp] theorem modCl_bootEnds (s : State) (c : Nat) (g : Cluster → Cluster) : (modCl s c g).bootEnds = s.bootEnds := rfl
@[simp] theorem modCl_tick (s : State) (c : Nat) (g : Cluster → Cluster) : (modCl s c g).tick = s.tick := rfl
@[simp] theorem modCl_fibs (s : State) (c : Nat) (g : Cluster → Cluster) : (modCl s c g).fibs = s.fibs := rfl
@[simp] theorem modCl_warps (s : State) (c : Nat) (g : Cluster → Cluster) : (modCl s c g).warps = s.warps := rfl
@[simp] theorem modCl_wgs (s : State) (c : Nat) (g : Cluster → Cluster) : (modCl s c g).wgs = s.wgs := rfl
@[simp] theorem modCl_launches (s : State) (c : Nat) (g : Cluster → Cluster) : (modCl s c g).launches = s.launches := rfl
@[simp] theorem modCl_comps (s : State) (c : Nat) (g : Cluster → Cluster) : (modCl s c g).comps = s.comps := rfl
@[simp] theorem modCl_pipes (s : State) (c : Nat) (g : Cluster → Cluster) : (modCl s c g).pipes = s.pipes := rfl
@[simp] theorem modCl_cores (s : State) (c : Nat) (g : Cluster → Cluster) : (modCl s c g).cores = s.cores := rfl
@[simp] theorem modCl_mem (s : State) (c : Nat) (g : Cluster → Cluster) : (modCl s c g).mem = s.mem := rfl
@[simp] theorem modCl_slices (s : State) (c : Nat) (g : Cluster → Cluster) : (modCl s c g).slices = s.slices := rfl
@[simp] theorem modCl_hostMem (s : State) (c : Nat) (g : Cluster → Cluster) : (modCl s c g).hostMem = s.hostMem := rfl
@[simp] theorem modCl_peerMem (s : State) (c : Nat) (g : Cluster → Cluster) : (modCl s c g).peerMem = s.peerMem := rfl
@[simp] theorem modCl_memBad (s : State) (c : Nat) (g : Cluster → Cluster) : (modCl s c g).memBad = s.memBad := rfl
@[simp] theorem modCl_hist (s : State) (c : Nat) (g : Cluster → Cluster) : (modCl s c g).hist = s.hist := rfl
@[simp] theorem modCl_cacheBad (s : State) (c : Nat) (g : Cluster → Cluster) : (modCl s c g).cacheBad = s.cacheBad := rfl
@[simp] theorem modCl_sealMap (s : State) (c : Nat) (g : Cluster → Cluster) : (modCl s c g).sealMap = s.sealMap := rfl
@[simp] theorem modCl_ctxs (s : State) (c : Nat) (g : Cluster → Cluster) : (modCl s c g).ctxs = s.ctxs := rfl
@[simp] theorem modCl_queues (s : State) (c : Nat) (g : Cluster → Cluster) : (modCl s c g).queues = s.queues := rfl
@[simp] theorem modCl_parts (s : State) (c : Nat) (g : Cluster → Cluster) : (modCl s c g).parts = s.parts := rfl
@[simp] theorem modCl_redns (s : State) (c : Nat) (g : Cluster → Cluster) : (modCl s c g).redns = s.redns := rfl
@[simp] theorem modCl_outst (s : State) (c : Nat) (g : Cluster → Cluster) : (modCl s c g).outst = s.outst := rfl
@[simp] theorem modCl_soft (s : State) (c : Nat) (g : Cluster → Cluster) : (modCl s c g).soft = s.soft := rfl
@[simp] theorem modCl_stage (s : State) (c : Nat) (g : Cluster → Cluster) : (modCl s c g).stage = s.stage := rfl
@[simp] theorem modCl_msix (s : State) (c : Nat) (g : Cluster → Cluster) : (modCl s c g).msix = s.msix := rfl
@[simp] theorem modCl_msixTab (s : State) (c : Nat) (g : Cluster → Cluster) : (modCl s c g).msixTab = s.msixTab := rfl
@[simp] theorem modCl_msixPend (s : State) (c : Nat) (g : Cluster → Cluster) : (modCl s c g).msixPend = s.msixPend := rfl
@[simp] theorem modCl_accw (s : State) (c : Nat) (g : Cluster → Cluster) : (modCl s c g).accw = s.accw := rfl
@[simp] theorem modCl_prolTurn (s : State) (c : Nat) (g : Cluster → Cluster) : (modCl s c g).prolTurn = s.prolTurn := rfl
@[simp] theorem modCl_nextId (s : State) (c : Nat) (g : Cluster → Cluster) : (modCl s c g).nextId = s.nextId := rfl
@[simp] theorem modCl_tt (s : State) (c : Nat) (g : Cluster → Cluster) : (modCl s c g).tt = s.tt := rfl
@[simp] theorem modCl_netq (s : State) (c : Nat) (g : Cluster → Cluster) : (modCl s c g).netq = s.netq := rfl
@[simp] theorem modCl_gated (s : State) (c : Nat) (g : Cluster → Cluster) : (modCl s c g).gated = s.gated := rfl
@[simp] theorem modCl_retries (s : State) (c : Nat) (g : Cluster → Cluster) : (modCl s c g).retries = s.retries := rfl
@[simp] theorem modCl_linksDown (s : State) (c : Nat) (g : Cluster → Cluster) : (modCl s c g).linksDown = s.linksDown := rfl
@[simp] theorem modCl_closed (s : State) (c : Nat) (g : Cluster → Cluster) : (modCl s c g).closed = s.closed := rfl

@[simp] theorem modCore_cur (s : State) (c : Nat) (g : Core → Core) : (modCore s c g).cur = s.cur := rfl
@[simp] theorem modCore_f (s : State) (c : Nat) (g : Core → Core) : (modCore s c g).f = s.f := rfl
@[simp] theorem modCore_w (s : State) (c : Nat) (g : Core → Core) : (modCore s c g).w = s.w := rfl
@[simp] theorem modCore_grp (s : State) (c : Nat) (g : Core → Core) : (modCore s c g).grp = s.grp := rfl
@[simp] theorem modCore_evq (s : State) (c : Nat) (g : Core → Core) : (modCore s c g).evq = s.evq := rfl
@[simp] theorem modCore_sched (s : State) (c : Nat) (g : Core → Core) : (modCore s c g).sched = s.sched := rfl
@[simp] theorem modCore_bootEnds (s : State) (c : Nat) (g : Core → Core) : (modCore s c g).bootEnds = s.bootEnds := rfl
@[simp] theorem modCore_tick (s : State) (c : Nat) (g : Core → Core) : (modCore s c g).tick = s.tick := rfl
@[simp] theorem modCore_fibs (s : State) (c : Nat) (g : Core → Core) : (modCore s c g).fibs = s.fibs := rfl
@[simp] theorem modCore_warps (s : State) (c : Nat) (g : Core → Core) : (modCore s c g).warps = s.warps := rfl
@[simp] theorem modCore_wgs (s : State) (c : Nat) (g : Core → Core) : (modCore s c g).wgs = s.wgs := rfl
@[simp] theorem modCore_launches (s : State) (c : Nat) (g : Core → Core) : (modCore s c g).launches = s.launches := rfl
@[simp] theorem modCore_comps (s : State) (c : Nat) (g : Core → Core) : (modCore s c g).comps = s.comps := rfl
@[simp] theorem modCore_pipes (s : State) (c : Nat) (g : Core → Core) : (modCore s c g).pipes = s.pipes := rfl
@[simp] theorem modCore_clusters (s : State) (c : Nat) (g : Core → Core) : (modCore s c g).clusters = s.clusters := rfl
@[simp] theorem modCore_mem (s : State) (c : Nat) (g : Core → Core) : (modCore s c g).mem = s.mem := rfl
@[simp] theorem modCore_slices (s : State) (c : Nat) (g : Core → Core) : (modCore s c g).slices = s.slices := rfl
@[simp] theorem modCore_hostMem (s : State) (c : Nat) (g : Core → Core) : (modCore s c g).hostMem = s.hostMem := rfl
@[simp] theorem modCore_peerMem (s : State) (c : Nat) (g : Core → Core) : (modCore s c g).peerMem = s.peerMem := rfl
@[simp] theorem modCore_memBad (s : State) (c : Nat) (g : Core → Core) : (modCore s c g).memBad = s.memBad := rfl
@[simp] theorem modCore_hist (s : State) (c : Nat) (g : Core → Core) : (modCore s c g).hist = s.hist := rfl
@[simp] theorem modCore_cacheBad (s : State) (c : Nat) (g : Core → Core) : (modCore s c g).cacheBad = s.cacheBad := rfl
@[simp] theorem modCore_sealMap (s : State) (c : Nat) (g : Core → Core) : (modCore s c g).sealMap = s.sealMap := rfl
@[simp] theorem modCore_ctxs (s : State) (c : Nat) (g : Core → Core) : (modCore s c g).ctxs = s.ctxs := rfl
@[simp] theorem modCore_queues (s : State) (c : Nat) (g : Core → Core) : (modCore s c g).queues = s.queues := rfl
@[simp] theorem modCore_parts (s : State) (c : Nat) (g : Core → Core) : (modCore s c g).parts = s.parts := rfl
@[simp] theorem modCore_redns (s : State) (c : Nat) (g : Core → Core) : (modCore s c g).redns = s.redns := rfl
@[simp] theorem modCore_outst (s : State) (c : Nat) (g : Core → Core) : (modCore s c g).outst = s.outst := rfl
@[simp] theorem modCore_soft (s : State) (c : Nat) (g : Core → Core) : (modCore s c g).soft = s.soft := rfl
@[simp] theorem modCore_stage (s : State) (c : Nat) (g : Core → Core) : (modCore s c g).stage = s.stage := rfl
@[simp] theorem modCore_msix (s : State) (c : Nat) (g : Core → Core) : (modCore s c g).msix = s.msix := rfl
@[simp] theorem modCore_msixTab (s : State) (c : Nat) (g : Core → Core) : (modCore s c g).msixTab = s.msixTab := rfl
@[simp] theorem modCore_msixPend (s : State) (c : Nat) (g : Core → Core) : (modCore s c g).msixPend = s.msixPend := rfl
@[simp] theorem modCore_accw (s : State) (c : Nat) (g : Core → Core) : (modCore s c g).accw = s.accw := rfl
@[simp] theorem modCore_prolTurn (s : State) (c : Nat) (g : Core → Core) : (modCore s c g).prolTurn = s.prolTurn := rfl
@[simp] theorem modCore_nextId (s : State) (c : Nat) (g : Core → Core) : (modCore s c g).nextId = s.nextId := rfl
@[simp] theorem modCore_tt (s : State) (c : Nat) (g : Core → Core) : (modCore s c g).tt = s.tt := rfl
@[simp] theorem modCore_netq (s : State) (c : Nat) (g : Core → Core) : (modCore s c g).netq = s.netq := rfl
@[simp] theorem modCore_gated (s : State) (c : Nat) (g : Core → Core) : (modCore s c g).gated = s.gated := rfl
@[simp] theorem modCore_retries (s : State) (c : Nat) (g : Core → Core) : (modCore s c g).retries = s.retries := rfl
@[simp] theorem modCore_linksDown (s : State) (c : Nat) (g : Core → Core) : (modCore s c g).linksDown = s.linksDown := rfl
@[simp] theorem modCore_closed (s : State) (c : Nat) (g : Core → Core) : (modCore s c g).closed = s.closed := rfl

@[simp] theorem modWg_cur (s : State) (k : Nat) (g : Wg → Wg) : (modWg s k g).cur = s.cur := rfl
@[simp] theorem modWg_f (s : State) (k : Nat) (g : Wg → Wg) : (modWg s k g).f = s.f := rfl
@[simp] theorem modWg_w (s : State) (k : Nat) (g : Wg → Wg) : (modWg s k g).w = s.w := rfl
@[simp] theorem modWg_grp (s : State) (k : Nat) (g : Wg → Wg) : (modWg s k g).grp = s.grp := rfl
@[simp] theorem modWg_evq (s : State) (k : Nat) (g : Wg → Wg) : (modWg s k g).evq = s.evq := rfl
@[simp] theorem modWg_sched (s : State) (k : Nat) (g : Wg → Wg) : (modWg s k g).sched = s.sched := rfl
@[simp] theorem modWg_bootEnds (s : State) (k : Nat) (g : Wg → Wg) : (modWg s k g).bootEnds = s.bootEnds := rfl
@[simp] theorem modWg_tick (s : State) (k : Nat) (g : Wg → Wg) : (modWg s k g).tick = s.tick := rfl
@[simp] theorem modWg_fibs (s : State) (k : Nat) (g : Wg → Wg) : (modWg s k g).fibs = s.fibs := rfl
@[simp] theorem modWg_warps (s : State) (k : Nat) (g : Wg → Wg) : (modWg s k g).warps = s.warps := rfl
@[simp] theorem modWg_launches (s : State) (k : Nat) (g : Wg → Wg) : (modWg s k g).launches = s.launches := rfl
@[simp] theorem modWg_comps (s : State) (k : Nat) (g : Wg → Wg) : (modWg s k g).comps = s.comps := rfl
@[simp] theorem modWg_pipes (s : State) (k : Nat) (g : Wg → Wg) : (modWg s k g).pipes = s.pipes := rfl
@[simp] theorem modWg_clusters (s : State) (k : Nat) (g : Wg → Wg) : (modWg s k g).clusters = s.clusters := rfl
@[simp] theorem modWg_cores (s : State) (k : Nat) (g : Wg → Wg) : (modWg s k g).cores = s.cores := rfl
@[simp] theorem modWg_mem (s : State) (k : Nat) (g : Wg → Wg) : (modWg s k g).mem = s.mem := rfl
@[simp] theorem modWg_slices (s : State) (k : Nat) (g : Wg → Wg) : (modWg s k g).slices = s.slices := rfl
@[simp] theorem modWg_hostMem (s : State) (k : Nat) (g : Wg → Wg) : (modWg s k g).hostMem = s.hostMem := rfl
@[simp] theorem modWg_peerMem (s : State) (k : Nat) (g : Wg → Wg) : (modWg s k g).peerMem = s.peerMem := rfl
@[simp] theorem modWg_memBad (s : State) (k : Nat) (g : Wg → Wg) : (modWg s k g).memBad = s.memBad := rfl
@[simp] theorem modWg_hist (s : State) (k : Nat) (g : Wg → Wg) : (modWg s k g).hist = s.hist := rfl
@[simp] theorem modWg_cacheBad (s : State) (k : Nat) (g : Wg → Wg) : (modWg s k g).cacheBad = s.cacheBad := rfl
@[simp] theorem modWg_sealMap (s : State) (k : Nat) (g : Wg → Wg) : (modWg s k g).sealMap = s.sealMap := rfl
@[simp] theorem modWg_ctxs (s : State) (k : Nat) (g : Wg → Wg) : (modWg s k g).ctxs = s.ctxs := rfl
@[simp] theorem modWg_queues (s : State) (k : Nat) (g : Wg → Wg) : (modWg s k g).queues = s.queues := rfl
@[simp] theorem modWg_parts (s : State) (k : Nat) (g : Wg → Wg) : (modWg s k g).parts = s.parts := rfl
@[simp] theorem modWg_redns (s : State) (k : Nat) (g : Wg → Wg) : (modWg s k g).redns = s.redns := rfl
@[simp] theorem modWg_outst (s : State) (k : Nat) (g : Wg → Wg) : (modWg s k g).outst = s.outst := rfl
@[simp] theorem modWg_soft (s : State) (k : Nat) (g : Wg → Wg) : (modWg s k g).soft = s.soft := rfl
@[simp] theorem modWg_stage (s : State) (k : Nat) (g : Wg → Wg) : (modWg s k g).stage = s.stage := rfl
@[simp] theorem modWg_msix (s : State) (k : Nat) (g : Wg → Wg) : (modWg s k g).msix = s.msix := rfl
@[simp] theorem modWg_msixTab (s : State) (k : Nat) (g : Wg → Wg) : (modWg s k g).msixTab = s.msixTab := rfl
@[simp] theorem modWg_msixPend (s : State) (k : Nat) (g : Wg → Wg) : (modWg s k g).msixPend = s.msixPend := rfl
@[simp] theorem modWg_accw (s : State) (k : Nat) (g : Wg → Wg) : (modWg s k g).accw = s.accw := rfl
@[simp] theorem modWg_prolTurn (s : State) (k : Nat) (g : Wg → Wg) : (modWg s k g).prolTurn = s.prolTurn := rfl
@[simp] theorem modWg_nextId (s : State) (k : Nat) (g : Wg → Wg) : (modWg s k g).nextId = s.nextId := rfl
@[simp] theorem modWg_tt (s : State) (k : Nat) (g : Wg → Wg) : (modWg s k g).tt = s.tt := rfl
@[simp] theorem modWg_netq (s : State) (k : Nat) (g : Wg → Wg) : (modWg s k g).netq = s.netq := rfl
@[simp] theorem modWg_gated (s : State) (k : Nat) (g : Wg → Wg) : (modWg s k g).gated = s.gated := rfl
@[simp] theorem modWg_retries (s : State) (k : Nat) (g : Wg → Wg) : (modWg s k g).retries = s.retries := rfl
@[simp] theorem modWg_linksDown (s : State) (k : Nat) (g : Wg → Wg) : (modWg s k g).linksDown = s.linksDown := rfl
@[simp] theorem modWg_closed (s : State) (k : Nat) (g : Wg → Wg) : (modWg s k g).closed = s.closed := rfl

@[simp] theorem modL_cur (s : State) (k : Nat) (g : Launch → Launch) : (modL s k g).cur = s.cur := rfl
@[simp] theorem modL_f (s : State) (k : Nat) (g : Launch → Launch) : (modL s k g).f = s.f := rfl
@[simp] theorem modL_w (s : State) (k : Nat) (g : Launch → Launch) : (modL s k g).w = s.w := rfl
@[simp] theorem modL_grp (s : State) (k : Nat) (g : Launch → Launch) : (modL s k g).grp = s.grp := rfl
@[simp] theorem modL_evq (s : State) (k : Nat) (g : Launch → Launch) : (modL s k g).evq = s.evq := rfl
@[simp] theorem modL_sched (s : State) (k : Nat) (g : Launch → Launch) : (modL s k g).sched = s.sched := rfl
@[simp] theorem modL_bootEnds (s : State) (k : Nat) (g : Launch → Launch) : (modL s k g).bootEnds = s.bootEnds := rfl
@[simp] theorem modL_tick (s : State) (k : Nat) (g : Launch → Launch) : (modL s k g).tick = s.tick := rfl
@[simp] theorem modL_fibs (s : State) (k : Nat) (g : Launch → Launch) : (modL s k g).fibs = s.fibs := rfl
@[simp] theorem modL_warps (s : State) (k : Nat) (g : Launch → Launch) : (modL s k g).warps = s.warps := rfl
@[simp] theorem modL_wgs (s : State) (k : Nat) (g : Launch → Launch) : (modL s k g).wgs = s.wgs := rfl
@[simp] theorem modL_comps (s : State) (k : Nat) (g : Launch → Launch) : (modL s k g).comps = s.comps := rfl
@[simp] theorem modL_pipes (s : State) (k : Nat) (g : Launch → Launch) : (modL s k g).pipes = s.pipes := rfl
@[simp] theorem modL_clusters (s : State) (k : Nat) (g : Launch → Launch) : (modL s k g).clusters = s.clusters := rfl
@[simp] theorem modL_cores (s : State) (k : Nat) (g : Launch → Launch) : (modL s k g).cores = s.cores := rfl
@[simp] theorem modL_mem (s : State) (k : Nat) (g : Launch → Launch) : (modL s k g).mem = s.mem := rfl
@[simp] theorem modL_slices (s : State) (k : Nat) (g : Launch → Launch) : (modL s k g).slices = s.slices := rfl
@[simp] theorem modL_hostMem (s : State) (k : Nat) (g : Launch → Launch) : (modL s k g).hostMem = s.hostMem := rfl
@[simp] theorem modL_peerMem (s : State) (k : Nat) (g : Launch → Launch) : (modL s k g).peerMem = s.peerMem := rfl
@[simp] theorem modL_memBad (s : State) (k : Nat) (g : Launch → Launch) : (modL s k g).memBad = s.memBad := rfl
@[simp] theorem modL_hist (s : State) (k : Nat) (g : Launch → Launch) : (modL s k g).hist = s.hist := rfl
@[simp] theorem modL_cacheBad (s : State) (k : Nat) (g : Launch → Launch) : (modL s k g).cacheBad = s.cacheBad := rfl
@[simp] theorem modL_sealMap (s : State) (k : Nat) (g : Launch → Launch) : (modL s k g).sealMap = s.sealMap := rfl
@[simp] theorem modL_ctxs (s : State) (k : Nat) (g : Launch → Launch) : (modL s k g).ctxs = s.ctxs := rfl
@[simp] theorem modL_queues (s : State) (k : Nat) (g : Launch → Launch) : (modL s k g).queues = s.queues := rfl
@[simp] theorem modL_parts (s : State) (k : Nat) (g : Launch → Launch) : (modL s k g).parts = s.parts := rfl
@[simp] theorem modL_redns (s : State) (k : Nat) (g : Launch → Launch) : (modL s k g).redns = s.redns := rfl
@[simp] theorem modL_outst (s : State) (k : Nat) (g : Launch → Launch) : (modL s k g).outst = s.outst := rfl
@[simp] theorem modL_soft (s : State) (k : Nat) (g : Launch → Launch) : (modL s k g).soft = s.soft := rfl
@[simp] theorem modL_stage (s : State) (k : Nat) (g : Launch → Launch) : (modL s k g).stage = s.stage := rfl
@[simp] theorem modL_msix (s : State) (k : Nat) (g : Launch → Launch) : (modL s k g).msix = s.msix := rfl
@[simp] theorem modL_msixTab (s : State) (k : Nat) (g : Launch → Launch) : (modL s k g).msixTab = s.msixTab := rfl
@[simp] theorem modL_msixPend (s : State) (k : Nat) (g : Launch → Launch) : (modL s k g).msixPend = s.msixPend := rfl
@[simp] theorem modL_accw (s : State) (k : Nat) (g : Launch → Launch) : (modL s k g).accw = s.accw := rfl
@[simp] theorem modL_prolTurn (s : State) (k : Nat) (g : Launch → Launch) : (modL s k g).prolTurn = s.prolTurn := rfl
@[simp] theorem modL_nextId (s : State) (k : Nat) (g : Launch → Launch) : (modL s k g).nextId = s.nextId := rfl
@[simp] theorem modL_tt (s : State) (k : Nat) (g : Launch → Launch) : (modL s k g).tt = s.tt := rfl
@[simp] theorem modL_netq (s : State) (k : Nat) (g : Launch → Launch) : (modL s k g).netq = s.netq := rfl
@[simp] theorem modL_gated (s : State) (k : Nat) (g : Launch → Launch) : (modL s k g).gated = s.gated := rfl
@[simp] theorem modL_retries (s : State) (k : Nat) (g : Launch → Launch) : (modL s k g).retries = s.retries := rfl
@[simp] theorem modL_linksDown (s : State) (k : Nat) (g : Launch → Launch) : (modL s k g).linksDown = s.linksDown := rfl
@[simp] theorem modL_closed (s : State) (k : Nat) (g : Launch → Launch) : (modL s k g).closed = s.closed := rfl

@[simp] theorem modC_cur (s : State) (k : Nat) (g : Comp → Comp) : (modC s k g).cur = s.cur := rfl
@[simp] theorem modC_f (s : State) (k : Nat) (g : Comp → Comp) : (modC s k g).f = s.f := rfl
@[simp] theorem modC_w (s : State) (k : Nat) (g : Comp → Comp) : (modC s k g).w = s.w := rfl
@[simp] theorem modC_grp (s : State) (k : Nat) (g : Comp → Comp) : (modC s k g).grp = s.grp := rfl
@[simp] theorem modC_evq (s : State) (k : Nat) (g : Comp → Comp) : (modC s k g).evq = s.evq := rfl
@[simp] theorem modC_sched (s : State) (k : Nat) (g : Comp → Comp) : (modC s k g).sched = s.sched := rfl
@[simp] theorem modC_bootEnds (s : State) (k : Nat) (g : Comp → Comp) : (modC s k g).bootEnds = s.bootEnds := rfl
@[simp] theorem modC_tick (s : State) (k : Nat) (g : Comp → Comp) : (modC s k g).tick = s.tick := rfl
@[simp] theorem modC_fibs (s : State) (k : Nat) (g : Comp → Comp) : (modC s k g).fibs = s.fibs := rfl
@[simp] theorem modC_warps (s : State) (k : Nat) (g : Comp → Comp) : (modC s k g).warps = s.warps := rfl
@[simp] theorem modC_wgs (s : State) (k : Nat) (g : Comp → Comp) : (modC s k g).wgs = s.wgs := rfl
@[simp] theorem modC_launches (s : State) (k : Nat) (g : Comp → Comp) : (modC s k g).launches = s.launches := rfl
@[simp] theorem modC_pipes (s : State) (k : Nat) (g : Comp → Comp) : (modC s k g).pipes = s.pipes := rfl
@[simp] theorem modC_clusters (s : State) (k : Nat) (g : Comp → Comp) : (modC s k g).clusters = s.clusters := rfl
@[simp] theorem modC_cores (s : State) (k : Nat) (g : Comp → Comp) : (modC s k g).cores = s.cores := rfl
@[simp] theorem modC_mem (s : State) (k : Nat) (g : Comp → Comp) : (modC s k g).mem = s.mem := rfl
@[simp] theorem modC_slices (s : State) (k : Nat) (g : Comp → Comp) : (modC s k g).slices = s.slices := rfl
@[simp] theorem modC_hostMem (s : State) (k : Nat) (g : Comp → Comp) : (modC s k g).hostMem = s.hostMem := rfl
@[simp] theorem modC_peerMem (s : State) (k : Nat) (g : Comp → Comp) : (modC s k g).peerMem = s.peerMem := rfl
@[simp] theorem modC_memBad (s : State) (k : Nat) (g : Comp → Comp) : (modC s k g).memBad = s.memBad := rfl
@[simp] theorem modC_hist (s : State) (k : Nat) (g : Comp → Comp) : (modC s k g).hist = s.hist := rfl
@[simp] theorem modC_cacheBad (s : State) (k : Nat) (g : Comp → Comp) : (modC s k g).cacheBad = s.cacheBad := rfl
@[simp] theorem modC_sealMap (s : State) (k : Nat) (g : Comp → Comp) : (modC s k g).sealMap = s.sealMap := rfl
@[simp] theorem modC_ctxs (s : State) (k : Nat) (g : Comp → Comp) : (modC s k g).ctxs = s.ctxs := rfl
@[simp] theorem modC_queues (s : State) (k : Nat) (g : Comp → Comp) : (modC s k g).queues = s.queues := rfl
@[simp] theorem modC_parts (s : State) (k : Nat) (g : Comp → Comp) : (modC s k g).parts = s.parts := rfl
@[simp] theorem modC_redns (s : State) (k : Nat) (g : Comp → Comp) : (modC s k g).redns = s.redns := rfl
@[simp] theorem modC_outst (s : State) (k : Nat) (g : Comp → Comp) : (modC s k g).outst = s.outst := rfl
@[simp] theorem modC_soft (s : State) (k : Nat) (g : Comp → Comp) : (modC s k g).soft = s.soft := rfl
@[simp] theorem modC_stage (s : State) (k : Nat) (g : Comp → Comp) : (modC s k g).stage = s.stage := rfl
@[simp] theorem modC_msix (s : State) (k : Nat) (g : Comp → Comp) : (modC s k g).msix = s.msix := rfl
@[simp] theorem modC_msixTab (s : State) (k : Nat) (g : Comp → Comp) : (modC s k g).msixTab = s.msixTab := rfl
@[simp] theorem modC_msixPend (s : State) (k : Nat) (g : Comp → Comp) : (modC s k g).msixPend = s.msixPend := rfl
@[simp] theorem modC_accw (s : State) (k : Nat) (g : Comp → Comp) : (modC s k g).accw = s.accw := rfl
@[simp] theorem modC_prolTurn (s : State) (k : Nat) (g : Comp → Comp) : (modC s k g).prolTurn = s.prolTurn := rfl
@[simp] theorem modC_nextId (s : State) (k : Nat) (g : Comp → Comp) : (modC s k g).nextId = s.nextId := rfl
@[simp] theorem modC_tt (s : State) (k : Nat) (g : Comp → Comp) : (modC s k g).tt = s.tt := rfl
@[simp] theorem modC_netq (s : State) (k : Nat) (g : Comp → Comp) : (modC s k g).netq = s.netq := rfl
@[simp] theorem modC_gated (s : State) (k : Nat) (g : Comp → Comp) : (modC s k g).gated = s.gated := rfl
@[simp] theorem modC_retries (s : State) (k : Nat) (g : Comp → Comp) : (modC s k g).retries = s.retries := rfl
@[simp] theorem modC_linksDown (s : State) (k : Nat) (g : Comp → Comp) : (modC s k g).linksDown = s.linksDown := rfl
@[simp] theorem modC_closed (s : State) (k : Nat) (g : Comp → Comp) : (modC s k g).closed = s.closed := rfl

@[simp] theorem modP_cur (s : State) (k : Nat) (g : Pipeline → Pipeline) : (modP s k g).cur = s.cur := rfl
@[simp] theorem modP_f (s : State) (k : Nat) (g : Pipeline → Pipeline) : (modP s k g).f = s.f := rfl
@[simp] theorem modP_w (s : State) (k : Nat) (g : Pipeline → Pipeline) : (modP s k g).w = s.w := rfl
@[simp] theorem modP_grp (s : State) (k : Nat) (g : Pipeline → Pipeline) : (modP s k g).grp = s.grp := rfl
@[simp] theorem modP_evq (s : State) (k : Nat) (g : Pipeline → Pipeline) : (modP s k g).evq = s.evq := rfl
@[simp] theorem modP_sched (s : State) (k : Nat) (g : Pipeline → Pipeline) : (modP s k g).sched = s.sched := rfl
@[simp] theorem modP_bootEnds (s : State) (k : Nat) (g : Pipeline → Pipeline) : (modP s k g).bootEnds = s.bootEnds := rfl
@[simp] theorem modP_tick (s : State) (k : Nat) (g : Pipeline → Pipeline) : (modP s k g).tick = s.tick := rfl
@[simp] theorem modP_fibs (s : State) (k : Nat) (g : Pipeline → Pipeline) : (modP s k g).fibs = s.fibs := rfl
@[simp] theorem modP_warps (s : State) (k : Nat) (g : Pipeline → Pipeline) : (modP s k g).warps = s.warps := rfl
@[simp] theorem modP_wgs (s : State) (k : Nat) (g : Pipeline → Pipeline) : (modP s k g).wgs = s.wgs := rfl
@[simp] theorem modP_launches (s : State) (k : Nat) (g : Pipeline → Pipeline) : (modP s k g).launches = s.launches := rfl
@[simp] theorem modP_comps (s : State) (k : Nat) (g : Pipeline → Pipeline) : (modP s k g).comps = s.comps := rfl
@[simp] theorem modP_clusters (s : State) (k : Nat) (g : Pipeline → Pipeline) : (modP s k g).clusters = s.clusters := rfl
@[simp] theorem modP_cores (s : State) (k : Nat) (g : Pipeline → Pipeline) : (modP s k g).cores = s.cores := rfl
@[simp] theorem modP_mem (s : State) (k : Nat) (g : Pipeline → Pipeline) : (modP s k g).mem = s.mem := rfl
@[simp] theorem modP_slices (s : State) (k : Nat) (g : Pipeline → Pipeline) : (modP s k g).slices = s.slices := rfl
@[simp] theorem modP_hostMem (s : State) (k : Nat) (g : Pipeline → Pipeline) : (modP s k g).hostMem = s.hostMem := rfl
@[simp] theorem modP_peerMem (s : State) (k : Nat) (g : Pipeline → Pipeline) : (modP s k g).peerMem = s.peerMem := rfl
@[simp] theorem modP_memBad (s : State) (k : Nat) (g : Pipeline → Pipeline) : (modP s k g).memBad = s.memBad := rfl
@[simp] theorem modP_hist (s : State) (k : Nat) (g : Pipeline → Pipeline) : (modP s k g).hist = s.hist := rfl
@[simp] theorem modP_cacheBad (s : State) (k : Nat) (g : Pipeline → Pipeline) : (modP s k g).cacheBad = s.cacheBad := rfl
@[simp] theorem modP_sealMap (s : State) (k : Nat) (g : Pipeline → Pipeline) : (modP s k g).sealMap = s.sealMap := rfl
@[simp] theorem modP_ctxs (s : State) (k : Nat) (g : Pipeline → Pipeline) : (modP s k g).ctxs = s.ctxs := rfl
@[simp] theorem modP_queues (s : State) (k : Nat) (g : Pipeline → Pipeline) : (modP s k g).queues = s.queues := rfl
@[simp] theorem modP_parts (s : State) (k : Nat) (g : Pipeline → Pipeline) : (modP s k g).parts = s.parts := rfl
@[simp] theorem modP_redns (s : State) (k : Nat) (g : Pipeline → Pipeline) : (modP s k g).redns = s.redns := rfl
@[simp] theorem modP_outst (s : State) (k : Nat) (g : Pipeline → Pipeline) : (modP s k g).outst = s.outst := rfl
@[simp] theorem modP_soft (s : State) (k : Nat) (g : Pipeline → Pipeline) : (modP s k g).soft = s.soft := rfl
@[simp] theorem modP_stage (s : State) (k : Nat) (g : Pipeline → Pipeline) : (modP s k g).stage = s.stage := rfl
@[simp] theorem modP_msix (s : State) (k : Nat) (g : Pipeline → Pipeline) : (modP s k g).msix = s.msix := rfl
@[simp] theorem modP_msixTab (s : State) (k : Nat) (g : Pipeline → Pipeline) : (modP s k g).msixTab = s.msixTab := rfl
@[simp] theorem modP_msixPend (s : State) (k : Nat) (g : Pipeline → Pipeline) : (modP s k g).msixPend = s.msixPend := rfl
@[simp] theorem modP_accw (s : State) (k : Nat) (g : Pipeline → Pipeline) : (modP s k g).accw = s.accw := rfl
@[simp] theorem modP_prolTurn (s : State) (k : Nat) (g : Pipeline → Pipeline) : (modP s k g).prolTurn = s.prolTurn := rfl
@[simp] theorem modP_nextId (s : State) (k : Nat) (g : Pipeline → Pipeline) : (modP s k g).nextId = s.nextId := rfl
@[simp] theorem modP_tt (s : State) (k : Nat) (g : Pipeline → Pipeline) : (modP s k g).tt = s.tt := rfl
@[simp] theorem modP_netq (s : State) (k : Nat) (g : Pipeline → Pipeline) : (modP s k g).netq = s.netq := rfl
@[simp] theorem modP_gated (s : State) (k : Nat) (g : Pipeline → Pipeline) : (modP s k g).gated = s.gated := rfl
@[simp] theorem modP_retries (s : State) (k : Nat) (g : Pipeline → Pipeline) : (modP s k g).retries = s.retries := rfl
@[simp] theorem modP_linksDown (s : State) (k : Nat) (g : Pipeline → Pipeline) : (modP s k g).linksDown = s.linksDown := rfl
@[simp] theorem modP_closed (s : State) (k : Nat) (g : Pipeline → Pipeline) : (modP s k g).closed = s.closed := rfl

@[simp] theorem modQ_cur (s : State) (q : Nat) (g : Queue → Queue) : (modQ s q g).cur = s.cur := rfl
@[simp] theorem modQ_f (s : State) (q : Nat) (g : Queue → Queue) : (modQ s q g).f = s.f := rfl
@[simp] theorem modQ_w (s : State) (q : Nat) (g : Queue → Queue) : (modQ s q g).w = s.w := rfl
@[simp] theorem modQ_grp (s : State) (q : Nat) (g : Queue → Queue) : (modQ s q g).grp = s.grp := rfl
@[simp] theorem modQ_evq (s : State) (q : Nat) (g : Queue → Queue) : (modQ s q g).evq = s.evq := rfl
@[simp] theorem modQ_sched (s : State) (q : Nat) (g : Queue → Queue) : (modQ s q g).sched = s.sched := rfl
@[simp] theorem modQ_bootEnds (s : State) (q : Nat) (g : Queue → Queue) : (modQ s q g).bootEnds = s.bootEnds := rfl
@[simp] theorem modQ_tick (s : State) (q : Nat) (g : Queue → Queue) : (modQ s q g).tick = s.tick := rfl
@[simp] theorem modQ_fibs (s : State) (q : Nat) (g : Queue → Queue) : (modQ s q g).fibs = s.fibs := rfl
@[simp] theorem modQ_warps (s : State) (q : Nat) (g : Queue → Queue) : (modQ s q g).warps = s.warps := rfl
@[simp] theorem modQ_wgs (s : State) (q : Nat) (g : Queue → Queue) : (modQ s q g).wgs = s.wgs := rfl
@[simp] theorem modQ_launches (s : State) (q : Nat) (g : Queue → Queue) : (modQ s q g).launches = s.launches := rfl
@[simp] theorem modQ_comps (s : State) (q : Nat) (g : Queue → Queue) : (modQ s q g).comps = s.comps := rfl
@[simp] theorem modQ_pipes (s : State) (q : Nat) (g : Queue → Queue) : (modQ s q g).pipes = s.pipes := rfl
@[simp] theorem modQ_clusters (s : State) (q : Nat) (g : Queue → Queue) : (modQ s q g).clusters = s.clusters := rfl
@[simp] theorem modQ_cores (s : State) (q : Nat) (g : Queue → Queue) : (modQ s q g).cores = s.cores := rfl
@[simp] theorem modQ_mem (s : State) (q : Nat) (g : Queue → Queue) : (modQ s q g).mem = s.mem := rfl
@[simp] theorem modQ_slices (s : State) (q : Nat) (g : Queue → Queue) : (modQ s q g).slices = s.slices := rfl
@[simp] theorem modQ_hostMem (s : State) (q : Nat) (g : Queue → Queue) : (modQ s q g).hostMem = s.hostMem := rfl
@[simp] theorem modQ_peerMem (s : State) (q : Nat) (g : Queue → Queue) : (modQ s q g).peerMem = s.peerMem := rfl
@[simp] theorem modQ_memBad (s : State) (q : Nat) (g : Queue → Queue) : (modQ s q g).memBad = s.memBad := rfl
@[simp] theorem modQ_hist (s : State) (q : Nat) (g : Queue → Queue) : (modQ s q g).hist = s.hist := rfl
@[simp] theorem modQ_cacheBad (s : State) (q : Nat) (g : Queue → Queue) : (modQ s q g).cacheBad = s.cacheBad := rfl
@[simp] theorem modQ_sealMap (s : State) (q : Nat) (g : Queue → Queue) : (modQ s q g).sealMap = s.sealMap := rfl
@[simp] theorem modQ_ctxs (s : State) (q : Nat) (g : Queue → Queue) : (modQ s q g).ctxs = s.ctxs := rfl
@[simp] theorem modQ_parts (s : State) (q : Nat) (g : Queue → Queue) : (modQ s q g).parts = s.parts := rfl
@[simp] theorem modQ_redns (s : State) (q : Nat) (g : Queue → Queue) : (modQ s q g).redns = s.redns := rfl
@[simp] theorem modQ_outst (s : State) (q : Nat) (g : Queue → Queue) : (modQ s q g).outst = s.outst := rfl
@[simp] theorem modQ_soft (s : State) (q : Nat) (g : Queue → Queue) : (modQ s q g).soft = s.soft := rfl
@[simp] theorem modQ_stage (s : State) (q : Nat) (g : Queue → Queue) : (modQ s q g).stage = s.stage := rfl
@[simp] theorem modQ_msix (s : State) (q : Nat) (g : Queue → Queue) : (modQ s q g).msix = s.msix := rfl
@[simp] theorem modQ_msixTab (s : State) (q : Nat) (g : Queue → Queue) : (modQ s q g).msixTab = s.msixTab := rfl
@[simp] theorem modQ_msixPend (s : State) (q : Nat) (g : Queue → Queue) : (modQ s q g).msixPend = s.msixPend := rfl
@[simp] theorem modQ_accw (s : State) (q : Nat) (g : Queue → Queue) : (modQ s q g).accw = s.accw := rfl
@[simp] theorem modQ_prolTurn (s : State) (q : Nat) (g : Queue → Queue) : (modQ s q g).prolTurn = s.prolTurn := rfl
@[simp] theorem modQ_nextId (s : State) (q : Nat) (g : Queue → Queue) : (modQ s q g).nextId = s.nextId := rfl
@[simp] theorem modQ_tt (s : State) (q : Nat) (g : Queue → Queue) : (modQ s q g).tt = s.tt := rfl
@[simp] theorem modQ_netq (s : State) (q : Nat) (g : Queue → Queue) : (modQ s q g).netq = s.netq := rfl
@[simp] theorem modQ_gated (s : State) (q : Nat) (g : Queue → Queue) : (modQ s q g).gated = s.gated := rfl
@[simp] theorem modQ_retries (s : State) (q : Nat) (g : Queue → Queue) : (modQ s q g).retries = s.retries := rfl
@[simp] theorem modQ_linksDown (s : State) (q : Nat) (g : Queue → Queue) : (modQ s q g).linksDown = s.linksDown := rfl
@[simp] theorem modQ_closed (s : State) (q : Nat) (g : Queue → Queue) : (modQ s q g).closed = s.closed := rfl

@[simp] theorem modPart_cur (s : State) (p : Nat) (g : Part → Part) : (modPart s p g).cur = s.cur := rfl
@[simp] theorem modPart_f (s : State) (p : Nat) (g : Part → Part) : (modPart s p g).f = s.f := rfl
@[simp] theorem modPart_w (s : State) (p : Nat) (g : Part → Part) : (modPart s p g).w = s.w := rfl
@[simp] theorem modPart_grp (s : State) (p : Nat) (g : Part → Part) : (modPart s p g).grp = s.grp := rfl
@[simp] theorem modPart_evq (s : State) (p : Nat) (g : Part → Part) : (modPart s p g).evq = s.evq := rfl
@[simp] theorem modPart_sched (s : State) (p : Nat) (g : Part → Part) : (modPart s p g).sched = s.sched := rfl
@[simp] theorem modPart_bootEnds (s : State) (p : Nat) (g : Part → Part) : (modPart s p g).bootEnds = s.bootEnds := rfl
@[simp] theorem modPart_tick (s : State) (p : Nat) (g : Part → Part) : (modPart s p g).tick = s.tick := rfl
@[simp] theorem modPart_fibs (s : State) (p : Nat) (g : Part → Part) : (modPart s p g).fibs = s.fibs := rfl
@[simp] theorem modPart_warps (s : State) (p : Nat) (g : Part → Part) : (modPart s p g).warps = s.warps := rfl
@[simp] theorem modPart_wgs (s : State) (p : Nat) (g : Part → Part) : (modPart s p g).wgs = s.wgs := rfl
@[simp] theorem modPart_launches (s : State) (p : Nat) (g : Part → Part) : (modPart s p g).launches = s.launches := rfl
@[simp] theorem modPart_comps (s : State) (p : Nat) (g : Part → Part) : (modPart s p g).comps = s.comps := rfl
@[simp] theorem modPart_pipes (s : State) (p : Nat) (g : Part → Part) : (modPart s p g).pipes = s.pipes := rfl
@[simp] theorem modPart_clusters (s : State) (p : Nat) (g : Part → Part) : (modPart s p g).clusters = s.clusters := rfl
@[simp] theorem modPart_cores (s : State) (p : Nat) (g : Part → Part) : (modPart s p g).cores = s.cores := rfl
@[simp] theorem modPart_mem (s : State) (p : Nat) (g : Part → Part) : (modPart s p g).mem = s.mem := rfl
@[simp] theorem modPart_slices (s : State) (p : Nat) (g : Part → Part) : (modPart s p g).slices = s.slices := rfl
@[simp] theorem modPart_hostMem (s : State) (p : Nat) (g : Part → Part) : (modPart s p g).hostMem = s.hostMem := rfl
@[simp] theorem modPart_peerMem (s : State) (p : Nat) (g : Part → Part) : (modPart s p g).peerMem = s.peerMem := rfl
@[simp] theorem modPart_memBad (s : State) (p : Nat) (g : Part → Part) : (modPart s p g).memBad = s.memBad := rfl
@[simp] theorem modPart_hist (s : State) (p : Nat) (g : Part → Part) : (modPart s p g).hist = s.hist := rfl
@[simp] theorem modPart_cacheBad (s : State) (p : Nat) (g : Part → Part) : (modPart s p g).cacheBad = s.cacheBad := rfl
@[simp] theorem modPart_sealMap (s : State) (p : Nat) (g : Part → Part) : (modPart s p g).sealMap = s.sealMap := rfl
@[simp] theorem modPart_ctxs (s : State) (p : Nat) (g : Part → Part) : (modPart s p g).ctxs = s.ctxs := rfl
@[simp] theorem modPart_queues (s : State) (p : Nat) (g : Part → Part) : (modPart s p g).queues = s.queues := rfl
@[simp] theorem modPart_redns (s : State) (p : Nat) (g : Part → Part) : (modPart s p g).redns = s.redns := rfl
@[simp] theorem modPart_outst (s : State) (p : Nat) (g : Part → Part) : (modPart s p g).outst = s.outst := rfl
@[simp] theorem modPart_soft (s : State) (p : Nat) (g : Part → Part) : (modPart s p g).soft = s.soft := rfl
@[simp] theorem modPart_stage (s : State) (p : Nat) (g : Part → Part) : (modPart s p g).stage = s.stage := rfl
@[simp] theorem modPart_msix (s : State) (p : Nat) (g : Part → Part) : (modPart s p g).msix = s.msix := rfl
@[simp] theorem modPart_msixTab (s : State) (p : Nat) (g : Part → Part) : (modPart s p g).msixTab = s.msixTab := rfl
@[simp] theorem modPart_msixPend (s : State) (p : Nat) (g : Part → Part) : (modPart s p g).msixPend = s.msixPend := rfl
@[simp] theorem modPart_accw (s : State) (p : Nat) (g : Part → Part) : (modPart s p g).accw = s.accw := rfl
@[simp] theorem modPart_prolTurn (s : State) (p : Nat) (g : Part → Part) : (modPart s p g).prolTurn = s.prolTurn := rfl
@[simp] theorem modPart_nextId (s : State) (p : Nat) (g : Part → Part) : (modPart s p g).nextId = s.nextId := rfl
@[simp] theorem modPart_tt (s : State) (p : Nat) (g : Part → Part) : (modPart s p g).tt = s.tt := rfl
@[simp] theorem modPart_netq (s : State) (p : Nat) (g : Part → Part) : (modPart s p g).netq = s.netq := rfl
@[simp] theorem modPart_gated (s : State) (p : Nat) (g : Part → Part) : (modPart s p g).gated = s.gated := rfl
@[simp] theorem modPart_retries (s : State) (p : Nat) (g : Part → Part) : (modPart s p g).retries = s.retries := rfl
@[simp] theorem modPart_linksDown (s : State) (p : Nat) (g : Part → Part) : (modPart s p g).linksDown = s.linksDown := rfl
@[simp] theorem modPart_closed (s : State) (p : Nat) (g : Part → Part) : (modPart s p g).closed = s.closed := rfl

@[simp] theorem modCtx_cur (s : State) (i : Nat) (g : Ctx → Ctx) : (modCtx s i g).cur = s.cur := rfl
@[simp] theorem modCtx_f (s : State) (i : Nat) (g : Ctx → Ctx) : (modCtx s i g).f = s.f := rfl
@[simp] theorem modCtx_w (s : State) (i : Nat) (g : Ctx → Ctx) : (modCtx s i g).w = s.w := rfl
@[simp] theorem modCtx_grp (s : State) (i : Nat) (g : Ctx → Ctx) : (modCtx s i g).grp = s.grp := rfl
@[simp] theorem modCtx_evq (s : State) (i : Nat) (g : Ctx → Ctx) : (modCtx s i g).evq = s.evq := rfl
@[simp] theorem modCtx_sched (s : State) (i : Nat) (g : Ctx → Ctx) : (modCtx s i g).sched = s.sched := rfl
@[simp] theorem modCtx_bootEnds (s : State) (i : Nat) (g : Ctx → Ctx) : (modCtx s i g).bootEnds = s.bootEnds := rfl
@[simp] theorem modCtx_tick (s : State) (i : Nat) (g : Ctx → Ctx) : (modCtx s i g).tick = s.tick := rfl
@[simp] theorem modCtx_fibs (s : State) (i : Nat) (g : Ctx → Ctx) : (modCtx s i g).fibs = s.fibs := rfl
@[simp] theorem modCtx_warps (s : State) (i : Nat) (g : Ctx → Ctx) : (modCtx s i g).warps = s.warps := rfl
@[simp] theorem modCtx_wgs (s : State) (i : Nat) (g : Ctx → Ctx) : (modCtx s i g).wgs = s.wgs := rfl
@[simp] theorem modCtx_launches (s : State) (i : Nat) (g : Ctx → Ctx) : (modCtx s i g).launches = s.launches := rfl
@[simp] theorem modCtx_comps (s : State) (i : Nat) (g : Ctx → Ctx) : (modCtx s i g).comps = s.comps := rfl
@[simp] theorem modCtx_pipes (s : State) (i : Nat) (g : Ctx → Ctx) : (modCtx s i g).pipes = s.pipes := rfl
@[simp] theorem modCtx_clusters (s : State) (i : Nat) (g : Ctx → Ctx) : (modCtx s i g).clusters = s.clusters := rfl
@[simp] theorem modCtx_cores (s : State) (i : Nat) (g : Ctx → Ctx) : (modCtx s i g).cores = s.cores := rfl
@[simp] theorem modCtx_mem (s : State) (i : Nat) (g : Ctx → Ctx) : (modCtx s i g).mem = s.mem := rfl
@[simp] theorem modCtx_slices (s : State) (i : Nat) (g : Ctx → Ctx) : (modCtx s i g).slices = s.slices := rfl
@[simp] theorem modCtx_hostMem (s : State) (i : Nat) (g : Ctx → Ctx) : (modCtx s i g).hostMem = s.hostMem := rfl
@[simp] theorem modCtx_peerMem (s : State) (i : Nat) (g : Ctx → Ctx) : (modCtx s i g).peerMem = s.peerMem := rfl
@[simp] theorem modCtx_memBad (s : State) (i : Nat) (g : Ctx → Ctx) : (modCtx s i g).memBad = s.memBad := rfl
@[simp] theorem modCtx_hist (s : State) (i : Nat) (g : Ctx → Ctx) : (modCtx s i g).hist = s.hist := rfl
@[simp] theorem modCtx_cacheBad (s : State) (i : Nat) (g : Ctx → Ctx) : (modCtx s i g).cacheBad = s.cacheBad := rfl
@[simp] theorem modCtx_sealMap (s : State) (i : Nat) (g : Ctx → Ctx) : (modCtx s i g).sealMap = s.sealMap := rfl
@[simp] theorem modCtx_queues (s : State) (i : Nat) (g : Ctx → Ctx) : (modCtx s i g).queues = s.queues := rfl
@[simp] theorem modCtx_parts (s : State) (i : Nat) (g : Ctx → Ctx) : (modCtx s i g).parts = s.parts := rfl
@[simp] theorem modCtx_redns (s : State) (i : Nat) (g : Ctx → Ctx) : (modCtx s i g).redns = s.redns := rfl
@[simp] theorem modCtx_outst (s : State) (i : Nat) (g : Ctx → Ctx) : (modCtx s i g).outst = s.outst := rfl
@[simp] theorem modCtx_soft (s : State) (i : Nat) (g : Ctx → Ctx) : (modCtx s i g).soft = s.soft := rfl
@[simp] theorem modCtx_stage (s : State) (i : Nat) (g : Ctx → Ctx) : (modCtx s i g).stage = s.stage := rfl
@[simp] theorem modCtx_msix (s : State) (i : Nat) (g : Ctx → Ctx) : (modCtx s i g).msix = s.msix := rfl
@[simp] theorem modCtx_msixTab (s : State) (i : Nat) (g : Ctx → Ctx) : (modCtx s i g).msixTab = s.msixTab := rfl
@[simp] theorem modCtx_msixPend (s : State) (i : Nat) (g : Ctx → Ctx) : (modCtx s i g).msixPend = s.msixPend := rfl
@[simp] theorem modCtx_accw (s : State) (i : Nat) (g : Ctx → Ctx) : (modCtx s i g).accw = s.accw := rfl
@[simp] theorem modCtx_prolTurn (s : State) (i : Nat) (g : Ctx → Ctx) : (modCtx s i g).prolTurn = s.prolTurn := rfl
@[simp] theorem modCtx_nextId (s : State) (i : Nat) (g : Ctx → Ctx) : (modCtx s i g).nextId = s.nextId := rfl
@[simp] theorem modCtx_tt (s : State) (i : Nat) (g : Ctx → Ctx) : (modCtx s i g).tt = s.tt := rfl
@[simp] theorem modCtx_netq (s : State) (i : Nat) (g : Ctx → Ctx) : (modCtx s i g).netq = s.netq := rfl
@[simp] theorem modCtx_gated (s : State) (i : Nat) (g : Ctx → Ctx) : (modCtx s i g).gated = s.gated := rfl
@[simp] theorem modCtx_retries (s : State) (i : Nat) (g : Ctx → Ctx) : (modCtx s i g).retries = s.retries := rfl
@[simp] theorem modCtx_linksDown (s : State) (i : Nat) (g : Ctx → Ctx) : (modCtx s i g).linksDown = s.linksDown := rfl
@[simp] theorem modCtx_closed (s : State) (i : Nat) (g : Ctx → Ctx) : (modCtx s i g).closed = s.closed := rfl

@[simp] theorem perfCore_cur (s : State) (core csr n : Nat) : (perfCore s core csr n).cur = s.cur := rfl
@[simp] theorem perfCore_f (s : State) (core csr n : Nat) : (perfCore s core csr n).f = s.f := rfl
@[simp] theorem perfCore_w (s : State) (core csr n : Nat) : (perfCore s core csr n).w = s.w := rfl
@[simp] theorem perfCore_grp (s : State) (core csr n : Nat) : (perfCore s core csr n).grp = s.grp := rfl
@[simp] theorem perfCore_evq (s : State) (core csr n : Nat) : (perfCore s core csr n).evq = s.evq := rfl
@[simp] theorem perfCore_sched (s : State) (core csr n : Nat) : (perfCore s core csr n).sched = s.sched := rfl
@[simp] theorem perfCore_bootEnds (s : State) (core csr n : Nat) : (perfCore s core csr n).bootEnds = s.bootEnds := rfl
@[simp] theorem perfCore_tick (s : State) (core csr n : Nat) : (perfCore s core csr n).tick = s.tick := rfl
@[simp] theorem perfCore_fibs (s : State) (core csr n : Nat) : (perfCore s core csr n).fibs = s.fibs := rfl
@[simp] theorem perfCore_warps (s : State) (core csr n : Nat) : (perfCore s core csr n).warps = s.warps := rfl
@[simp] theorem perfCore_wgs (s : State) (core csr n : Nat) : (perfCore s core csr n).wgs = s.wgs := rfl
@[simp] theorem perfCore_launches (s : State) (core csr n : Nat) : (perfCore s core csr n).launches = s.launches := rfl
@[simp] theorem perfCore_comps (s : State) (core csr n : Nat) : (perfCore s core csr n).comps = s.comps := rfl
@[simp] theorem perfCore_pipes (s : State) (core csr n : Nat) : (perfCore s core csr n).pipes = s.pipes := rfl
@[simp] theorem perfCore_clusters (s : State) (core csr n : Nat) : (perfCore s core csr n).clusters = s.clusters := rfl
@[simp] theorem perfCore_mem (s : State) (core csr n : Nat) : (perfCore s core csr n).mem = s.mem := rfl
@[simp] theorem perfCore_slices (s : State) (core csr n : Nat) : (perfCore s core csr n).slices = s.slices := rfl
@[simp] theorem perfCore_hostMem (s : State) (core csr n : Nat) : (perfCore s core csr n).hostMem = s.hostMem := rfl
@[simp] theorem perfCore_peerMem (s : State) (core csr n : Nat) : (perfCore s core csr n).peerMem = s.peerMem := rfl
@[simp] theorem perfCore_memBad (s : State) (core csr n : Nat) : (perfCore s core csr n).memBad = s.memBad := rfl
@[simp] theorem perfCore_hist (s : State) (core csr n : Nat) : (perfCore s core csr n).hist = s.hist := rfl
@[simp] theorem perfCore_cacheBad (s : State) (core csr n : Nat) : (perfCore s core csr n).cacheBad = s.cacheBad := rfl
@[simp] theorem perfCore_sealMap (s : State) (core csr n : Nat) : (perfCore s core csr n).sealMap = s.sealMap := rfl
@[simp] theorem perfCore_ctxs (s : State) (core csr n : Nat) : (perfCore s core csr n).ctxs = s.ctxs := rfl
@[simp] theorem perfCore_queues (s : State) (core csr n : Nat) : (perfCore s core csr n).queues = s.queues := rfl
@[simp] theorem perfCore_parts (s : State) (core csr n : Nat) : (perfCore s core csr n).parts = s.parts := rfl
@[simp] theorem perfCore_redns (s : State) (core csr n : Nat) : (perfCore s core csr n).redns = s.redns := rfl
@[simp] theorem perfCore_outst (s : State) (core csr n : Nat) : (perfCore s core csr n).outst = s.outst := rfl
@[simp] theorem perfCore_soft (s : State) (core csr n : Nat) : (perfCore s core csr n).soft = s.soft := rfl
@[simp] theorem perfCore_stage (s : State) (core csr n : Nat) : (perfCore s core csr n).stage = s.stage := rfl
@[simp] theorem perfCore_msix (s : State) (core csr n : Nat) : (perfCore s core csr n).msix = s.msix := rfl
@[simp] theorem perfCore_msixTab (s : State) (core csr n : Nat) : (perfCore s core csr n).msixTab = s.msixTab := rfl
@[simp] theorem perfCore_msixPend (s : State) (core csr n : Nat) : (perfCore s core csr n).msixPend = s.msixPend := rfl
@[simp] theorem perfCore_accw (s : State) (core csr n : Nat) : (perfCore s core csr n).accw = s.accw := rfl
@[simp] theorem perfCore_prolTurn (s : State) (core csr n : Nat) : (perfCore s core csr n).prolTurn = s.prolTurn := rfl
@[simp] theorem perfCore_nextId (s : State) (core csr n : Nat) : (perfCore s core csr n).nextId = s.nextId := rfl
@[simp] theorem perfCore_tt (s : State) (core csr n : Nat) : (perfCore s core csr n).tt = s.tt := rfl
@[simp] theorem perfCore_netq (s : State) (core csr n : Nat) : (perfCore s core csr n).netq = s.netq := rfl
@[simp] theorem perfCore_gated (s : State) (core csr n : Nat) : (perfCore s core csr n).gated = s.gated := rfl
@[simp] theorem perfCore_retries (s : State) (core csr n : Nat) : (perfCore s core csr n).retries = s.retries := rfl
@[simp] theorem perfCore_linksDown (s : State) (core csr n : Nat) : (perfCore s core csr n).linksDown = s.linksDown := rfl
@[simp] theorem perfCore_closed (s : State) (core csr n : Nat) : (perfCore s core csr n).closed = s.closed := rfl

@[simp] theorem perfCl_cur (s : State) (cl csr n : Nat) : (perfCl s cl csr n).cur = s.cur := rfl
@[simp] theorem perfCl_f (s : State) (cl csr n : Nat) : (perfCl s cl csr n).f = s.f := rfl
@[simp] theorem perfCl_w (s : State) (cl csr n : Nat) : (perfCl s cl csr n).w = s.w := rfl
@[simp] theorem perfCl_grp (s : State) (cl csr n : Nat) : (perfCl s cl csr n).grp = s.grp := rfl
@[simp] theorem perfCl_evq (s : State) (cl csr n : Nat) : (perfCl s cl csr n).evq = s.evq := rfl
@[simp] theorem perfCl_sched (s : State) (cl csr n : Nat) : (perfCl s cl csr n).sched = s.sched := rfl
@[simp] theorem perfCl_bootEnds (s : State) (cl csr n : Nat) : (perfCl s cl csr n).bootEnds = s.bootEnds := rfl
@[simp] theorem perfCl_tick (s : State) (cl csr n : Nat) : (perfCl s cl csr n).tick = s.tick := rfl
@[simp] theorem perfCl_fibs (s : State) (cl csr n : Nat) : (perfCl s cl csr n).fibs = s.fibs := rfl
@[simp] theorem perfCl_warps (s : State) (cl csr n : Nat) : (perfCl s cl csr n).warps = s.warps := rfl
@[simp] theorem perfCl_wgs (s : State) (cl csr n : Nat) : (perfCl s cl csr n).wgs = s.wgs := rfl
@[simp] theorem perfCl_launches (s : State) (cl csr n : Nat) : (perfCl s cl csr n).launches = s.launches := rfl
@[simp] theorem perfCl_comps (s : State) (cl csr n : Nat) : (perfCl s cl csr n).comps = s.comps := rfl
@[simp] theorem perfCl_pipes (s : State) (cl csr n : Nat) : (perfCl s cl csr n).pipes = s.pipes := rfl
@[simp] theorem perfCl_cores (s : State) (cl csr n : Nat) : (perfCl s cl csr n).cores = s.cores := rfl
@[simp] theorem perfCl_mem (s : State) (cl csr n : Nat) : (perfCl s cl csr n).mem = s.mem := rfl
@[simp] theorem perfCl_slices (s : State) (cl csr n : Nat) : (perfCl s cl csr n).slices = s.slices := rfl
@[simp] theorem perfCl_hostMem (s : State) (cl csr n : Nat) : (perfCl s cl csr n).hostMem = s.hostMem := rfl
@[simp] theorem perfCl_peerMem (s : State) (cl csr n : Nat) : (perfCl s cl csr n).peerMem = s.peerMem := rfl
@[simp] theorem perfCl_memBad (s : State) (cl csr n : Nat) : (perfCl s cl csr n).memBad = s.memBad := rfl
@[simp] theorem perfCl_hist (s : State) (cl csr n : Nat) : (perfCl s cl csr n).hist = s.hist := rfl
@[simp] theorem perfCl_cacheBad (s : State) (cl csr n : Nat) : (perfCl s cl csr n).cacheBad = s.cacheBad := rfl
@[simp] theorem perfCl_sealMap (s : State) (cl csr n : Nat) : (perfCl s cl csr n).sealMap = s.sealMap := rfl
@[simp] theorem perfCl_ctxs (s : State) (cl csr n : Nat) : (perfCl s cl csr n).ctxs = s.ctxs := rfl
@[simp] theorem perfCl_queues (s : State) (cl csr n : Nat) : (perfCl s cl csr n).queues = s.queues := rfl
@[simp] theorem perfCl_parts (s : State) (cl csr n : Nat) : (perfCl s cl csr n).parts = s.parts := rfl
@[simp] theorem perfCl_redns (s : State) (cl csr n : Nat) : (perfCl s cl csr n).redns = s.redns := rfl
@[simp] theorem perfCl_outst (s : State) (cl csr n : Nat) : (perfCl s cl csr n).outst = s.outst := rfl
@[simp] theorem perfCl_soft (s : State) (cl csr n : Nat) : (perfCl s cl csr n).soft = s.soft := rfl
@[simp] theorem perfCl_stage (s : State) (cl csr n : Nat) : (perfCl s cl csr n).stage = s.stage := rfl
@[simp] theorem perfCl_msix (s : State) (cl csr n : Nat) : (perfCl s cl csr n).msix = s.msix := rfl
@[simp] theorem perfCl_msixTab (s : State) (cl csr n : Nat) : (perfCl s cl csr n).msixTab = s.msixTab := rfl
@[simp] theorem perfCl_msixPend (s : State) (cl csr n : Nat) : (perfCl s cl csr n).msixPend = s.msixPend := rfl
@[simp] theorem perfCl_accw (s : State) (cl csr n : Nat) : (perfCl s cl csr n).accw = s.accw := rfl
@[simp] theorem perfCl_prolTurn (s : State) (cl csr n : Nat) : (perfCl s cl csr n).prolTurn = s.prolTurn := rfl
@[simp] theorem perfCl_nextId (s : State) (cl csr n : Nat) : (perfCl s cl csr n).nextId = s.nextId := rfl
@[simp] theorem perfCl_tt (s : State) (cl csr n : Nat) : (perfCl s cl csr n).tt = s.tt := rfl
@[simp] theorem perfCl_netq (s : State) (cl csr n : Nat) : (perfCl s cl csr n).netq = s.netq := rfl
@[simp] theorem perfCl_gated (s : State) (cl csr n : Nat) : (perfCl s cl csr n).gated = s.gated := rfl
@[simp] theorem perfCl_retries (s : State) (cl csr n : Nat) : (perfCl s cl csr n).retries = s.retries := rfl
@[simp] theorem perfCl_linksDown (s : State) (cl csr n : Nat) : (perfCl s cl csr n).linksDown = s.linksDown := rfl
@[simp] theorem perfCl_closed (s : State) (cl csr n : Nat) : (perfCl s cl csr n).closed = s.closed := rfl

@[simp] theorem softInc_cur (s : State) (kind unit k : Nat) : (softInc s kind unit k).cur = s.cur := rfl
@[simp] theorem softInc_f (s : State) (kind unit k : Nat) : (softInc s kind unit k).f = s.f := rfl
@[simp] theorem softInc_w (s : State) (kind unit k : Nat) : (softInc s kind unit k).w = s.w := rfl
@[simp] theorem softInc_grp (s : State) (kind unit k : Nat) : (softInc s kind unit k).grp = s.grp := rfl
@[simp] theorem softInc_evq (s : State) (kind unit k : Nat) : (softInc s kind unit k).evq = s.evq := rfl
@[simp] theorem softInc_sched (s : State) (kind unit k : Nat) : (softInc s kind unit k).sched = s.sched := rfl
@[simp] theorem softInc_bootEnds (s : State) (kind unit k : Nat) : (softInc s kind unit k).bootEnds = s.bootEnds := rfl
@[simp] theorem softInc_tick (s : State) (kind unit k : Nat) : (softInc s kind unit k).tick = s.tick := rfl
@[simp] theorem softInc_fibs (s : State) (kind unit k : Nat) : (softInc s kind unit k).fibs = s.fibs := rfl
@[simp] theorem softInc_warps (s : State) (kind unit k : Nat) : (softInc s kind unit k).warps = s.warps := rfl
@[simp] theorem softInc_wgs (s : State) (kind unit k : Nat) : (softInc s kind unit k).wgs = s.wgs := rfl
@[simp] theorem softInc_launches (s : State) (kind unit k : Nat) : (softInc s kind unit k).launches = s.launches := rfl
@[simp] theorem softInc_comps (s : State) (kind unit k : Nat) : (softInc s kind unit k).comps = s.comps := rfl
@[simp] theorem softInc_pipes (s : State) (kind unit k : Nat) : (softInc s kind unit k).pipes = s.pipes := rfl
@[simp] theorem softInc_clusters (s : State) (kind unit k : Nat) : (softInc s kind unit k).clusters = s.clusters := rfl
@[simp] theorem softInc_cores (s : State) (kind unit k : Nat) : (softInc s kind unit k).cores = s.cores := rfl
@[simp] theorem softInc_mem (s : State) (kind unit k : Nat) : (softInc s kind unit k).mem = s.mem := rfl
@[simp] theorem softInc_slices (s : State) (kind unit k : Nat) : (softInc s kind unit k).slices = s.slices := rfl
@[simp] theorem softInc_hostMem (s : State) (kind unit k : Nat) : (softInc s kind unit k).hostMem = s.hostMem := rfl
@[simp] theorem softInc_peerMem (s : State) (kind unit k : Nat) : (softInc s kind unit k).peerMem = s.peerMem := rfl
@[simp] theorem softInc_memBad (s : State) (kind unit k : Nat) : (softInc s kind unit k).memBad = s.memBad := rfl
@[simp] theorem softInc_hist (s : State) (kind unit k : Nat) : (softInc s kind unit k).hist = s.hist := rfl
@[simp] theorem softInc_cacheBad (s : State) (kind unit k : Nat) : (softInc s kind unit k).cacheBad = s.cacheBad := rfl
@[simp] theorem softInc_sealMap (s : State) (kind unit k : Nat) : (softInc s kind unit k).sealMap = s.sealMap := rfl
@[simp] theorem softInc_ctxs (s : State) (kind unit k : Nat) : (softInc s kind unit k).ctxs = s.ctxs := rfl
@[simp] theorem softInc_queues (s : State) (kind unit k : Nat) : (softInc s kind unit k).queues = s.queues := rfl
@[simp] theorem softInc_parts (s : State) (kind unit k : Nat) : (softInc s kind unit k).parts = s.parts := rfl
@[simp] theorem softInc_redns (s : State) (kind unit k : Nat) : (softInc s kind unit k).redns = s.redns := rfl
@[simp] theorem softInc_outst (s : State) (kind unit k : Nat) : (softInc s kind unit k).outst = s.outst := rfl
@[simp] theorem softInc_stage (s : State) (kind unit k : Nat) : (softInc s kind unit k).stage = s.stage := rfl
@[simp] theorem softInc_msix (s : State) (kind unit k : Nat) : (softInc s kind unit k).msix = s.msix := rfl
@[simp] theorem softInc_msixTab (s : State) (kind unit k : Nat) : (softInc s kind unit k).msixTab = s.msixTab := rfl
@[simp] theorem softInc_msixPend (s : State) (kind unit k : Nat) : (softInc s kind unit k).msixPend = s.msixPend := rfl
@[simp] theorem softInc_accw (s : State) (kind unit k : Nat) : (softInc s kind unit k).accw = s.accw := rfl
@[simp] theorem softInc_prolTurn (s : State) (kind unit k : Nat) : (softInc s kind unit k).prolTurn = s.prolTurn := rfl
@[simp] theorem softInc_nextId (s : State) (kind unit k : Nat) : (softInc s kind unit k).nextId = s.nextId := rfl
@[simp] theorem softInc_tt (s : State) (kind unit k : Nat) : (softInc s kind unit k).tt = s.tt := rfl
@[simp] theorem softInc_netq (s : State) (kind unit k : Nat) : (softInc s kind unit k).netq = s.netq := rfl
@[simp] theorem softInc_gated (s : State) (kind unit k : Nat) : (softInc s kind unit k).gated = s.gated := rfl
@[simp] theorem softInc_retries (s : State) (kind unit k : Nat) : (softInc s kind unit k).retries = s.retries := rfl
@[simp] theorem softInc_linksDown (s : State) (kind unit k : Nat) : (softInc s kind unit k).linksDown = s.linksDown := rfl
@[simp] theorem softInc_closed (s : State) (kind unit k : Nat) : (softInc s kind unit k).closed = s.closed := rfl

@[simp] theorem outRaise_cur (s : State) (unit launch : Nat) : (outRaise s unit launch).cur = s.cur := rfl
@[simp] theorem outRaise_f (s : State) (unit launch : Nat) : (outRaise s unit launch).f = s.f := rfl
@[simp] theorem outRaise_w (s : State) (unit launch : Nat) : (outRaise s unit launch).w = s.w := rfl
@[simp] theorem outRaise_grp (s : State) (unit launch : Nat) : (outRaise s unit launch).grp = s.grp := rfl
@[simp] theorem outRaise_evq (s : State) (unit launch : Nat) : (outRaise s unit launch).evq = s.evq := rfl
@[simp] theorem outRaise_sched (s : State) (unit launch : Nat) : (outRaise s unit launch).sched = s.sched := rfl
@[simp] theorem outRaise_bootEnds (s : State) (unit launch : Nat) : (outRaise s unit launch).bootEnds = s.bootEnds := rfl
@[simp] theorem outRaise_tick (s : State) (unit launch : Nat) : (outRaise s unit launch).tick = s.tick := rfl
@[simp] theorem outRaise_fibs (s : State) (unit launch : Nat) : (outRaise s unit launch).fibs = s.fibs := rfl
@[simp] theorem outRaise_warps (s : State) (unit launch : Nat) : (outRaise s unit launch).warps = s.warps := rfl
@[simp] theorem outRaise_wgs (s : State) (unit launch : Nat) : (outRaise s unit launch).wgs = s.wgs := rfl
@[simp] theorem outRaise_launches (s : State) (unit launch : Nat) : (outRaise s unit launch).launches = s.launches := rfl
@[simp] theorem outRaise_comps (s : State) (unit launch : Nat) : (outRaise s unit launch).comps = s.comps := rfl
@[simp] theorem outRaise_pipes (s : State) (unit launch : Nat) : (outRaise s unit launch).pipes = s.pipes := rfl
@[simp] theorem outRaise_clusters (s : State) (unit launch : Nat) : (outRaise s unit launch).clusters = s.clusters := rfl
@[simp] theorem outRaise_cores (s : State) (unit launch : Nat) : (outRaise s unit launch).cores = s.cores := rfl
@[simp] theorem outRaise_mem (s : State) (unit launch : Nat) : (outRaise s unit launch).mem = s.mem := rfl
@[simp] theorem outRaise_slices (s : State) (unit launch : Nat) : (outRaise s unit launch).slices = s.slices := rfl
@[simp] theorem outRaise_hostMem (s : State) (unit launch : Nat) : (outRaise s unit launch).hostMem = s.hostMem := rfl
@[simp] theorem outRaise_peerMem (s : State) (unit launch : Nat) : (outRaise s unit launch).peerMem = s.peerMem := rfl
@[simp] theorem outRaise_memBad (s : State) (unit launch : Nat) : (outRaise s unit launch).memBad = s.memBad := rfl
@[simp] theorem outRaise_hist (s : State) (unit launch : Nat) : (outRaise s unit launch).hist = s.hist := rfl
@[simp] theorem outRaise_cacheBad (s : State) (unit launch : Nat) : (outRaise s unit launch).cacheBad = s.cacheBad := rfl
@[simp] theorem outRaise_sealMap (s : State) (unit launch : Nat) : (outRaise s unit launch).sealMap = s.sealMap := rfl
@[simp] theorem outRaise_ctxs (s : State) (unit launch : Nat) : (outRaise s unit launch).ctxs = s.ctxs := rfl
@[simp] theorem outRaise_queues (s : State) (unit launch : Nat) : (outRaise s unit launch).queues = s.queues := rfl
@[simp] theorem outRaise_parts (s : State) (unit launch : Nat) : (outRaise s unit launch).parts = s.parts := rfl
@[simp] theorem outRaise_redns (s : State) (unit launch : Nat) : (outRaise s unit launch).redns = s.redns := rfl
@[simp] theorem outRaise_soft (s : State) (unit launch : Nat) : (outRaise s unit launch).soft = s.soft := rfl
@[simp] theorem outRaise_stage (s : State) (unit launch : Nat) : (outRaise s unit launch).stage = s.stage := rfl
@[simp] theorem outRaise_msix (s : State) (unit launch : Nat) : (outRaise s unit launch).msix = s.msix := rfl
@[simp] theorem outRaise_msixTab (s : State) (unit launch : Nat) : (outRaise s unit launch).msixTab = s.msixTab := rfl
@[simp] theorem outRaise_msixPend (s : State) (unit launch : Nat) : (outRaise s unit launch).msixPend = s.msixPend := rfl
@[simp] theorem outRaise_accw (s : State) (unit launch : Nat) : (outRaise s unit launch).accw = s.accw := rfl
@[simp] theorem outRaise_prolTurn (s : State) (unit launch : Nat) : (outRaise s unit launch).prolTurn = s.prolTurn := rfl
@[simp] theorem outRaise_nextId (s : State) (unit launch : Nat) : (outRaise s unit launch).nextId = s.nextId := rfl
@[simp] theorem outRaise_tt (s : State) (unit launch : Nat) : (outRaise s unit launch).tt = s.tt := rfl
@[simp] theorem outRaise_netq (s : State) (unit launch : Nat) : (outRaise s unit launch).netq = s.netq := rfl
@[simp] theorem outRaise_gated (s : State) (unit launch : Nat) : (outRaise s unit launch).gated = s.gated := rfl
@[simp] theorem outRaise_retries (s : State) (unit launch : Nat) : (outRaise s unit launch).retries = s.retries := rfl
@[simp] theorem outRaise_linksDown (s : State) (unit launch : Nat) : (outRaise s unit launch).linksDown = s.linksDown := rfl
@[simp] theorem outRaise_closed (s : State) (unit launch : Nat) : (outRaise s unit launch).closed = s.closed := rfl

@[simp] theorem outLower_cur (s : State) (unit launch : Nat) : (outLower s unit launch).cur = s.cur := rfl
@[simp] theorem outLower_f (s : State) (unit launch : Nat) : (outLower s unit launch).f = s.f := rfl
@[simp] theorem outLower_w (s : State) (unit launch : Nat) : (outLower s unit launch).w = s.w := rfl
@[simp] theorem outLower_grp (s : State) (unit launch : Nat) : (outLower s unit launch).grp = s.grp := rfl
@[simp] theorem outLower_evq (s : State) (unit launch : Nat) : (outLower s unit launch).evq = s.evq := rfl
@[simp] theorem outLower_sched (s : State) (unit launch : Nat) : (outLower s unit launch).sched = s.sched := rfl
@[simp] theorem outLower_bootEnds (s : State) (unit launch : Nat) : (outLower s unit launch).bootEnds = s.bootEnds := rfl
@[simp] theorem outLower_tick (s : State) (unit launch : Nat) : (outLower s unit launch).tick = s.tick := rfl
@[simp] theorem outLower_fibs (s : State) (unit launch : Nat) : (outLower s unit launch).fibs = s.fibs := rfl
@[simp] theorem outLower_warps (s : State) (unit launch : Nat) : (outLower s unit launch).warps = s.warps := rfl
@[simp] theorem outLower_wgs (s : State) (unit launch : Nat) : (outLower s unit launch).wgs = s.wgs := rfl
@[simp] theorem outLower_launches (s : State) (unit launch : Nat) : (outLower s unit launch).launches = s.launches := rfl
@[simp] theorem outLower_comps (s : State) (unit launch : Nat) : (outLower s unit launch).comps = s.comps := rfl
@[simp] theorem outLower_pipes (s : State) (unit launch : Nat) : (outLower s unit launch).pipes = s.pipes := rfl
@[simp] theorem outLower_clusters (s : State) (unit launch : Nat) : (outLower s unit launch).clusters = s.clusters := rfl
@[simp] theorem outLower_cores (s : State) (unit launch : Nat) : (outLower s unit launch).cores = s.cores := rfl
@[simp] theorem outLower_mem (s : State) (unit launch : Nat) : (outLower s unit launch).mem = s.mem := rfl
@[simp] theorem outLower_slices (s : State) (unit launch : Nat) : (outLower s unit launch).slices = s.slices := rfl
@[simp] theorem outLower_hostMem (s : State) (unit launch : Nat) : (outLower s unit launch).hostMem = s.hostMem := rfl
@[simp] theorem outLower_peerMem (s : State) (unit launch : Nat) : (outLower s unit launch).peerMem = s.peerMem := rfl
@[simp] theorem outLower_memBad (s : State) (unit launch : Nat) : (outLower s unit launch).memBad = s.memBad := rfl
@[simp] theorem outLower_hist (s : State) (unit launch : Nat) : (outLower s unit launch).hist = s.hist := rfl
@[simp] theorem outLower_cacheBad (s : State) (unit launch : Nat) : (outLower s unit launch).cacheBad = s.cacheBad := rfl
@[simp] theorem outLower_sealMap (s : State) (unit launch : Nat) : (outLower s unit launch).sealMap = s.sealMap := rfl
@[simp] theorem outLower_ctxs (s : State) (unit launch : Nat) : (outLower s unit launch).ctxs = s.ctxs := rfl
@[simp] theorem outLower_queues (s : State) (unit launch : Nat) : (outLower s unit launch).queues = s.queues := rfl
@[simp] theorem outLower_parts (s : State) (unit launch : Nat) : (outLower s unit launch).parts = s.parts := rfl
@[simp] theorem outLower_redns (s : State) (unit launch : Nat) : (outLower s unit launch).redns = s.redns := rfl
@[simp] theorem outLower_soft (s : State) (unit launch : Nat) : (outLower s unit launch).soft = s.soft := rfl
@[simp] theorem outLower_stage (s : State) (unit launch : Nat) : (outLower s unit launch).stage = s.stage := rfl
@[simp] theorem outLower_msix (s : State) (unit launch : Nat) : (outLower s unit launch).msix = s.msix := rfl
@[simp] theorem outLower_msixTab (s : State) (unit launch : Nat) : (outLower s unit launch).msixTab = s.msixTab := rfl
@[simp] theorem outLower_msixPend (s : State) (unit launch : Nat) : (outLower s unit launch).msixPend = s.msixPend := rfl
@[simp] theorem outLower_accw (s : State) (unit launch : Nat) : (outLower s unit launch).accw = s.accw := rfl
@[simp] theorem outLower_prolTurn (s : State) (unit launch : Nat) : (outLower s unit launch).prolTurn = s.prolTurn := rfl
@[simp] theorem outLower_nextId (s : State) (unit launch : Nat) : (outLower s unit launch).nextId = s.nextId := rfl
@[simp] theorem outLower_tt (s : State) (unit launch : Nat) : (outLower s unit launch).tt = s.tt := rfl
@[simp] theorem outLower_netq (s : State) (unit launch : Nat) : (outLower s unit launch).netq = s.netq := rfl
@[simp] theorem outLower_gated (s : State) (unit launch : Nat) : (outLower s unit launch).gated = s.gated := rfl
@[simp] theorem outLower_retries (s : State) (unit launch : Nat) : (outLower s unit launch).retries = s.retries := rfl
@[simp] theorem outLower_linksDown (s : State) (unit launch : Nat) : (outLower s unit launch).linksDown = s.linksDown := rfl
@[simp] theorem outLower_closed (s : State) (unit launch : Nat) : (outLower s unit launch).closed = s.closed := rfl

@[simp] theorem qerr_cur (s : State) (q cause : Nat) : (qerr s q cause).cur = s.cur := rfl
@[simp] theorem qerr_f (s : State) (q cause : Nat) : (qerr s q cause).f = s.f := rfl
@[simp] theorem qerr_w (s : State) (q cause : Nat) : (qerr s q cause).w = s.w := rfl
@[simp] theorem qerr_grp (s : State) (q cause : Nat) : (qerr s q cause).grp = s.grp := rfl
@[simp] theorem qerr_evq (s : State) (q cause : Nat) : (qerr s q cause).evq = s.evq := rfl
@[simp] theorem qerr_sched (s : State) (q cause : Nat) : (qerr s q cause).sched = s.sched := rfl
@[simp] theorem qerr_bootEnds (s : State) (q cause : Nat) : (qerr s q cause).bootEnds = s.bootEnds := rfl
@[simp] theorem qerr_tick (s : State) (q cause : Nat) : (qerr s q cause).tick = s.tick := rfl
@[simp] theorem qerr_fibs (s : State) (q cause : Nat) : (qerr s q cause).fibs = s.fibs := rfl
@[simp] theorem qerr_warps (s : State) (q cause : Nat) : (qerr s q cause).warps = s.warps := rfl
@[simp] theorem qerr_wgs (s : State) (q cause : Nat) : (qerr s q cause).wgs = s.wgs := rfl
@[simp] theorem qerr_launches (s : State) (q cause : Nat) : (qerr s q cause).launches = s.launches := rfl
@[simp] theorem qerr_comps (s : State) (q cause : Nat) : (qerr s q cause).comps = s.comps := rfl
@[simp] theorem qerr_pipes (s : State) (q cause : Nat) : (qerr s q cause).pipes = s.pipes := rfl
@[simp] theorem qerr_clusters (s : State) (q cause : Nat) : (qerr s q cause).clusters = s.clusters := rfl
@[simp] theorem qerr_cores (s : State) (q cause : Nat) : (qerr s q cause).cores = s.cores := rfl
@[simp] theorem qerr_mem (s : State) (q cause : Nat) : (qerr s q cause).mem = s.mem := rfl
@[simp] theorem qerr_slices (s : State) (q cause : Nat) : (qerr s q cause).slices = s.slices := rfl
@[simp] theorem qerr_hostMem (s : State) (q cause : Nat) : (qerr s q cause).hostMem = s.hostMem := rfl
@[simp] theorem qerr_peerMem (s : State) (q cause : Nat) : (qerr s q cause).peerMem = s.peerMem := rfl
@[simp] theorem qerr_memBad (s : State) (q cause : Nat) : (qerr s q cause).memBad = s.memBad := rfl
@[simp] theorem qerr_hist (s : State) (q cause : Nat) : (qerr s q cause).hist = s.hist := rfl
@[simp] theorem qerr_cacheBad (s : State) (q cause : Nat) : (qerr s q cause).cacheBad = s.cacheBad := rfl
@[simp] theorem qerr_sealMap (s : State) (q cause : Nat) : (qerr s q cause).sealMap = s.sealMap := rfl
@[simp] theorem qerr_ctxs (s : State) (q cause : Nat) : (qerr s q cause).ctxs = s.ctxs := rfl
@[simp] theorem qerr_parts (s : State) (q cause : Nat) : (qerr s q cause).parts = s.parts := rfl
@[simp] theorem qerr_redns (s : State) (q cause : Nat) : (qerr s q cause).redns = s.redns := rfl
@[simp] theorem qerr_outst (s : State) (q cause : Nat) : (qerr s q cause).outst = s.outst := rfl
@[simp] theorem qerr_soft (s : State) (q cause : Nat) : (qerr s q cause).soft = s.soft := rfl
@[simp] theorem qerr_stage (s : State) (q cause : Nat) : (qerr s q cause).stage = s.stage := rfl
@[simp] theorem qerr_msix (s : State) (q cause : Nat) : (qerr s q cause).msix = s.msix := rfl
@[simp] theorem qerr_msixTab (s : State) (q cause : Nat) : (qerr s q cause).msixTab = s.msixTab := rfl
@[simp] theorem qerr_msixPend (s : State) (q cause : Nat) : (qerr s q cause).msixPend = s.msixPend := rfl
@[simp] theorem qerr_accw (s : State) (q cause : Nat) : (qerr s q cause).accw = s.accw := rfl
@[simp] theorem qerr_prolTurn (s : State) (q cause : Nat) : (qerr s q cause).prolTurn = s.prolTurn := rfl
@[simp] theorem qerr_nextId (s : State) (q cause : Nat) : (qerr s q cause).nextId = s.nextId := rfl
@[simp] theorem qerr_tt (s : State) (q cause : Nat) : (qerr s q cause).tt = s.tt := rfl
@[simp] theorem qerr_netq (s : State) (q cause : Nat) : (qerr s q cause).netq = s.netq := rfl
@[simp] theorem qerr_gated (s : State) (q cause : Nat) : (qerr s q cause).gated = s.gated := rfl
@[simp] theorem qerr_retries (s : State) (q cause : Nat) : (qerr s q cause).retries = s.retries := rfl
@[simp] theorem qerr_linksDown (s : State) (q cause : Nat) : (qerr s q cause).linksDown = s.linksDown := rfl
@[simp] theorem qerr_closed (s : State) (q cause : Nat) : (qerr s q cause).closed = s.closed := rfl

@[simp] theorem setF_cur (s : State) (k : Nat) (f : Fibre) : (setF s k f).cur = s.cur := by unfold setF; split <;> rfl
@[simp] theorem setF_w (s : State) (k : Nat) (f : Fibre) : (setF s k f).w = s.w := by unfold setF; split <;> rfl
@[simp] theorem setF_grp (s : State) (k : Nat) (f : Fibre) : (setF s k f).grp = s.grp := by unfold setF; split <;> rfl
@[simp] theorem setF_evq (s : State) (k : Nat) (f : Fibre) : (setF s k f).evq = s.evq := by unfold setF; split <;> rfl
@[simp] theorem setF_sched (s : State) (k : Nat) (f : Fibre) : (setF s k f).sched = s.sched := by unfold setF; split <;> rfl
@[simp] theorem setF_bootEnds (s : State) (k : Nat) (f : Fibre) : (setF s k f).bootEnds = s.bootEnds := by unfold setF; split <;> rfl
@[simp] theorem setF_tick (s : State) (k : Nat) (f : Fibre) : (setF s k f).tick = s.tick := by unfold setF; split <;> rfl
@[simp] theorem setF_warps (s : State) (k : Nat) (f : Fibre) : (setF s k f).warps = s.warps := by unfold setF; split <;> rfl
@[simp] theorem setF_wgs (s : State) (k : Nat) (f : Fibre) : (setF s k f).wgs = s.wgs := by unfold setF; split <;> rfl
@[simp] theorem setF_launches (s : State) (k : Nat) (f : Fibre) : (setF s k f).launches = s.launches := by unfold setF; split <;> rfl
@[simp] theorem setF_comps (s : State) (k : Nat) (f : Fibre) : (setF s k f).comps = s.comps := by unfold setF; split <;> rfl
@[simp] theorem setF_pipes (s : State) (k : Nat) (f : Fibre) : (setF s k f).pipes = s.pipes := by unfold setF; split <;> rfl
@[simp] theorem setF_clusters (s : State) (k : Nat) (f : Fibre) : (setF s k f).clusters = s.clusters := by unfold setF; split <;> rfl
@[simp] theorem setF_cores (s : State) (k : Nat) (f : Fibre) : (setF s k f).cores = s.cores := by unfold setF; split <;> rfl
@[simp] theorem setF_mem (s : State) (k : Nat) (f : Fibre) : (setF s k f).mem = s.mem := by unfold setF; split <;> rfl
@[simp] theorem setF_slices (s : State) (k : Nat) (f : Fibre) : (setF s k f).slices = s.slices := by unfold setF; split <;> rfl
@[simp] theorem setF_hostMem (s : State) (k : Nat) (f : Fibre) : (setF s k f).hostMem = s.hostMem := by unfold setF; split <;> rfl
@[simp] theorem setF_peerMem (s : State) (k : Nat) (f : Fibre) : (setF s k f).peerMem = s.peerMem := by unfold setF; split <;> rfl
@[simp] theorem setF_memBad (s : State) (k : Nat) (f : Fibre) : (setF s k f).memBad = s.memBad := by unfold setF; split <;> rfl
@[simp] theorem setF_hist (s : State) (k : Nat) (f : Fibre) : (setF s k f).hist = s.hist := by unfold setF; split <;> rfl
@[simp] theorem setF_cacheBad (s : State) (k : Nat) (f : Fibre) : (setF s k f).cacheBad = s.cacheBad := by unfold setF; split <;> rfl
@[simp] theorem setF_sealMap (s : State) (k : Nat) (f : Fibre) : (setF s k f).sealMap = s.sealMap := by unfold setF; split <;> rfl
@[simp] theorem setF_ctxs (s : State) (k : Nat) (f : Fibre) : (setF s k f).ctxs = s.ctxs := by unfold setF; split <;> rfl
@[simp] theorem setF_queues (s : State) (k : Nat) (f : Fibre) : (setF s k f).queues = s.queues := by unfold setF; split <;> rfl
@[simp] theorem setF_parts (s : State) (k : Nat) (f : Fibre) : (setF s k f).parts = s.parts := by unfold setF; split <;> rfl
@[simp] theorem setF_redns (s : State) (k : Nat) (f : Fibre) : (setF s k f).redns = s.redns := by unfold setF; split <;> rfl
@[simp] theorem setF_outst (s : State) (k : Nat) (f : Fibre) : (setF s k f).outst = s.outst := by unfold setF; split <;> rfl
@[simp] theorem setF_soft (s : State) (k : Nat) (f : Fibre) : (setF s k f).soft = s.soft := by unfold setF; split <;> rfl
@[simp] theorem setF_stage (s : State) (k : Nat) (f : Fibre) : (setF s k f).stage = s.stage := by unfold setF; split <;> rfl
@[simp] theorem setF_msix (s : State) (k : Nat) (f : Fibre) : (setF s k f).msix = s.msix := by unfold setF; split <;> rfl
@[simp] theorem setF_msixTab (s : State) (k : Nat) (f : Fibre) : (setF s k f).msixTab = s.msixTab := by unfold setF; split <;> rfl
@[simp] theorem setF_msixPend (s : State) (k : Nat) (f : Fibre) : (setF s k f).msixPend = s.msixPend := by unfold setF; split <;> rfl
@[simp] theorem setF_accw (s : State) (k : Nat) (f : Fibre) : (setF s k f).accw = s.accw := by unfold setF; split <;> rfl
@[simp] theorem setF_prolTurn (s : State) (k : Nat) (f : Fibre) : (setF s k f).prolTurn = s.prolTurn := by unfold setF; split <;> rfl
@[simp] theorem setF_nextId (s : State) (k : Nat) (f : Fibre) : (setF s k f).nextId = s.nextId := by unfold setF; split <;> rfl
@[simp] theorem setF_tt (s : State) (k : Nat) (f : Fibre) : (setF s k f).tt = s.tt := by unfold setF; split <;> rfl
@[simp] theorem setF_netq (s : State) (k : Nat) (f : Fibre) : (setF s k f).netq = s.netq := by unfold setF; split <;> rfl
@[simp] theorem setF_gated (s : State) (k : Nat) (f : Fibre) : (setF s k f).gated = s.gated := by unfold setF; split <;> rfl
@[simp] theorem setF_retries (s : State) (k : Nat) (f : Fibre) : (setF s k f).retries = s.retries := by unfold setF; split <;> rfl
@[simp] theorem setF_linksDown (s : State) (k : Nat) (f : Fibre) : (setF s k f).linksDown = s.linksDown := by unfold setF; split <;> rfl
@[simp] theorem setF_closed (s : State) (k : Nat) (f : Fibre) : (setF s k f).closed = s.closed := by unfold setF; split <;> rfl

@[simp] theorem setW_cur (s : State) (k : Nat) (w : Warp) : (setW s k w).cur = s.cur := by unfold setW; split <;> rfl
@[simp] theorem setW_f (s : State) (k : Nat) (w : Warp) : (setW s k w).f = s.f := by unfold setW; split <;> rfl
@[simp] theorem setW_grp (s : State) (k : Nat) (w : Warp) : (setW s k w).grp = s.grp := by unfold setW; split <;> rfl
@[simp] theorem setW_evq (s : State) (k : Nat) (w : Warp) : (setW s k w).evq = s.evq := by unfold setW; split <;> rfl
@[simp] theorem setW_sched (s : State) (k : Nat) (w : Warp) : (setW s k w).sched = s.sched := by unfold setW; split <;> rfl
@[simp] theorem setW_bootEnds (s : State) (k : Nat) (w : Warp) : (setW s k w).bootEnds = s.bootEnds := by unfold setW; split <;> rfl
@[simp] theorem setW_tick (s : State) (k : Nat) (w : Warp) : (setW s k w).tick = s.tick := by unfold setW; split <;> rfl
@[simp] theorem setW_fibs (s : State) (k : Nat) (w : Warp) : (setW s k w).fibs = s.fibs := by unfold setW; split <;> rfl
@[simp] theorem setW_wgs (s : State) (k : Nat) (w : Warp) : (setW s k w).wgs = s.wgs := by unfold setW; split <;> rfl
@[simp] theorem setW_launches (s : State) (k : Nat) (w : Warp) : (setW s k w).launches = s.launches := by unfold setW; split <;> rfl
@[simp] theorem setW_comps (s : State) (k : Nat) (w : Warp) : (setW s k w).comps = s.comps := by unfold setW; split <;> rfl
@[simp] theorem setW_pipes (s : State) (k : Nat) (w : Warp) : (setW s k w).pipes = s.pipes := by unfold setW; split <;> rfl
@[simp] theorem setW_clusters (s : State) (k : Nat) (w : Warp) : (setW s k w).clusters = s.clusters := by unfold setW; split <;> rfl
@[simp] theorem setW_cores (s : State) (k : Nat) (w : Warp) : (setW s k w).cores = s.cores := by unfold setW; split <;> rfl
@[simp] theorem setW_mem (s : State) (k : Nat) (w : Warp) : (setW s k w).mem = s.mem := by unfold setW; split <;> rfl
@[simp] theorem setW_slices (s : State) (k : Nat) (w : Warp) : (setW s k w).slices = s.slices := by unfold setW; split <;> rfl
@[simp] theorem setW_hostMem (s : State) (k : Nat) (w : Warp) : (setW s k w).hostMem = s.hostMem := by unfold setW; split <;> rfl
@[simp] theorem setW_peerMem (s : State) (k : Nat) (w : Warp) : (setW s k w).peerMem = s.peerMem := by unfold setW; split <;> rfl
@[simp] theorem setW_memBad (s : State) (k : Nat) (w : Warp) : (setW s k w).memBad = s.memBad := by unfold setW; split <;> rfl
@[simp] theorem setW_hist (s : State) (k : Nat) (w : Warp) : (setW s k w).hist = s.hist := by unfold setW; split <;> rfl
@[simp] theorem setW_cacheBad (s : State) (k : Nat) (w : Warp) : (setW s k w).cacheBad = s.cacheBad := by unfold setW; split <;> rfl
@[simp] theorem setW_sealMap (s : State) (k : Nat) (w : Warp) : (setW s k w).sealMap = s.sealMap := by unfold setW; split <;> rfl
@[simp] theorem setW_ctxs (s : State) (k : Nat) (w : Warp) : (setW s k w).ctxs = s.ctxs := by unfold setW; split <;> rfl
@[simp] theorem setW_queues (s : State) (k : Nat) (w : Warp) : (setW s k w).queues = s.queues := by unfold setW; split <;> rfl
@[simp] theorem setW_parts (s : State) (k : Nat) (w : Warp) : (setW s k w).parts = s.parts := by unfold setW; split <;> rfl
@[simp] theorem setW_redns (s : State) (k : Nat) (w : Warp) : (setW s k w).redns = s.redns := by unfold setW; split <;> rfl
@[simp] theorem setW_outst (s : State) (k : Nat) (w : Warp) : (setW s k w).outst = s.outst := by unfold setW; split <;> rfl
@[simp] theorem setW_soft (s : State) (k : Nat) (w : Warp) : (setW s k w).soft = s.soft := by unfold setW; split <;> rfl
@[simp] theorem setW_stage (s : State) (k : Nat) (w : Warp) : (setW s k w).stage = s.stage := by unfold setW; split <;> rfl
@[simp] theorem setW_msix (s : State) (k : Nat) (w : Warp) : (setW s k w).msix = s.msix := by unfold setW; split <;> rfl
@[simp] theorem setW_msixTab (s : State) (k : Nat) (w : Warp) : (setW s k w).msixTab = s.msixTab := by unfold setW; split <;> rfl
@[simp] theorem setW_msixPend (s : State) (k : Nat) (w : Warp) : (setW s k w).msixPend = s.msixPend := by unfold setW; split <;> rfl
@[simp] theorem setW_accw (s : State) (k : Nat) (w : Warp) : (setW s k w).accw = s.accw := by unfold setW; split <;> rfl
@[simp] theorem setW_prolTurn (s : State) (k : Nat) (w : Warp) : (setW s k w).prolTurn = s.prolTurn := by unfold setW; split <;> rfl
@[simp] theorem setW_nextId (s : State) (k : Nat) (w : Warp) : (setW s k w).nextId = s.nextId := by unfold setW; split <;> rfl
@[simp] theorem setW_tt (s : State) (k : Nat) (w : Warp) : (setW s k w).tt = s.tt := by unfold setW; split <;> rfl
@[simp] theorem setW_netq (s : State) (k : Nat) (w : Warp) : (setW s k w).netq = s.netq := by unfold setW; split <;> rfl
@[simp] theorem setW_gated (s : State) (k : Nat) (w : Warp) : (setW s k w).gated = s.gated := by unfold setW; split <;> rfl
@[simp] theorem setW_retries (s : State) (k : Nat) (w : Warp) : (setW s k w).retries = s.retries := by unfold setW; split <;> rfl
@[simp] theorem setW_linksDown (s : State) (k : Nat) (w : Warp) : (setW s k w).linksDown = s.linksDown := by unfold setW; split <;> rfl
@[simp] theorem setW_closed (s : State) (k : Nat) (w : Warp) : (setW s k w).closed = s.closed := by unfold setW; split <;> rfl

@[simp] theorem getF_cur (s : State) : getF s (fibKey s.cur) = s.f := if_pos rfl
@[simp] theorem getW_cur (s : State) : getW s (fibKey s.cur / 4) = s.w := if_pos rfl
@[simp] theorem setF_current (s : State) (f : Fibre) : setF s (fibKey s.cur) f = { s with f := f } := if_pos rfl
@[simp] theorem setW_current (s : State) (w : Warp) : setW s (fibKey s.cur / 4) w = { s with w := w } := if_pos rfl
/-- Another agent's fibre record set. -/
theorem setF_other (s : State) {k : Nat} (h : k ≠ fibKey s.cur) (f : Fibre) :
    setF s k f = { s with fibs := tset Fibre.none s.fibs k f } := if_neg h
/-- Another agent's warp record set. -/
theorem setW_other (s : State) {k : Nat} (h : k ≠ fibKey s.cur / 4) (w : Warp) :
    setW s k w = { s with warps := tset Warp.none s.warps k w } := if_neg h
@[simp] theorem checkOut_cur (s : State) : checkOut s s.cur = s := if_pos rfl
/-- An event of the agent whose records are out acts on them directly. -/
@[simp] theorem onAgent_cur (s : State) (g : State → State) : onAgent s s.cur g = g s := if_pos rfl
/-- An event of another agent acts on its records, which are put back after it. -/
theorem onAgent_other (s : State) {a : Agent} (h : a ≠ s.cur) (g : State → State) :
    onAgent s a g = match s.cur with
      | .none => checkIn (g (checkOut s a))
      | c => checkOut (g (checkOut s a)) c := if_neg h
@[simp] theorem checkIn_none (s : State) (h : s.cur = .none) : checkIn s = s := by unfold checkIn; rw [h]

/-! The records of a table read back after a change that leaves them other than absent. -/

theorem getCl_setCl (s : State) (c : Nat) {x : Cluster} (h : x ≠ Cluster.reset) : getCl (setCl s c x) c = x :=
  tget_tset_self_of_ne _ _ h
theorem getCl_modCl (s : State) (c : Nat) (g : Cluster → Cluster) (h : g (getCl s c) ≠ Cluster.reset) :
    getCl (modCl s c g) c = g (getCl s c) := tget_tset_self_of_ne _ _ h
theorem getWg_modWg (s : State) (k : Nat) (g : Wg → Wg) (h : g (getWg s k) ≠ Wg.none) :
    getWg (modWg s k g) k = g (getWg s k) := tget_tset_self_of_ne _ _ h
theorem getL_modL (s : State) (k : Nat) (g : Launch → Launch) (h : g (getL s k) ≠ Launch.none) :
    getL (modL s k g) k = g (getL s k) := tget_tset_self_of_ne _ _ h
theorem getC_modC (s : State) (k : Nat) (g : Comp → Comp) (h : g (getC s k) ≠ Comp.none) :
    getC (modC s k g) k = g (getC s k) := tget_tset_self_of_ne _ _ h
theorem getQ_modQ (s : State) (q : Nat) (g : Queue → Queue) (h : g (getQ s q) ≠ Queue.reset) :
    getQ (modQ s q g) q = g (getQ s q) := tget_tset_self_of_ne _ _ h
theorem getPart_modPart (s : State) (p : Nat) (g : Part → Part) (h : g (getPart s p) ≠ Part.reset) :
    getPart (modPart s p g) p = g (getPart s p) := tget_tset_self_of_ne _ _ h

end Sys2Proof.Machine
end

