-- ==== Sys2Proof/Laws/Words.lean ====
section
/-! SUPPORT. What the shared operations of words do, each said once: running a word, its operands, its stores, accesses in
flight. -/

namespace Sys2Proof.Machine

set_option Elab.async false

/-! Running a word of a group. -/

theorem runWord_group {s : State} {i : Instr} (h : Enabled s i) (body : State → R State) :
    runWord i body s = match body s with
      | .ok t => t
      | .error (.fault c l a) => failWord s c l a false
      | .error (.faultKeep c l a) => failWord s c l a true
      | .error .stall => modG s fun g => { g with stalled := true } := by
  obtain ⟨hg, hi, ht⟩ := h
  obtain ⟨g, hg⟩ := Option.isSome_iff_exists.1 hg
  have hc : (decide (pipeOf (major i) = some 2) && throttled s) = false := by
    by_cases hp : pipeOf (major i) = some 2
    · simp [ht hp]
    · simp [hp]
  simp only [runWord, hg, issueWord, hi, hc, Bool.false_eq_true, if_false]
  all_goals (
    cases body s with
    | ok t => rfl
    | error e => cases e <;> rfl)
/-- An enabled word whose body answers a state leaves that state. -/
theorem runWord_ok {s t : State} {i : Instr} (h : Enabled s i) {body : State → R State} (hb : body s = .ok t) :
    runWord i body s = t := by rw [runWord_group h, hb]
/-- An enabled word that faults is recorded in its group. -/
theorem runWord_fault {s : State} {i : Instr} (h : Enabled s i) {body : State → R State} {c : Nat} {l : LaneSet}
    {a : Word64} (hb : body s = .error (.fault c l a)) : runWord i body s = failWord s c l a false := by
  rw [runWord_group h, hb]
/-- An enabled word whose operand is not ready stalls its group. -/
theorem runWord_stall {s : State} {i : Instr} (h : Enabled s i) {body : State → R State} (hb : body s = .error .stall) :
    runWord i body s = modG s fun g => { g with stalled := true } := by rw [runWord_group h, hb]
/-- A word that a check of 04 Table 4.10 refuses. -/
theorem runWord_illegal {s : State} {i : Instr} {c : Nat} (hg : s.grp.isSome = true) (hi : illegal s i = some c)
    (body : State → R State) : runWord i body s = failWord s c (act s) 0 false := by
  obtain ⟨g, hg⟩ := Option.isSome_iff_exists.1 hg
  simp only [runWord, hg, issueWord, hi]
/-- A word alone is run as a group of one. -/
theorem runWord_alone {s : State} {i : Instr} (hg : s.grp = none) (body : State → R State) :
    runWord i body s = finishGroup s (issueWord i body (startGroup s [wordBits i])) := by simp only [runWord, hg]

/-! Checks and operands. -/

@[simp] theorem need_true (s : State) (c : Nat) : need s true c = .ok () := rfl
@[simp] theorem need_false (s : State) (c : Nat) : need s false c = .error (.fault c (act s) 0) := rfl
@[simp] theorem ready_true : ready true = .ok () := rfl
@[simp] theorem ready_false : ready false = .error .stall := rfl
@[simp] theorem act_grp (s : State) (g : Option Grp) : act { s with grp := g } = act s := rfl

/-- A k-register that can be read is read as the group found it. -/
theorem readK_ok {s : State} {i : KReg} (h : KReady s i) : readK s i = .ok (kNow s i) := by
  simp only [readK, h.1, h.2]; rfl
theorem readK_busy {s : State} {i : KReg} (h : kBusy s i.val = true) : readK s i = .error .stall := by
  simp only [readK, h]; rfl
theorem readK_poisoned {s : State} {i : KReg} (h : kBusy s i.val = false) (hp : kBad (rF s) i.val = true) :
    readK s i = .error (.fault 0x1F1 (act s) 0) := by
  simp only [readK, h, hp]; rfl
theorem readKK_ok {s : State} {i : KReg} (h : KReady s i) (h1 : KReady s (Fin.ofNat 16 (i.val + 1))) :
    readKK s i = .ok (pair64 (kNow s i) (kNow s (Fin.ofNat 16 (i.val + 1)))) := by
  simp only [readKK, readK_ok h, readK_ok h1]; rfl

/-! Memory. -/

theorem writeDev_wf (s : State) (pa v n : Nat) (h : MemoriesWf s) : MemoriesWf (writeDev s pa v n) :=
  ⟨wrBytes_wf n _ _ _ h.1, h.2⟩
theorem writeSlice_wf (s : State) (cl off v n : Nat) (h : MemoriesWf s) : MemoriesWf (writeSlice s cl off v n).1 := by
  unfold writeSlice; dsimp only; split
  · exact h
  · exact ⟨h.1, wrBytes_wf n _ _ _ h.2.1, h.2.2⟩
/-- A write to any place keeps the canonical form of every memory. -/
theorem writeLoc_wf (s : State) (l : Loc) (v n : Nat) (h : MemoriesWf s) : MemoriesWf (writeLoc s l v n).1 := by
  unfold writeLoc
  cases l with
  | dev pa => exact writeDev_wf s pa v n h
  | slice cl off => exact writeSlice_wf s cl off v n h
  | host a => exact ⟨h.1, h.2.1, wrBytes_wf n _ _ _ h.2.2.1, h.2.2.2⟩
  | peer id off => exact ⟨h.1, h.2.1, h.2.2.1, wrBytes_wf n _ _ _ h.2.2.2⟩
  | own off =>
    dsimp only; split
    · exact writeDev_wf s _ v n h
    · exact h
  | reg off => exact h
  | fill v => exact h
  | oob v => exact h
theorem reset_memories : MemoriesWf State.reset := ⟨rfl, rfl, rfl, rfl⟩
/-- Descriptors, axis records and table entries are device memory (17 R295): writing them keeps the canonical form. -/
theorem setDesc_wf (s : State) (ctx h : Nat) (d : Desc) (hs : MemoriesWf s) : MemoriesWf (setDesc s ctx h d) :=
  writeDev_wf _ _ _ _ hs
theorem setAxis_wf (s : State) (ctx h i : Nat) (a : Axis) (hs : MemoriesWf s) : MemoriesWf (setAxis s ctx h i a) :=
  writeDev_wf _ _ _ _ hs
theorem setEntries_wf (s : State) (ctx start : Nat) (l : List AxEntry) (hs : MemoriesWf s) :
    MemoriesWf (setEntries s ctx start l) := by
  unfold setEntries
  generalize List.range l.length = js
  suffices H : ∀ t, MemoriesWf t → MemoriesWf (js.foldl (fun t j =>
      writeDev t ((getCtx s ctx).tbase + start + 16 * j) (entryBits (l.getD j ⟨0, 0, 0, 0, 0⟩)) 16) t) from H s hs
  induction js with
  | nil => intro t ht; exact ht
  | cons j r ih => intro t ht; exact ih _ (writeDev_wf _ _ _ _ ht)
theorem equalCopies_wf (s : State) (ctx h i : Nat) (a : Axis) (hs : MemoriesWf s) : MemoriesWf (equalCopies s ctx h i a) :=
  setAxis_wf _ _ _ _ _ (setEntries_wf _ _ _ _ hs)
/-- A barrier word is bytes of a slice (13 R242). -/
theorem setBarWord_wf (s : State) (key i : Nat) (v : Word64) (hs : MemoriesWf s) : MemoriesWf (setBarWord s key i v) :=
  writeSlice_wf _ _ _ _ _ hs
theorem setClsByte_wf (s : State) (c : MemCls) (a : Nat) (v : Byte) (h : MemoriesWf s) : MemoriesWf (setClsByte s c a v) := by
  cases c with
  | m => exact ⟨wrByte_wf _ _ _ h.1, h.2⟩
  | s => exact ⟨h.1, wrByte_wf _ _ _ h.2.1, h.2.2⟩
  | h => exact ⟨h.1, h.2.1, wrByte_wf _ _ _ h.2.2.1, h.2.2.2⟩
  | e _ => exact ⟨h.1, h.2.1, h.2.2.1, wrByte_wf _ _ _ h.2.2.2⟩
  | g => exact h
  | f => exact h
  | sync => exact h
/-- What the memory system does with a write in flight keeps the canonical form (15 R267). -/
theorem settle_wf (s : State) (u : MUnit) (h : MemoriesWf s) : MemoriesWf (settle s u) := by
  unfold settle
  generalize List.range u.size = js
  suffices H : ∀ t, MemoriesWf t → MemoriesWf (js.foldl (fun t i =>
      setClsByte t u.cls (u.addr + i) (byteAt s s.hist s.hist u.cls (u.addr + i))) t) from H s h
  induction js with
  | nil => intro t ht; exact ht
  | cons j r ih => intro t ht; exact ih _ (setClsByte_wf _ _ _ _ ht)

/-! Recording an access changes the history alone. -/

@[simp] theorem noteUnit_mem (s : State) (u : MUnit) : (noteUnit s u).mem = s.mem := rfl
@[simp] theorem noteUnit_slices (s : State) (u : MUnit) : (noteUnit s u).slices = s.slices := rfl
theorem noteLanes_frame (s : State) (b : MUnit) (l : List (Nat × Loc)) (n : Nat) (o v : Nat → Nat) :
    noteLanes s b l n o v = { s with hist := (noteLanes s b l n o v).hist } := rfl
theorem noteFence_frame (s : State) (o : MOrd) (c : Scope) : noteFence s o c = { s with hist := (noteFence s o c).hist } := rfl
theorem forget_frame (s : State) (c : MemCls) (a n : Nat) : forget s c a n = { s with hist := (forget s c a n).hist } := rfl
theorem noteAcq_frame (s : State) (key : Nat) (c : Scope) : noteAcq s key c = { s with hist := (noteAcq s key c).hist } := by
  unfold noteAcq; split <;> rfl

/-! Accesses in flight. -/

@[simp] theorem inFlightAdd_mem (s : State) (p : Pend) : (inFlightAdd s p).mem = s.mem := rfl
@[simp] theorem inFlightAdd_slices (s : State) (p : Pend) : (inFlightAdd s p).slices = s.slices := rfl
@[simp] theorem inFlightAdd_cur (s : State) (p : Pend) : (inFlightAdd s p).cur = s.cur := rfl
@[simp] theorem inFlightAdd_pend (s : State) (p : Pend) : (inFlightAdd s p).w.pend = s.w.pend ++ [p] := rfl
@[simp] theorem inFlightAdd_rows (s : State) (p : Pend) : (inFlightAdd s p).w.rows = s.w.rows := rfl
theorem inFlightAdd_k (s : State) (p : Pend) : (inFlightAdd s p).f.k = s.f.k := by
  unfold inFlightAdd cntUp; dsimp only; split <;> rfl
theorem inFlightAdd_cnt (s : State) (p : Pend) : (inFlightAdd s p).f.cnt = match counterOf s.cur p.kind with
    | some c => s.f.cnt.set c (cntOf s.f c + 1)
    | none => s.f.cnt := by
  unfold inFlightAdd cntUp; dsimp only; cases counterOf s.cur p.kind <;> rfl
@[simp] theorem cntUp_k (f : Fibre) (c : Nat) : (cntUp f c).k = f.k := rfl
@[simp] theorem cntUp_cnt (f : Fibre) (c : Nat) : (cntUp f c).cnt = f.cnt.set c (cntOf f c + 1) := rfl
@[simp] theorem cntDown_k (f : Fibre) (c : Nat) : (cntDown f c).k = f.k := rfl
@[simp] theorem cntDown_cnt (f : Fibre) (c : Nat) : (cntDown f c).cnt = f.cnt.set c (cntOf f c - 1) := rfl

/-! Traps. -/

/-- A prologue's fault ends its run and records why (22 R370). -/
theorem enterTrap_prol {s : State} {q : Nat} (h : s.cur = .prol q) (t : TrapIn) :
    enterTrap s t = post { s with
      f := { s.f with st := .ended, trap := trapRegsOf s.f.trap t }, w := { s.w with stall := 0 } } [.indirect q] := by
  unfold enterTrap; rw [h]

/-! A step. -/

theorem step_run {s t : State} (hp : s.power = true) (h : pick s = .run t) : step s = afterStep (issueGroup t) := by
  simp only [step, hp, h, if_true]
theorem step_event {s t : State} {e : Ev} (hp : s.power = true) (h : pick s = .ev e t) : step s = afterStep (runEv e t) := by
  simp only [step, hp, h, if_true]
theorem step_idle {s t : State} (hp : s.power = true) (h : pick s = .idle t) : step s = .next (passTime t) := by
  simp only [step, hp, h, if_true, afterStep]
/-- The passing of time changes only the clocks and the counter of steps. -/
theorem passTime_frame (s : State) : passTime s = { s with
    tick := (passTime s).tick, cyc := (passTime s).cyc, timens := (passTime s).timens } := rfl

end Sys2Proof.Machine
end

