-- ==== Sys2Proof/Laws/Saves.lean ====
section
/-! SUPPORT. What saving to shadow storage and the spill area does (10 R189, 22 R377), and the failure of a lost branch
(25 R407). -/

namespace Sys2Proof.Machine

/-- Bytes stored one after another keep the canonical form. -/
theorem wrList_wf : ∀ (l : List Byte) (m : Tab Byte) (a : Nat), Memory.wf m = true → Memory.wf (wrList m a l) = true
  | [], _, _, h => h
  | b :: r, m, a, h => wrList_wf r (wrByte m a b) (a + 1) (wrByte_wf m a b h)

/-- A save's spill part keeps device memory canonical. -/
theorem spillBytes_wf (s : State) (part cl at1 : Nat) (l : List Byte) (h : Memory.wf s.mem = true) :
    Memory.wf (spillBytes s part cl at1 l) = true := by
  unfold spillBytes
  split
  · exact h
  · exact wrList_wf _ _ _ h

/-- A save changes only device memory and the record of its cluster. -/
theorem addSave_frame (s : State) (cl part : Nat) (slot : Bool) (key k : Nat) (l : List Byte) :
    addSave s cl part slot key k l = { s with
      mem := (addSave s cl part slot key k l).mem, clusters := (addSave s cl part slot key k l).clusters } := rfl

theorem addSave_wf (s : State) (cl part : Nat) (slot : Bool) (key k : Nat) (l : List Byte) (h : MemoriesWf s) :
    MemoriesWf (addSave s cl part slot key k l) :=
  ⟨spillBytes_wf _ _ _ _ _ h.1, h.2.1, h.2.2.1, h.2.2.2⟩

/-- The seal maps' bits keep device memory canonical. -/
theorem sealBits_wf (s : State) (gr : List Nat) (b : Bool) (h : Memory.wf s.mem = true) : Memory.wf (sealBits s gr b) = true := by
  unfold sealBits
  generalize s.mem = m at h
  induction gr generalizing m with
  | nil => exact h
  | cons g r ih =>
    rw [List.foldl_cons]
    refine ih _ ?_
    split
    · exact wrByte_wf _ _ _ h
    · exact h
/-- Granules marked: the seal map and device memory alone change. -/
theorem markSeal_frame (s : State) (gr : List Nat) (b : Bool) :
    markSeal s gr b = { s with sealMap := (markSeal s gr b).sealMap, mem := sealBits s gr b } := rfl

/-- The failure of a multicast's lost branch is all that `holdCast` leaves. -/
theorem holdCast_frame (s : State) (p : Pend) : holdCast s p = { s with f := { s.f with fails := (holdCast s p).f.fails } } := by
  unfold holdCast
  split <;> rfl

end Sys2Proof.Machine
end

