-- ==== Sys2Proof/Tests/Decode.lean ====
section
/-! SUPPORT. Words written out from the encodings of spec/opcode_table.json (04 Tables 4.8 to 4.11), each operand field
at a value of its own, and the instruction each stands for: at least one word of every major. -/

namespace Sys2Proof.Tests

set_option Elab.async false

/-- Major 0x00 (04 Table 4.8). -/
theorem test_decode_major_00 :
    decodeTableWord 32 0x00000000 = some (.nop ⟨false, false⟩) ∧
    decodeTableWord 32 0x80000100 = some (.halt ⟨true, false⟩) := by decide
/-- Major 0x01 (04 Table 4.8). -/
theorem test_decode_major_01 :
    decodeTableWord 32 0xC1400005 = some (.bra ⟨true, true⟩ .all 5#20) := by decide
/-- Major 0x02 (04 Table 4.8). -/
theorem test_decode_major_02 :
    decodeTableWord 32 0x82080000 = some (.call ⟨true, false⟩ 524288#20) ∧
    decodeTableWord 32 0x02100000 = some (.ret ⟨false, false⟩) ∧
    decodeTableWord 32 0x02200008 = some (.jmp ⟨false, false⟩ 8) := by decide
/-- Major 0x03 (04 Table 4.8). -/
theorem test_decode_major_03 :
    decodeTableWord 32 0xC3180000 = some (.brd ⟨true, true⟩ 1 524288#20) ∧
    decodeTableWord 32 0x83400000 = some (.join ⟨true, false⟩) ∧
    decodeTableWord 32 0xC3500039 = some (.mand ⟨true, true⟩ 3 2 1) ∧
    decodeTableWord 32 0xC3600027 = some (.mor ⟨true, true⟩ 2 1 3) ∧
    decodeTableWord 32 0xC370001C = some (.mnot ⟨true, true⟩ 1 3) ∧
    decodeTableWord 32 0x8380001C = some (.mmov ⟨true, false⟩ 1 3) := by decide
/-- Major 0x04 (04 Table 4.8). -/
theorem test_decode_major_04 :
    decodeTableWord 32 0x04206080 = some (.kadd ⟨false, false⟩ 8 6 2) ∧
    decodeTableWord 32 0x04206081 = some (.ksub ⟨false, false⟩ 8 6 2) ∧
    decodeTableWord 32 0x04206082 = some (.kand ⟨false, false⟩ 8 6 2) ∧
    decodeTableWord 32 0x04206083 = some (.kor ⟨false, false⟩ 8 6 2) ∧
    decodeTableWord 32 0x04206084 = some (.kxor ⟨false, false⟩ 8 6 2) ∧
    decodeTableWord 32 0x04206085 = some (.kshl ⟨false, false⟩ 8 6 2) ∧
    decodeTableWord 32 0x04206086 = some (.kshrZ32 ⟨false, false⟩ 8 6 2) ∧
    decodeTableWord 32 0x04206087 = some (.kshrS32 ⟨false, false⟩ 8 6 2) ∧
    decodeTableWord 32 0x04206088 = some (.kmul ⟨false, false⟩ 8 6 2) ∧
    decodeTableWord 32 0x04206089 = some (.kminS32 ⟨false, false⟩ 8 6 2) ∧
    decodeTableWord 32 0x0420608A = some (.kminZ32 ⟨false, false⟩ 8 6 2) ∧
    decodeTableWord 32 0x0420608B = some (.kmaxS32 ⟨false, false⟩ 8 6 2) ∧
    decodeTableWord 32 0x0420608C = some (.kmaxZ32 ⟨false, false⟩ 8 6 2) ∧
    decodeTableWord 32 0x0420608D = some (.kcmpEq ⟨false, false⟩ 8 6 2) ∧
    decodeTableWord 32 0x0420608E = some (.kcmpNe ⟨false, false⟩ 8 6 2) ∧
    decodeTableWord 32 0x0420608F = some (.kcmpS32Lt ⟨false, false⟩ 8 6 2) ∧
    decodeTableWord 32 0x04206090 = some (.kcmpZ32Lt ⟨false, false⟩ 8 6 2) ∧
    decodeTableWord 32 0x04206091 = some (.kcmpS32Le ⟨false, false⟩ 8 6 2) ∧
    decodeTableWord 32 0x04206092 = some (.kcmpZ32Le ⟨false, false⟩ 8 6 2) ∧
    decodeTableWord 32 0x04206013 = some (.kmov ⟨false, false⟩ 8 6) := by decide
/-- Major 0x05 (04 Table 4.8). -/
theorem test_decode_major_05 :
    decodeTableWord 32 0x053881FF = some (.kaddi ⟨false, false⟩ 14 8 511#9) ∧
    decodeTableWord 32 0x05388300 = some (.kandi ⟨false, false⟩ 14 8 256#9) ∧
    decodeTableWord 32 0x05388405 = some (.kori ⟨false, false⟩ 14 8 5#9) ∧
    decodeTableWord 32 0x053887FF = some (.kxori ⟨false, false⟩ 14 8 511#9) ∧
    decodeTableWord 32 0x0538881D = some (.kshli ⟨false, false⟩ 14 8 29) ∧
    decodeTableWord 32 0x05388A0F = some (.kshriZ32 ⟨false, false⟩ 14 8 15) ∧
    decodeTableWord 32 0x05388C1F = some (.kshriS32 ⟨false, false⟩ 14 8 31) ∧
    decodeTableWord 32 0x05380FFF = some (.kmovi ⟨false, false⟩ 14 511#9) := by decide
/-- Major 0x06 (04 Table 4.8). -/
theorem test_decode_major_06 :
    decodeTableWord 32 0xC60400FF = some (.wait ⟨true, true⟩ 1 255#8) ∧
    decodeTableWord 32 0x86000100 = some (.yield ⟨true, false⟩) ∧
    decodeTableWord 32 0xC600020F = some (.fbar ⟨true, true⟩ 15#4) ∧
    decodeTableWord 32 0x06000301 = some (.fstop ⟨false, false⟩ 1) ∧
    decodeTableWord 32 0xC6000401 = some (.fwake ⟨true, true⟩ 1) := by decide
/-- Major 0x07 (04 Table 4.8). -/
theorem test_decode_major_07 :
    decodeTableWord 32 0x070000FF = some (.trap ⟨false, false⟩ 255#8) ∧
    decodeTableWord 32 0xC7000100 = some (.tret ⟨true, true⟩) ∧
    decodeTableWord 32 0x07380215 = some (.csrr ⟨false, false⟩ 14 21#8) ∧
    decodeTableWord 32 0xC7080316 = some (.csrw ⟨true, true⟩ 2 22#8) ∧
    decodeTableWord 32 0x87000480 = some (.rgrow ⟨true, false⟩ 128#8) ∧
    decodeTableWord 32 0x07000501 = some (.rshrink ⟨false, false⟩ 1#8) := by decide
/-- Major 0x08 (04 Table 4.8). -/
theorem test_decode_major_08 :
    decodeTableWord 32 0x881827D9 = some (.ldk ⟨true, false⟩ 6 2 .b64 29 .acq .cl) ∧
    decodeTableWord 32 0x08206CF6 = some (.stk ⟨false, false⟩ 8 6 .b32 15 .strong .dv) := by decide
/-- Major 0x09 (04 Table 4.8). -/
theorem test_decode_major_09 :
    decodeTableWord 32 0x09000007 = some (.setrm ⟨false, false⟩ 7#3) ∧
    decodeTableWord 32 0x89180100 = some (.rdflags ⟨true, false⟩ 6) ∧
    decodeTableWord 32 0x09000280 = some (.clrflags ⟨false, false⟩ 128#8) ∧
    decodeTableWord 32 0x89180301 = some (.rdamax ⟨true, false⟩ 6 true) ∧
    decodeTableWord 32 0x09000401 = some (.clramax ⟨false, false⟩ true) := by decide
/-- Major 0x0A (04 Table 4.8). -/
theorem test_decode_major_0A :
    decodeTableWord 32 0xCA080003 = some (.sbind ⟨true, true⟩ 2 3) ∧
    decodeTableWord 32 0x8A000101 = some (.srst ⟨true, false⟩ 1) ∧
    decodeTableWord 32 0x0A380201 = some (.sadv ⟨false, false⟩ 14 1) ∧
    decodeTableWord 32 0xCA080301 = some (.sstat ⟨true, true⟩ 2 1) := by decide
/-- Major 0x0B (04 Table 4.8). -/
theorem test_decode_major_0B :
    decodeTableWord 32 0x8B18000F = some (.enq ⟨true, false⟩ 6 15) := by decide
/-- Major 0x10 (04 Table 4.8). -/
theorem test_decode_major_10 :
    decodeTableWord 32 0x10DB7E41 = some (.add ⟨false, false⟩ (.st 2) (.st 3) (.k 1) .z32) ∧
    decodeTableWord 32 0x90D800CB = some (.sub ⟨true, false⟩ (.st 2) (.n 0) (.n 3) .s16) ∧
    decodeTableWord 32 0xD0DB2DD4 = some (.min ⟨true, true⟩ (.st 2) (.b 2) (.st 3) .z16) ∧
    decodeTableWord 32 0x10DBE018 = some (.max ⟨false, false⟩ (.st 2) .fid (.n 0) .s32) ∧
    decodeTableWord 32 0x10DAFCA2 = some (.and ⟨false, false⟩ (.st 2) (.q 15) (.b 2)) ∧
    decodeTableWord 32 0x1083CF6A = some (.or ⟨false, false⟩ .q .z .lane) ∧
    decodeTableWord 32 0x101437F2 = some (.xor ⟨false, false⟩ (.n 5) (.n 3) (.n 31)) ∧
    decodeTableWord 32 0x107B2DFA = some (.shl ⟨false, false⟩ (.n 30) (.b 2) (.st 3)) ∧
    decodeTableWord 32 0x10FFDFB8 = some (.shrS32 ⟨false, false⟩ .none .lane .fid) ∧
    decodeTableWord 32 0x10D9F879 = some (.shrZ32 ⟨false, false⟩ (.st 2) (.n 31) (.q 1)) := by decide
/-- Major 0x11 (04 Table 4.8). -/
theorem test_decode_major_11 :
    decodeTableWord 32 0x11837005 = some (.addi ⟨false, false⟩ .q (.st 3) 5#9) ∧
    decodeTableWord 32 0x1117E3FF = some (.andi ⟨false, false⟩ (.n 5) .fid 511#9) ∧
    decodeTableWord 32 0x117A1500 = some (.ori ⟨false, false⟩ (.n 30) (.q 1) 256#9) ∧
    decodeTableWord 32 0x11FF9605 = some (.xori ⟨false, false⟩ .none (.k 1) 5#9) ∧
    decodeTableWord 32 0x11D8081F = some (.shli ⟨false, false⟩ (.st 2) (.n 0) 31) ∧
    decodeTableWord 32 0x1182FA1D = some (.shriZ32 ⟨false, false⟩ .q (.q 15) 29) ∧
    decodeTableWord 32 0x1117CC0F = some (.shriS32 ⟨false, false⟩ (.n 5) .z 15) ∧
    decodeTableWord 32 0x11783FFF = some (.rsubi ⟨false, false⟩ (.n 30) (.n 3) 511#9) := by decide
/-- Major 0x12 (04 Table 4.8). -/
theorem test_decode_major_12 :
    decodeTableWord 32 0x12FF2DC0 = some (.mul ⟨false, false⟩ .none (.b 2) (.st 3)) ∧
    decodeTableWord 32 0x12DBDF88 = some (.mulhi ⟨false, false⟩ (.st 2) .lane .fid) ∧
    decodeTableWord 32 0x1281F850 = some (.mulhz ⟨false, false⟩ .q (.n 31) (.q 1)) ∧
    decodeTableWord 32 0x12177E58 = some (.div ⟨false, false⟩ (.n 5) (.st 3) (.k 1)) ∧
    decodeTableWord 32 0x127BE020 = some (.divz ⟨false, false⟩ (.n 30) .fid (.n 0)) ∧
    decodeTableWord 32 0x12FE1BE8 = some (.rem ⟨false, false⟩ .none (.q 1) (.q 15)) ∧
    decodeTableWord 32 0x12DB9F30 = some (.remz ⟨false, false⟩ (.st 2) (.k 1) .z) := by decide
/-- Major 0x13 (04 Table 4.8). -/
theorem test_decode_major_13 :
    decodeTableWord 32 0x13800F00 = some (.popc ⟨false, false⟩ .q (.n 0)) ∧
    decodeTableWord 32 0x137A1F08 = some (.clz ⟨false, false⟩ (.n 30) (.q 1)) ∧
    decodeTableWord 32 0xD3DB7F10 = some (.brev ⟨true, true⟩ (.st 2) (.st 3)) ∧
    decodeTableWord 32 0x9317DF98 = some (.bfeZ32 ⟨true, false⟩ (.n 5) .lane .fid) ∧
    decodeTableWord 32 0x9379F860 = some (.bfeS32 ⟨true, false⟩ (.n 30) (.n 31) (.q 1)) ∧
    decodeTableWord 32 0x93FF7E68 = some (.bfi ⟨true, false⟩ .none (.st 3) (.k 1)) := by decide
/-- Major 0x14 (04 Table 4.8). -/
theorem test_decode_major_14 :
    decodeTableWord 32 0x9407E000 = some (.cmp ⟨true, false⟩ 1 .fid (.n 0) .eq false) := by decide
/-- Major 0x15 (04 Table 4.8). -/
theorem test_decode_major_15 :
    decodeTableWord 32 0x15FFC100 = some (.movi ⟨false, false⟩ .none 256#9) ∧
    decodeTableWord 32 0xD583C200 = some (.mov ⟨true, true⟩ .q .z) ∧
    decodeTableWord 32 0x95780402 = some (.sel ⟨true, false⟩ (.n 30) (.n 0) 2) := by decide
/-- Major 0x16 (04 Table 4.8). -/
theorem test_decode_major_16 :
    decodeTableWord 32 0x96FEFC84 = some (.faddF32 ⟨true, false⟩ .none (.q 15) (.b 2) .rm) ∧
    decodeTableWord 32 0xD6FFDF8B = some (.fsubF32 ⟨true, true⟩ .none .lane .fid .ru) ∧
    decodeTableWord 32 0x16FE1BD2 = some (.fmulF32 ⟨false, false⟩ .none (.q 1) (.q 15) .rz) ∧
    decodeTableWord 32 0x16FFCF59 = some (.fminF32 ⟨false, false⟩ .none .z .lane .rn) ∧
    decodeTableWord 32 0x96FDF860 = some (.fmaxF32 ⟨true, false⟩ .none (.n 31) (.q 1) .rd) ∧
    decodeTableWord 32 0xD6FF9F2C = some (.fabsF32 ⟨true, true⟩ .none (.k 1) .rm) ∧
    decodeTableWord 32 0xD6D80F32 = some (.fnegF32 ⟨true, true⟩ (.st 2) (.n 0) .rz) := by decide
/-- Major 0x17 (04 Table 4.8). -/
theorem test_decode_major_17 :
    decodeTableWord 32 0xD782FC8D = some (.ffmaF32 ⟨true, true⟩ .q (.q 15) (.b 2) 13) ∧
    decodeTableWord 32 0x1783DF9F = some (.ffmsF32 ⟨false, false⟩ .q .lane .fid 15) ∧
    decodeTableWord 32 0x17821BE7 = some (.fnmaF32 ⟨false, false⟩ .q (.q 1) (.q 15) 7) := by decide
/-- Major 0x18 (04 Table 4.8). -/
theorem test_decode_major_18 :
    decodeTableWord 32 0x9883CF45 = some (.faddF16Bf16 ⟨true, false⟩ .q .z .lane .f16 .ra) ∧
    decodeTableWord 32 0x18DA1BCD = some (.fsubF16Bf16 ⟨false, false⟩ (.st 2) (.q 1) (.q 15) .f16 .ra) ∧
    decodeTableWord 32 0x98FFDF95 = some (.fmulF16Bf16 ⟨true, false⟩ .none .lane .fid .f16 .ra) := by decide
/-- Major 0x19 (04 Table 4.8). -/
theorem test_decode_major_19 :
    decodeTableWord 32 0x197AFC87 = some (.ffmaF16Bf16 ⟨false, false⟩ (.n 30) (.q 15) (.b 2) .f16 7) ∧
    decodeTableWord 32 0x9917E027 = some (.ffmsF16Bf16 ⟨true, false⟩ (.n 5) .fid (.n 0) .f16 7) := by decide
/-- Major 0x1A (04 Table 4.8). -/
theorem test_decode_major_1A :
    decodeTableWord 32 0x1A71EE04 = some (.faddF64 ⟨false, false⟩ 28 (.n 30) (.k 0) .rm) ∧
    decodeTableWord 32 0x1A23810B = some (.fsubF64 ⟨false, false⟩ 8 (.k 0) (.n 4) .ru) ∧
    decodeTableWord 32 0x9A304E92 = some (.fmulF64 ⟨true, false⟩ 12 (.n 4) (.k 2) .rz) ∧
    decodeTableWord 32 0xDA13A799 = some (.ffmaF64 ⟨true, true⟩ 4 (.k 2) (.n 30) .rn) ∧
    decodeTableWord 32 0x1A71EE20 = some (.fminF64 ⟨false, false⟩ 28 (.n 30) (.k 0) .rd) ∧
    decodeTableWord 32 0x1A23812D = some (.fmaxF64 ⟨false, false⟩ 8 (.k 0) (.n 4) .ra) := by decide
/-- Major 0x1B (04 Table 4.8). -/
theorem test_decode_major_1B :
    decodeTableWord 32 0x9B81FF03 = some (.rcp ⟨true, false⟩ .q (.n 31) .ru) ∧
    decodeTableWord 32 0x9B177F09 = some (.rsq ⟨true, false⟩ (.n 5) (.st 3) .rn) ∧
    decodeTableWord 32 0x9B7BEF15 = some (.sqrt ⟨true, false⟩ (.n 30) .fid .ra) ∧
    decodeTableWord 32 0x9BFE1F1B = some (.exp2 ⟨true, false⟩ .none (.q 1) .ru) ∧
    decodeTableWord 32 0x9BDB9F21 = some (.log2 ⟨true, false⟩ (.st 2) (.k 1) .rn) ∧
    decodeTableWord 32 0x9B800F2D = some (.sin ⟨true, false⟩ .q (.n 0) .ra) ∧
    decodeTableWord 32 0x9B16FF33 = some (.cos ⟨true, false⟩ (.n 5) (.q 15) .ru) := by decide
/-- Major 0x1C (04 Table 4.8). -/
theorem test_decode_major_1C :
    decodeTableWord 32 0x9C7BCF00 = some (.cvtF32F16 ⟨true, false⟩ (.n 30) .z) ∧
    decodeTableWord 32 0x1CD80F01 = some (.cvtF32Bf16 ⟨false, false⟩ (.st 2) (.n 0)) ∧
    decodeTableWord 32 0x1C161F02 = some (.cvtF16F32 ⟨false, false⟩ (.n 5) (.q 1)) ∧
    decodeTableWord 32 0xDCFF7F03 = some (.cvtBf16F32 ⟨true, true⟩ .none (.st 3)) ∧
    decodeTableWord 32 0x9C33DF04 = some (.cvtF64F32 ⟨true, false⟩ 12 .lane) ∧
    decodeTableWord 32 0x1C7B8F05 = some (.cvtF32F64 ⟨false, false⟩ (.n 30) (.k 0)) ∧
    decodeTableWord 32 0x1CDAFCA6 = some (.cvtE4m3F32 ⟨false, false⟩ (.st 2) (.q 15) (.b 2) true) ∧
    decodeTableWord 32 0x1CDBDF87 = some (.cvtE5m2F32 ⟨false, false⟩ (.st 2) .lane .fid false) ∧
    decodeTableWord 32 0x9CDA1BC8 = some (.cvtF32E4m3 ⟨true, false⟩ (.st 2) (.q 1) (.q 15)) ∧
    decodeTableWord 32 0x9C839F09 = some (.cvtF32E5m2 ⟨true, false⟩ .q (.k 1) .z) ∧
    decodeTableWord 32 0x9C1400EA = some (.cvtL8F32 ⟨true, false⟩ (.n 5) (.n 0) (.n 3) true) ∧
    decodeTableWord 32 0xDC172DCB = some (.cvtL16F32 ⟨true, true⟩ (.n 5) (.b 2) (.st 3) false) ∧
    decodeTableWord 32 0x1C17E00C = some (.cvtF32L8 ⟨false, false⟩ (.n 5) .fid (.n 0)) ∧
    decodeTableWord 32 0x1C7A1BCD = some (.cvtF32L16 ⟨false, false⟩ (.n 30) (.q 1) (.q 15)) ∧
    decodeTableWord 32 0x1CFF9F2E = some (.cvtQ8F32 ⟨false, false⟩ .none (.k 1) .z true) ∧
    decodeTableWord 32 0x1CFC37CF = some (.cvtQ4F32 ⟨false, false⟩ .none (.n 3) (.n 31) false) ∧
    decodeTableWord 32 0x9CFF7E50 = some (.cvtF32Q8 ⟨true, false⟩ .none (.st 3) (.k 1)) ∧
    decodeTableWord 32 0x9CDBE011 = some (.cvtF32Q4 ⟨true, false⟩ (.st 2) .fid (.n 0)) ∧
    decodeTableWord 32 0x9C821F12 = some (.cvtS32F32 ⟨true, false⟩ .q (.q 1)) ∧
    decodeTableWord 32 0x1C7B7F13 = some (.cvtS32F32Rz ⟨false, false⟩ (.n 30) (.st 3)) ∧
    decodeTableWord 32 0x1CDBDF14 = some (.cvtZ32F32 ⟨false, false⟩ (.st 2) .lane) ∧
    decodeTableWord 32 0xDC143F15 = some (.cvtF32S32 ⟨true, true⟩ (.n 5) (.n 3)) ∧
    decodeTableWord 32 0x9CFEFF16 = some (.cvtF32Z32 ⟨true, false⟩ .none (.q 15)) := by decide
/-- Major 0x1D (04 Table 4.8). -/
theorem test_decode_major_1D :
    decodeTableWord 32 0x1D839F3D = some (.sacc ⟨false, false⟩ .q (.k 1) .z .lane) := by decide
/-- Major 0x1E (04 Table 4.8). -/
theorem test_decode_major_1E :
    decodeTableWord 32 0x9E8037C0 = some (.shflIdx ⟨true, false⟩ .q (.n 3) (.n 31)) ∧
    decodeTableWord 32 0x9E172DC8 = some (.shflUp ⟨true, false⟩ (.n 5) (.b 2) (.st 3)) ∧
    decodeTableWord 32 0x9E7BDF90 = some (.shflDown ⟨true, false⟩ (.n 30) .lane .fid) ∧
    decodeTableWord 32 0x9EFDF858 = some (.shflXor ⟨true, false⟩ .none (.n 31) (.q 1)) ∧
    decodeTableWord 32 0x9E081F20 = some (.voteAny ⟨true, false⟩ 2 1) ∧
    decodeTableWord 32 0x1E081F21 = some (.voteAll ⟨false, false⟩ 2 1) ∧
    decodeTableWord 32 0x1E081F22 = some (.voteUni ⟨false, false⟩ 2 1) ∧
    decodeTableWord 32 0xDE081F28 = some (.ballot ⟨true, true⟩ 2 1) ∧
    decodeTableWord 32 0x9E781F30 = some (.mpopcBelow ⟨true, false⟩ (.n 30) 1) ∧
    decodeTableWord 32 0x1ED81F31 = some (.mpopcTotal ⟨false, false⟩ (.st 2) 1) ∧
    decodeTableWord 32 0x1E15FF3F = some (.scan ⟨false, false⟩ (.n 5) (.n 31) .minF32) := by decide
/-- Major 0x1F (04 Table 4.8). -/
theorem test_decode_major_1F :
    decodeTableWord 32 0x1F7B7F03 = some (.red ⟨false, false⟩ (.n 30) (.st 3) .addF32) ∧
    decodeTableWord 32 0x1FFFE048 = some (.redSeg ⟨false, false⟩ .none .fid 1 .addS32) ∧
    decodeTableWord 32 0x1FFEF095 = some (.scanSeg ⟨false, false⟩ .none (.q 15) 2 .minZ32) ∧
    decodeTableWord 32 0x9FFFDF9E = some (.topk ⟨true, false⟩ .none .lane .fid .maxF32) ∧
    decodeTableWord 32 0xDFFE1BE4 = some (.topkSeg ⟨true, true⟩ .none (.q 1) (.q 15) .maxZ32) := by decide
/-- Major 0x20 (04 Table 4.8). -/
theorem test_decode_major_20 :
    decodeTableWord 32 0x20FFCF40 = some (.xshuf ⟨false, false⟩ .none .z .lane) ∧
    decodeTableWord 32 0x20D83F08 = some (.regroup ⟨false, false⟩ (.st 2) (.n 3)) := by decide
/-- Major 0x21 (04 Table 4.8). -/
theorem test_decode_major_21 :
    decodeTableWord 32 0xE113AC82 = some (.lea ⟨true, true⟩ 4 (.k 2) (.b 2) 2) ∧
    decodeTableWord 32 0x2171EE0D = some (.wpack ⟨false, false⟩ 28 (.n 30) (.k 0) 5) ∧
    decodeTableWord 32 0x21238F13 = some (.wext ⟨false, false⟩ 8 (.k 0) 3) ∧
    decodeTableWord 32 0x21238118 = some (.addD ⟨false, false⟩ 8 (.k 0) (.n 4)) ∧
    decodeTableWord 32 0x21238120 = some (.subD ⟨false, false⟩ 8 (.k 0) (.n 4)) := by decide
/-- Major 0x30 (04 Table 4.8). -/
theorem test_decode_major_30 :
    decodeTableWord 32 0x3020CCF6 = some (.ld ⟨false, false⟩ 8 12 .s16 15 .strong .dv) := by decide
/-- Major 0x31 (04 Table 4.8). -/
theorem test_decode_major_31 :
    decodeTableWord 32 0x317088F6 = some (.st ⟨false, false⟩ 28 8 .b128 15 .strong .dv) := by decide
/-- Major 0x32 (04 Table 4.8). -/
theorem test_decode_major_32 :
    decodeTableWord 32 0xB2304206 = some (.ldc ⟨true, false⟩ 12 4 .b16 .strong .dv) ∧
    decodeTableWord 32 0x32708A06 = some (.stc ⟨false, false⟩ 28 8 .b16 .strong .dv) := by decide
/-- Major 0x33 (04 Table 4.8). -/
theorem test_decode_major_33 :
    decodeTableWord 32 0xB33047FB = some (.lds ⟨true, false⟩ 12 4 .b128 31 .acq .sy) ∧
    decodeTableWord 32 0x3320CBD5 = some (.sts ⟨false, false⟩ 8 12 .b32 29 .strong .cl) := by decide
/-- Major 0x34 (04 Table 4.8). -/
theorem test_decode_major_34 :
    decodeTableWord 32 0x3470860D = some (.atomAdd ⟨false, false⟩ 28 8 .b64 .rel .cl) ∧
    decodeTableWord 32 0xB430461D = some (.atomAnd ⟨true, false⟩ 12 4 .b64 .rel .cl) ∧
    decodeTableWord 32 0x3470862D = some (.atomOr ⟨false, false⟩ 28 8 .b64 .rel .cl) ∧
    decodeTableWord 32 0xB430463D = some (.atomXor ⟨true, false⟩ 12 4 .b64 .rel .cl) ∧
    decodeTableWord 32 0x3470864D = some (.atomMinS ⟨false, false⟩ 28 8 .b64 .rel .cl) ∧
    decodeTableWord 32 0xB430465D = some (.atomMaxS ⟨true, false⟩ 12 4 .b64 .rel .cl) ∧
    decodeTableWord 32 0x3470866D = some (.atomMinZ ⟨false, false⟩ 28 8 .b64 .rel .cl) ∧
    decodeTableWord 32 0xB430467D = some (.atomMaxZ ⟨true, false⟩ 12 4 .b64 .rel .cl) ∧
    decodeTableWord 32 0x3470868D = some (.atomExch ⟨false, false⟩ 28 8 .b64 .rel .cl) ∧
    decodeTableWord 32 0xB430469D = some (.atomCas ⟨true, false⟩ 12 4 .b64 .rel .cl) ∧
    decodeTableWord 32 0x347084AB = some (.atomFadd ⟨false, false⟩ 28 8 .acq .sy) ∧
    decodeTableWord 32 0x3420C4BB = some (.atomXadd ⟨false, false⟩ 8 12 .b32 .acq .sy) := by decide
/-- Major 0x35 (04 Table 4.8). -/
theorem test_decode_major_35 :
    decodeTableWord 32 0xF508001F = some (.barArr ⟨true, true⟩ 2 31) ∧
    decodeTableWord 32 0xB518011F = some (.barWt ⟨true, false⟩ 6 31) ∧
    decodeTableWord 32 0x3520021F = some (.barTst ⟨false, false⟩ 8 31) ∧
    decodeTableWord 32 0x3500030B = some (.fence ⟨false, false⟩ .acq .sy) := by decide
/-- Major 0x36 (04 Table 4.8). -/
theorem test_decode_major_36 :
    decodeTableWord 32 0xF608E000 = some (.seal ⟨true, true⟩ 2 14) ∧
    decodeTableWord 32 0xB6182100 = some (.unseal ⟨true, false⟩ 6 2) ∧
    decodeTableWord 32 0x36206200 = some (.cwb ⟨false, false⟩ 8 6) ∧
    decodeTableWord 32 0x36388300 = some (.cinv ⟨false, false⟩ 14 8) := by decide
/-- Major 0x37 (04 Table 4.8). -/
theorem test_decode_major_37 :
    decodeTableWord 32 0xF708E006 = some (.nred ⟨true, true⟩ 2 14 .maxF32) ∧
    decodeTableWord 32 0xF7002100 = some (.nbar ⟨true, true⟩ 2) ∧
    decodeTableWord 32 0x37206200 = some (.rsig ⟨false, false⟩ 8 6) := by decide
/-- Major 0x38 (04 Table 4.8). -/
theorem test_decode_major_38 :
    decodeTableWord 32 0x38388000 = some (.axins ⟨false, false⟩ 14 8) ∧
    decodeTableWord 32 0xF8080100 = some (.axdel ⟨true, true⟩ 2) ∧
    decodeTableWord 32 0x38206200 = some (.axset ⟨false, false⟩ 8 6) ∧
    decodeTableWord 32 0x38000301 = some (.axpub ⟨false, false⟩ .cl) ∧
    decodeTableWord 32 0xB8182400 = some (.axrd ⟨true, false⟩ 6 2) := by decide
/-- Major 0x39 (04 Table 4.8). -/
theorem test_decode_major_39 :
    decodeTableWord 32 0x39206000 = some (.thset ⟨false, false⟩ 8 6) ∧
    decodeTableWord 32 0x39388100 = some (.thget ⟨false, false⟩ 14 8) ∧
    decodeTableWord 32 0xF908E200 = some (.thfill ⟨true, true⟩ 2 14) := by decide
/-- Major 0x3A (04 Table 4.8). -/
theorem test_decode_major_3A :
    decodeTableWord 32 0xBA18001F = some (.tbres ⟨true, false⟩ 6 31) ∧
    decodeTableWord 32 0x3A00010F = some (.tbcom ⟨false, false⟩ 15) ∧
    decodeTableWord 32 0xFA08020F = some (.tbacq ⟨true, true⟩ 2 15) ∧
    decodeTableWord 32 0xBA00031D = some (.tbrel ⟨true, false⟩ 29) ∧
    decodeTableWord 32 0x3A38041D = some (.tbst ⟨false, false⟩ 14 29) := by decide
/-- Major 0x3B (04 Table 4.8). -/
theorem test_decode_major_3B :
    decodeTableWord 32 0xFB05C3E0 = some (.mxgat ⟨true, true⟩ 2 14 .a 31) ∧
    decodeTableWord 32 0x3B3C03A0 = some (.mxlda ⟨false, false⟩ 14 .a 29) := by decide
/-- Major 0x3C (04 Table 4.8). -/
theorem test_decode_major_3C :
    decodeTableWord 32 0x3C001800 = some (.mxmul ⟨false, false⟩ 3) ∧
    decodeTableWord 32 0xBC200800 = some (.mxzero ⟨true, false⟩ 1) := by decide
/-- Major 0x3D (04 Table 4.8). -/
theorem test_decode_major_3D :
    decodeTableWord 32 0x3D1C0800 = some (.mxdrn ⟨false, false⟩ 14 1 false) ∧
    decodeTableWord 32 0x3D201000 = some (.mxwait ⟨false, false⟩ 2 false) ∧
    decodeTableWord 32 0x3D500800 = some (.mxmeta ⟨false, false⟩ 8 1 .a false) := by decide

end Sys2Proof.Tests
end

