-- ==== Sys2Proof/Tests/Slice0.lean ====
section
/-! SUPPORT. Tests of terms and codes, and for each statement with hypotheses concrete states that meet them. Expected
values come from spec/ (worked examples and tables) or are computed by hand from its rules. -/

namespace Sys2Proof.Tests

set_option Elab.async false

open Sys2Proof Sys2Proof.Machine

/-- No bit of C or Y. -/
def px : Pfx := ⟨false, false⟩

/-! Ill-formed terms: one for each check. -/

theorem test_wf_pair : (Instr.addD px 3 (.n 4) (.n 6)).wf = false ∧ (Instr.addD px 2 (.n 4) (.n 6)).wf = true := by decide
theorem test_wf_pair_source : (Instr.wext px 2 (.n 5) 0).wf = false ∧ (Instr.lea px 2 (.k 1) .lane 2).wf = false := by decide
theorem test_wf_quad : (Instr.ld px 2 4 .b128 0 .weak .sl).wf = false ∧ (Instr.st px 6 4 .b128 0 .weak .sl).wf = false := by
  decide
theorem test_wf_short_data : (Instr.lds px 1 4 .b64 0 .weak .sl).wf = false ∧ (Instr.sts px 1 4 .b64 0 .weak .sl).wf = false := by
  decide
theorem test_wf_address : (Instr.ld px 2 7 .b32 0 .weak .sl).wf = false ∧ (Instr.seal px 3 2).wf = false ∧
    (Instr.sbind px 1 0).wf = false ∧ (Instr.thset px 1 3).wf = false ∧ (Instr.mxlda px 3 .a 0).wf = false := by decide
theorem test_wf_scalar_pair : (Instr.ldk px 1 2 .b64 0 .weak .sl).wf = false ∧ (Instr.stk px 2 3 .b8 0 .weak .sl).wf = false := by
  decide
theorem test_wf_atomic_data : (Instr.atomAdd px 1 4 .b64 .weak .sl).wf = false ∧ (Instr.atomCas px 1 4 .b32 .weak .sl).wf = false ∧
    (Instr.atomCas px 2 4 .b64 .weak .sl).wf = false ∧ (Instr.atomFadd px 1 5 .weak .sl).wf = false := by decide
theorem test_wf_load_order : (Instr.ld px 2 4 .b32 0 .rel .dv).wf = false ∧ (Instr.ld px 2 4 .b32 0 .weak .dv).wf = false := by
  decide
theorem test_wf_store_order : (Instr.st px 2 4 .b32 0 .acq .dv).wf = false ∧ (Instr.stc px 2 4 .b32 .weak .cl).wf = false := by
  decide
theorem test_wf_atomic_order : (Instr.atomOr px 2 4 .b32 .weak .dv).wf = false ∧ (Instr.fence px .weak .sl).wf = false := by
  decide
theorem test_wf_csr : (Instr.csrr px 0 0x07).wf = false ∧ (Instr.csrr px 0 0x40).wf = false ∧ (Instr.csrw px 0 0x11).wf = false := by
  decide
theorem test_wf_row_count : (Instr.rgrow px 0).wf = false ∧ (Instr.rshrink px 129).wf = false ∧ (Instr.rgrow px 128).wf = true := by
  decide
theorem test_wf_mx : (Instr.mxwait px 1 true).wf = false ∧ (Instr.mxmeta px 0 1 .a true).wf = false ∧
    (Instr.mxmeta px 0 1 .b false).wf = false := by decide
theorem test_wf_agent : (Instr.packetFetch .none).wf = false ∧ (Instr.go (.vec 49152)).wf = false ∧
    (Instr.watchdog (.frond 192)).wf = false ∧ (Instr.streamFetch (.prol 32) 0).wf = false := by decide
theorem test_wf_unit : (Instr.goAccept 192).wf = false ∧ (Instr.rgrowGrant 768).wf = false ∧ (Instr.signal 32).wf = false ∧
    (Instr.drain 16).wf = false ∧ (Instr.contextDisable 64).wf = false ∧ (Instr.pmemWrite 0 4 0).wf = false ∧
    (Instr.timeTriggeredEntryWrite 0 4 0).wf = false ∧ (Instr.clusterReassignment 16).wf = false ∧
    (Instr.barrierArrival 0 0 64 0 .none).wf = false ∧ (Instr.timeTriggeredSlot 64).wf = false ∧
    (Instr.contextEnable 64 0).wf = false ∧ (Instr.peerRequest ⟨3, 0, 0, 0, 0, 0⟩).wf = false := by decide
theorem test_wf_register : (Instr.registerWrite (.qctl 32) 0).wf = false ∧ (Instr.registerWrite (.pcfg 16) 0).wf = false ∧
    (Instr.registerWrite (.ctxhb 64) 0).wf = false ∧ (Instr.registerWrite (.nonce 8) 0).wf = false ∧
    (Instr.registerWrite (.debug 192 0) 0).wf = false ∧ (Instr.registerWrite (.fstat 192) 0).wf = false ∧
    (Instr.registerWrite (.fabric 64) 0).wf = false ∧ (Instr.readClear (.qerr 32)).wf = false := by decide

/-! States. -/

/-- A machine with a workgroup of one work item placed on cluster 0, whose fibre (or the frond stream for a frond major)
stands at the word. -/
def machine (w : Nat) : State := State.reset.withFetchWord 32 w
/-- The fibre 0 of slot 0, not issuing. -/
def idle : State := machine 0
/-- A group of one word begun after changes of the fibre, the warp and the rest. -/
def inGroup (f : Fibre → Fibre) (w : Warp → Warp) (g : State → State) : State :=
  startGroup (g { idle with f := f idle.f, w := w idle.w }) [0#32]
/-- A group of the vector fibre. -/
def vecG : State := inGroup id id id
/-- A group of the frond stream. -/
def frondG : State := startGroup (machine 0x3C000000) [0x3C000000#32]
/-- The same of all lanes. -/
def fullG : State := inGroup (fun f => { f with live := 0xFFFFFFFF, sp := { f.sp with mask := 0xFFFFFFFF } }) id id
/-- A group of the handler split after a software trap. -/
def trapIn : TrapIn := ⟨0x1E8, 0, 0, 1, 0, ⟨0, 0⟩, true, some ⟨0, 1⟩, none⟩
/-- The fibre trapped. -/
def trapped : State := enterTrap idle trapIn
/-- A group of its handler split. -/
def handlerG : State := startGroup trapped [0#32]
/-- A handle's descriptor, with its first table's entries. -/
def withDesc (h : Nat) (d : Desc) (l : List AxEntry) (s : State) : State :=
  setEntries (setDesc s 0 h d) 0 (axisAt d 0).toff l
/-- Device memory through handle 0: 1 GiB of identity in units of 256 bytes (12 R219). -/
def flatDesc : Desc :=
  { descOf 0 with
    rank := 1, valid := true
    axes := [{ Axis.none with extm1 := 0xFFFFFFFF, width := 32, stride := 256, toff := 64, cap := 4, count := 1, wcount := 1 }] }
def flat : State → State := withDesc 0 flatDesc [⟨0, 0x400000, 0, 0, 1⟩]
/-- `MayAccess` as a test. -/
def may (s : State) (c : Nat) (writes rel : Bool) : Bool :=
  decide (cntOf s.f c < 255) && !fenceHolds s writes && (!rel || (!arrivalsOf (rW s) (fidOf s) && !tbWaits s (curKey s)))
theorem may_access {s : State} {c : Nat} {writes rel : Bool} (h : may s c writes rel = true) : MayAccess s c writes rel := by
  simp only [may, Bool.and_eq_true, decide_eq_true_eq, Bool.not_eq_true', Bool.or_eq_true] at h
  exact ⟨h.1.1, h.1.2, fun hr => by simpa using h.2.resolve_left (by simp [hr])⟩
/-- The record of a group changed. -/
def withG (s : State) (g : Grp → Grp) : State := modG s g

/-! Decoding and issue. -/

theorem test_decode_encode_meets : (Instr.kadd px 1 2 3).wf = true ∧ (encode (.kadd px 1 2 3)).isSome = true := by decide
theorem test_encode_decode_meets : decodeTableWord 32 0x04041080 = some (.kadd px 1 1 2) := by decide
/-- What a check answers in place of a value. -/
def refusal {ε α : Type} : Except ε α → Option ε
  | .error c => some c
  | .ok _ => none
/-- 04 Table 4.12. -/
theorem test_table_4_12 :
    refusal (checkWord vecG 0x1617CF06) = some 0x003 ∧ refusal (checkWord vecG 0x1617CFC0) = some 0x004 ∧
    refusal (checkWord vecG 0x0C000000) = some 0x001 ∧ refusal (checkWord vecG 0x3C000000) = some 0x007 ∧
    refusal (checkWord vecG 0x30087600) = some 0x005 ∧ refusal (checkWord vecG 0x3007C600) = some 0x004 ∧
    refusal (checkWord vecG 0) = none ∧
    refusal (checkGroup vecG 0 [0x900C1080#32, 0x100C1080#32]) = some (0x008, 1) ∧
    refusal (checkGroup vecG 2 [0xFFFFFFFF#32]) = some (0x009, 0) := by decide +kernel
/-- The hypotheses of `StepRunsDecodedWord`. -/
def stepMeets (s : State) : Bool :=
  match pick s with
  | .run t => match fetchPacket t with
    | .ok (u, ws) => match ws[u.f.sp.pos.slot]? with
      | some w => match decode w.toNat with
        | .ok i => s.power && !wordC w && rawCause u w.toNat == none && !frondBars u.cur w.toNat &&
          !fibreBars u w.toNat && !windowBars u i
        | .error _ => false
      | none => false
    | .error _ => false
  | .ev .. => false
  | .idle _ => false
theorem test_step_meets : stepMeets (machine 0x050411FF) = true ∧ stepMeets (machine 0x3C000000) = true := by decide +kernel
/-- The hypotheses of `GroupRuns` for a group of two words. -/
def groupMeets (s : State) : Bool :=
  match pick s with
  | .run t => match fetchPacket t with
    | .ok (u, ws) =>
      let g := groupWords (ws.drop u.f.sp.pos.slot) (2 - u.f.sp.pos.slot)
      match checkGroup u u.f.sp.pos.slot g with
      | .ok l => s.power && decide (l.length ≠ 1) &&
        (match runWords (startGroup u g)
            (effectOrder ((List.range l.length).zip l |>.map fun p => (u.f.sp.pos.slot + p.1, p.2))) with
          | .next _ => true
          | .fault _ => false
          | .refused _ => false)
      | .error _ => false
    | .error _ => false
  | .ev .. => false
  | .idle _ => false
/-- `kmovi k1, 5` chained to `movi n1, 3`. -/
theorem test_group_meets : groupMeets { machine 0 with mem := wrBytes (machine 0).mem 0 (0x85040E05 + 0x1507C003 * 2 ^ 32) 12 } = true := by
  decide +kernel
theorem test_group_alone_meets : idle.grp = none ∧ encode (.kmovi px 1 5) = some 0x05040E05 ∧
    (match exec (.kmovi px 1 5) (startGroup idle [0x05040E05#32]) with
      | .next _ => true
      | .fault _ => false
      | .refused _ => false) = true := by decide +kernel
/-- The hypotheses of `IllegalWords`, first clause. -/
def illegalMeets (s : State) : Bool :=
  match pick s with
  | .run t => match fetchPacket t with
    | .ok (u, ws) =>
      match checkGroup u u.f.sp.pos.slot (groupWords (ws.drop u.f.sp.pos.slot) (2 - u.f.sp.pos.slot)) with
      | .ok _ => false
      | .error _ => s.power && !u.f.trapped && (match u.cur with
        | .vec _ => true
        | .frond _ => false
        | .prol _ => false
        | .none => false)
    | .error _ => false
  | .ev .. => false
  | .idle _ => false
theorem test_illegal_meets : illegalMeets (machine 0x1617CF06) = true ∧ illegal vecG (.mxzero px 0) = some 0x007 ∧
    vecG.grp.map (·.fault) = some none := by decide +kernel
/-- A property of the group being executed. -/
def grpIs (s : State) (p : Grp → Bool) : Bool :=
  match s.grp with
  | some g => p g
  | none => false
theorem test_effect_meets :
    grpIs vecG (fun g => !g.stalled && g.fault == none && arithTrap (teNow vecG.f) g.flags == none && g.xfer == .next) = true ∧
    vecG.f.run < 255 ∧
    grpIs (setXfer vecG (.jump ⟨7, 0⟩)) (fun g => g.xfer == .jump ⟨7, 0⟩) = true := by decide +kernel
/-- A fault, and an enabled flag (OF of pipe F, bit 2: cause 0x111). -/
theorem test_trap_meets :
    vecG.cur = .vec 0 ∧ vecG.f.trapped = false ∧
    grpIs (failWord vecG 0x14B 1 0 false) (fun g => !g.stalled && g.fault == some (0x14B, 0, 1, 0)) = true ∧
    (let s := inGroup (fun f => { f with fmode := 0x401 }) id id
     grpIs (raise s 1 flagOF) (fun g => !g.stalled && g.fault == none && arithTrap (teNow s.f) g.flags == some (0x111, 0)) =
       true) := by decide +kernel
theorem test_stall_meets : (withG vecG fun g => { g with stalled := true }).grp.map (·.stalled) = some true ∧
    vecG.f.splits.length = 4 ∧ vecG.f.cs < 4 ∧ vecG.f.sp.runs = true ∧
    (∀ i, i < 4 → i ≠ vecG.f.cs → ((allSplits vecG.f).getD i Split.none).live = false) := by decide +kernel

/-! Traps. -/

theorem test_trap_entry_meets : idle.cur = .vec 0 ∧ idle.f.trapped = false ∧ handlerPkt (curL idle) (.vec 0) 0x1E8 = some 0#32 := by
  decide +kernel
theorem test_trapped_meets : trapped.cur = .vec 0 ∧ trapped.f.trapped = true ∧ inHandler trapped.f = true ∧
    (getC trapped (curL trapped).comp).cause = 0 ∧
    inHandler { trapped.f with cs := 1 } = false ∧ trapped.f.splits.length = 4 ∧ trapped.f.sp.live = true := by decide +kernel
theorem test_return_meets : trapped.f.hnd.isSome = true ∧
    ((getCl trapped (curCl trapped)).cmds.any fun c => c.fib == curKey trapped && c.delivered) = false ∧
    trapped.f.trap.resume = true ∧ trapped.f.hnd.map (·.after) = some (some ⟨0, 1⟩) ∧ trapped.f.stopPend = false := by
  decide +kernel
/-- 19 Table 19.4: causes 0x040 and 0x060 begin the entries 1 and 2. -/
theorem test_vector_entries : vectorEntry (.vec 0) 0x03F = 0 ∧ vectorEntry (.vec 0) 0x040 = 1 ∧ vectorEntry (.vec 0) 0x060 = 2 := by
  decide

/-! Words: scalar, control, splits, operands, results. -/

theorem test_scalar_meets :
    (Enabled vecG (.kadd px 1 2 3) ∧ (∃ f, scalarTwo (.kadd px 1 2 3) = some (1, 2, 3, f)) ∧ KReady vecG 2 ∧ KReady vecG 3) ∧
    (Enabled vecG (.kaddi px 1 2 5) ∧ ∃ f, scalarOne (.kaddi px 1 2 5) = some (1, 2, f)) ∧
    (Enabled vecG (.kcmpEq px 1 2 3) ∧ ∃ f, scalarCompare (.kcmpEq px 1 2 3) = some (1, 2, 3, f)) ∧
    Enabled vecG (.kmovi px 15 0x1FF) := by
  refine ⟨⟨?_, ⟨_, rfl⟩, ?_, ?_⟩, ⟨?_, _, rfl⟩, ⟨?_, _, rfl⟩, ?_⟩ <;>
    first
    | (unfold Enabled; decide +kernel)
    | (unfold KReady; decide +kernel)
theorem test_register_meets : bank vecG.f = none ∧ 15 < vecG.f.k.length ∧
    (bank handlerG.f).isSome = true ∧ (bank handlerG.f).map (fun h => decide (15 - 8 < h.k.length)) = some true ∧
    3 < vecG.f.m.length ∧ kBad vecG.f 15 = false := by decide +kernel
theorem test_register_pending_meets :
    let s := inGroup id (fun w => { w with pend := [⟨0, 0, .load, false, [], 1, [], 0, [(3, 9#32)], false, false, none, 0, 0, 0⟩] }) id
    s.w.pend.length = 1 ∧ (writeK s 3 7).w.pend.length = 1 ∧ (s.w.pend.map fun p => (p.fib, p.hb)) = [(fidOf s, kBanked s.f 3)] := by
  decide +kernel
theorem test_control_meets :
    (Enabled vecG (.nop px) ∧ Enabled vecG (.halt px) ∧ inHandler vecG.f = false ∧ Enabled vecG (.bra px .al 0xFFFFF)) ∧
    (Enabled vecG (.call px 4) ∧ vecG.f.sp.nest.length < 8) ∧ Enabled vecG (.join px) ∧
    (Enabled vecG (.jmp px 15) ∧ KReady vecG 15) ∧ Enabled vecG (.brd px 3 1) ∧ Enabled vecG (.mand px 1 2 3) ∧
    Enabled vecG (.mor px 1 2 3) ∧ Enabled vecG (.mnot px 1 2) ∧ Enabled vecG (.mmov px 0 3) := by
  unfold Enabled KReady; decide +kernel
/-- A fibre whose nest stack holds these entries. -/
def nestG (l : List NestEntry) : State := inGroup (fun f => { f with sp := { f.sp with nest := l } }) id id
theorem test_return_word_meets : Enabled (nestG [.call ⟨9, 0⟩]) (.ret px) ∧
    (nestG [.call ⟨9, 0⟩]).f.sp.nest = [.call ⟨9, 0⟩] := by unfold Enabled; decide +kernel
theorem test_control_faults_meet :
    grpIs vecG (fun g => g.fault == none) = true ∧
    (Enabled (nestG (List.replicate 8 (.call ⟨9, 0⟩))) (.call px 1) ∧ 8 ≤ (nestG (List.replicate 8 (.call ⟨9, 0⟩))).f.sp.nest.length) ∧
    (Enabled vecG (.ret px) ∧ vecG.f.sp.nest = []) ∧
    (Enabled handlerG (.halt px) ∧ inHandler handlerG.f = true ∧ grpIs handlerG (fun g => g.fault == none) = true) ∧
    (let s := startGroup { trapped with f := { trapped.f with sp := { trapped.f.sp with mask := 3 }, m := [1, 0, 0, 0] } } [0]
     Enabled s (.brd px 0 1) ∧ readM s 0 &&& act s ≠ 0 ∧ ~~~readM s 0 &&& act s ≠ 0 ∧ inHandler s.f = true) := by
  unfold Enabled; decide +kernel
/-- A fibre with four splits. -/
def fourG (l : List NestEntry) : State :=
  let x : Split := ⟨true, ⟨5, 0⟩, 0, [], false, false, none, ⟨5, 0⟩⟩
  inGroup (fun f => { f with
    m := [1, 0, 0, 0], sp := { f.sp with mask := 3, nest := l }
    splits := [f.sp, { x with mask := 4 }, { x with pos := ⟨6, 0⟩, mask := 8 }, { x with pos := ⟨7, 0⟩, mask := 16 }] }) id id
theorem test_brd_fault_meets :
    let s := fourG (List.replicate 8 (.call ⟨9, 0⟩))
    Enabled s (.brd px 0 1) ∧ readM s 0 &&& act s ≠ 0 ∧ ~~~readM s 0 &&& act s ≠ 0 ∧ inHandler s.f = false ∧
    freeSplit s.f = none ∧ 8 ≤ s.f.sp.nest.length := by unfold Enabled; decide +kernel
/-- A fibre of two lanes, lane 0 taking. -/
def twoF : Fibre := { idle.f with sp := { idle.f.sp with mask := 3 } }
theorem test_divergence_meets :
    twoF.sp.mask &&& ~~~3#32 = 0 ∧ (twoF.sp.mask &&& ~~~4#32 ≠ 0 ∧ twoF.sp.mask &&& 4#32 = 0) ∧
    (twoF.sp.mask &&& ~~~1#32 ≠ 0 ∧ twoF.sp.mask &&& 1#32 ≠ 0 ∧ twoF.splits.length = 4 ∧ twoF.cs < 4 ∧ twoF.sp.runs = true ∧
      freeSplit twoF = some 1 ∧ (∀ i, i < 4 → i ≠ twoF.cs → ((allSplits twoF)[i]?.map (·.live)) = some false)) ∧
    (freeSplit (fourG []).f = none ∧ (fourG []).f.sp.runs = true) := by decide +kernel
theorem test_join_meets :
    (nestG [.div ⟨3, 0⟩ 2 none]).f.sp.nest = [.div ⟨3, 0⟩ 2 none] ∧
    (nestG [.div ⟨3, 0⟩ 2 (some (⟨4, 1⟩, ⟨4, 2⟩, 2))]).f.sp.nest = [.div ⟨3, 0⟩ 2 (some (⟨4, 1⟩, ⟨4, 2⟩, 2))] ∧
    (twoF.sp.nest = [] ∧ nSplits twoF = 1) ∧ nSplits (fourG []).f ≠ 1 ∧ (fourG []).f.splits.length = 4 := by decide +kernel
theorem test_split_switch_meets :
    nextSplit (mergeAll (fourG []).f (allSplits (fourG []).f)) (fourG []).f.cs = some 1 ∧
    nextSplit (mergeAll twoF (allSplits twoF)) twoF.cs = some 0 ∧ twoF.run < 255 ∧ 255 ≤ { twoF with run := 255 }.run := by
  decide +kernel

/-- A result on its way to row 5. -/
def loadInFlight : Pend := ⟨0, 0, .load, false, [(5, 1)], 1, [zeroRow], 0, [], false, false, none, 0, 0, 0⟩
theorem test_sources_meet :
    (rowOf vecG 31 < (rW vecG).rows.length ∧ inFlight (rW vecG) (rowOf vecG 31) = false ∧
      tget 0 (rW vecG).pois (rowOf vecG 31) &&& act vecG = 0) ∧
    ((rF vecG).q[15]? = some QEnt.zero ∧ (rF vecG).b[3]? = some Latch.invalid ∧ KReady vecG 3) ∧
    (let s := inGroup (fun f => { f with b := [⟨true, zeroRow, 0, none⟩, Latch.invalid, Latch.invalid, Latch.invalid] }) id id
     (rF s).b[0]? = some ⟨true, zeroRow, 0, none⟩) := by unfold KReady; decide +kernel
theorem test_source_stops_meet :
    (let s := inGroup id (fun w => { w with rows := w.rows.take 8 }) id
     (rW s).rows.length ≤ rowOf s 8 ∧ rowOf s 7 < (rW s).rows.length) ∧
    (let s := inGroup id (fun w => { w with pend := [loadInFlight] }) id
     rowOf s 5 < (rW s).rows.length ∧ inFlight (rW s) (rowOf s 5) = true) ∧
    (let s := inGroup id (fun w => { w with pois := [(5, 1#32)] }) id
     inFlight (rW s) (rowOf s 5) = false ∧ tget 0 (rW s).pois (rowOf s 5) &&& act s ≠ 0) := by decide +kernel
theorem test_results_meet : rowOf vecG 31 < (rW vecG).rows.length ∧ rowOf vecG 31 < vecG.w.rows.length ∧
    rowOf vecG 30 + 1 < (rW vecG).rows.length ∧ rowOf vecG 30 + 1 < vecG.w.rows.length := by decide +kernel

/-! Words: integer. -/

/-- What a word's operand or result gives. -/
def got {ε α : Type} : Except ε α → Bool
  | .ok _ => true
  | .error _ => false
/-- Two sources read one after the other, and a result written after them. -/
def readsWrites (s : State) (a b : Src) (d : Dst) : Bool :=
  match readSrc s a with
  | .ok (s1, _, _) => match readSrc s1 b with
    | .ok (s2, _, _) => got (writeDst s2 0 d zeroRow) && got (writeDst s2 1 d zeroRow) && got (writeDst s2 3 d zeroRow)
    | .error _ => false
  | .error _ => false
theorem test_integer_meets :
    (Enabled vecG (.add px (.n 31) (.n 1) .lane .s16) ∧ (∃ f, vectorTwo (.add px (.n 31) (.n 1) .lane .s16) = some (.n 31, .n 1, .lane, f)) ∧
      readsWrites vecG (.n 1) .lane (.n 31) = true) ∧
    (Enabled vecG (.brev px .q (.q 0)) ∧ (∃ f, vectorOne (.brev px .q (.q 0)) = some (.q, .q 0, f)) ∧
      readsWrites vecG (.q 0) .z .q = true) ∧
    Enabled vecG (.movi px .none 0x100) ∧
    (Enabled vecG (.div px (.n 2) .lane .z) ∧ ∃ f, division (.div px (.n 2) .lane .z) = some (.n 2, .lane, .z, f)) ∧
    readsWrites vecG .lane .z (.n 2) = true := by
  refine ⟨⟨?_, ⟨_, rfl⟩, ?_⟩, ⟨?_, ⟨_, rfl⟩, ?_⟩, ?_, ⟨?_, _, rfl⟩, ?_⟩ <;> first
    | (unfold Enabled; decide +kernel)
    | decide +kernel
/-- 07 R129: the values of a division by zero and of the one overflow. -/
theorem test_division_corners :
    (match division (.div px .none .z .z) with
      | some (_, _, _, f) => f 7 0 == (0x7FFFFFFF#32, true) && f 0xFFFFFFFF 0 == (0x80000000#32, true) &&
          f 0x80000000 0xFFFFFFFF == (0x80000000#32, true) && f 0xFFFFFFF9 2 == (0xFFFFFFFD#32, false)
      | none => false) = true := by decide
theorem test_insert_select_meets :
    (Enabled vecG (.bfi px (.n 2) (.n 1) .lane) ∧ got (readSrc vecG (.n 2)) = true ∧ readsWrites vecG (.n 1) .lane (.n 2) = true) ∧
    (Enabled vecG (.sel px .q .fid 3) ∧ readsWrites vecG .fid .z .q = true) ∧
    Enabled vecG (.cmp px 3 .lane (.n 2) .ge true) := by unfold Enabled; decide +kernel
theorem test_pairs_meet :
    (Enabled vecG (.addD px 30 (.n 28) (.k 2)) ∧ (∃ f, pairTwo vecG (.addD px 30 (.n 28) (.k 2)) = some (30, .n 28, .k 2, f)) ∧
      got (readPair vecG (.n 28)) = true ∧ got (readPair vecG (.k 2)) = true ∧ got (writePair vecG 0 30 zeroRow zeroRow) = true) ∧
    Enabled vecG (.wext px 4 (.n 0) 5) ∧ Enabled vecG (.lea px 4 (.k 0) .lane 4) := by
  refine ⟨⟨?_, ⟨_, rfl⟩, ?_, ?_, ?_⟩, ?_, ?_⟩ <;> first
    | (unfold Enabled; decide +kernel)
    | decide +kernel

/-! Words: system. -/

/-- Three more fibres of the slot: fibre 1 Ready, fibre 2 stopped, fibre 3 Ended; the launch declares four. -/
def slotG : State :=
  inGroup id (fun w => { w with nfib := 4 }) fun s =>
    { s with fibs := [(1, { Fibre.none with st := .ready }), (2, { Fibre.none with st := .waiting [.stop] }),
        (3, { Fibre.none with st := .ended })] }
theorem test_fibre_control_meets :
    (Enabled slotG (.wait px 3 255) ∧ Enabled slotG (.yield px) ∧ slotG.cur = .vec 0 ∧ Enabled frondG (.yield px) ∧
      frondG.cur = .frond 0) ∧
    (Enabled slotG (.fbar px 3) ∧ inHandler slotG.f = false ∧ fbarSet (getF slotG (sibling slotG 1)) = none) ∧
    (Enabled slotG (.fstop px 0) ∧ sibling slotG 0 = curKey slotG) ∧
    (Enabled slotG (.fstop px 1) ∧ sibling slotG 1 ≠ curKey slotG ∧ (getF slotG (sibling slotG 1)).st = .ready) ∧
    ((getF slotG (sibling slotG 2)).st = .waiting [.stop] ∧ (getF slotG (sibling slotG 3)).st = .ended) ∧
    Enabled slotG (.fwake px 0) ∧ Enabled slotG (.fwake px 3) := by unfold Enabled; decide +kernel
theorem test_handler_words_meet :
    (idle.grp = none ∧ idle.cur = .vec 0 ∧ encode (.trap px 0x42) = some 0x07000042 ∧
      illegal (startGroup idle [0x07000042#32]) (.trap px 0x42) = none ∧ idle.f.trapped = false) ∧
    (trapped.grp = none ∧ trapped.cur = .vec 0 ∧ illegal (startGroup trapped [0x07000042#32]) (.trap px 0x42) = none ∧
      trapped.f.trapped = true ∧ inHandler trapped.f = true) ∧
    (inHandler vecG.f = false ∧ handlerG.cur = .vec 0 ∧ inHandler handlerG.f = true ∧ handlerG.w.pend = []) := by decide +kernel
/-- `Enabled` and `KReady` as tests. -/
def on (s : State) (i : Instr) : Bool :=
  s.grp.isSome && illegal s i == none && !(pipeOf (major i) == some 2 && throttled s)
theorem on_enabled {s : State} {i : Instr} (h : on s i = true) : Enabled s i := by
  simp only [on, Bool.and_eq_true, beq_iff_eq, Bool.not_eq_true'] at h
  refine ⟨h.1.1, h.1.2, fun hp => ?_⟩
  have := h.2
  simpa [hp] using this
/-- k i can be read. -/
def kOk (s : State) (i : Nat) : Bool := !kBusy s i && !kBad (rF s) i
theorem test_special_registers_meet :
    [.csrr px 1 0x3F, .csrr px 15 0x21, .csrw px 1 0x00, .csrw px 1 0x01, .setrm px 7, .setrm px 0, .rdflags px 3,
      .clrflags px 0xFF, .rdamax px 3 true, .rdamax px 3 false, .clramax px true, .clramax px false].all (on vecG) = true ∧
    [.csrw px 1 0x10, .csrw px 1 0x16, .csrw px 1 0x17].all (on handlerG) = true ∧ kOk vecG 1 = true ∧ kOk handlerG 1 = true ∧
    (let s := inGroup (fun f => { f with cyHi := some 7 }) id id
     on s (.csrr px 15 0x22) = true ∧ (rF s).cyHi = some 7) := by decide +kernel

/-! Words: streams. -/

/-- A record of 40 words of 4 bytes at offset 256 of the slice of cluster 0 (path 2), and the same as an output. -/
def streamRec : BitVec 512 := BitVec.ofNat 512 (2 * 2 ^ 50 + 256 + 2 * 2 ^ 54 + 40 * 2 ^ 64 + 4 * 2 ^ 96)
def streamRecOut : BitVec 512 := BitVec.ofNat 512 (2 * 2 ^ 50 + 256 + 2 * 2 ^ 54 + 2 ^ 56 + 40 * 2 ^ 64 + 4 * 2 ^ 96)
/-- k0, k1 hold the address of offset 0 of the slice; the record stands there; k2 is 3. -/
def streamG (x : Stream) : State :=
  inGroup (fun f => { f with k := [0, 0x80000, 3] ++ List.replicate 13 0#32, streams := f.streams.set 1 x }) id
    fun s => { s with slices := wrBytes [] 0 streamRec.toNat 64 }
/-- Stream 1 bound at the start of a record. -/
def boundAt (r : BitVec 512) : Stream := { Stream.unbound with bound := true, desc := r }
/-- The record that `sbind` reads is the one that stands there. -/
def recordRead (s : State) : Bool :=
  match locate s (whoCur s) .img (pair64 (kNow s 0) (kNow s (Fin.ofNat 16 1))) 64 with
  | .ok l => (readLoc s l 64).1 == streamRec.toNat && !(readLoc s l 64).2
  | .error _ => false
theorem test_bind_meets :
    let s := streamG Stream.unbound
    on s (.sbind px 0 1) = true ∧ kOk s 0 = true ∧ kOk s 1 = true ∧ (getS s 1).captor = none ∧ (getS s 1).bound = false ∧
    recordRead s = true ∧ rcRag streamRec = false ∧ rcInd streamRec = false ∧ rcBad streamRec 1 = false ∧ 1 < s.f.streams.length := by
  decide +kernel
theorem test_stream_words_meet :
    let s := streamG (boundAt streamRec)
    [.srst px 1, .sadv px 2 1, .sadv px 15 1, .sstat px 15 1].all (on s) = true ∧ kOk s 2 = true ∧ kOk s 15 = true ∧
    (getS s 1).bound = true ∧ (getS s 1).captor = none ∧ rcInd (getS s 1).desc = false ∧ rcBad (getS s 1).desc 1 = false ∧
    rcRag (getS s 1).desc = false ∧ kNow s 2 = 3 ∧ kNow s 15 = 0 ∧
    (getS s 1).pos + (kNow s 2).toNat < rcTotal (getS s 1).desc ∧ s.grp.isSome = true := by decide +kernel
theorem test_stream_faults_meet :
    (let s := streamG Stream.unbound
     on s (.srst px 1) = true ∧ on s (.sadv px 2 1) = true ∧ kOk s 2 = true ∧ (getS s 1).bound = false ∧
     grpIs s (fun g => g.fault == none) = true) ∧
    (let s := streamG { boundAt streamRec with captor := some 0 }
     on s (.srst px 1) = true ∧ (getS s 1).bound = true ∧ (getS s 1).captor ≠ none) := by decide +kernel

/-! Words: floating point. -/

theorem test_float_one_meets :
    (Enabled vecG (.rsq px (.n 2) .z .ra) ∧ (∃ f, floatOne vecG (.rsq px (.n 2) .z .ra) = some (3, .n 2, .z, f)) ∧
      readsWrites vecG .z .z (.n 2) = true) ∧
    (Enabled vecG (.cvtS32F32Rz px .q (.n 1)) ∧ ∃ f, floatOne vecG (.cvtS32F32Rz px .q (.n 1)) = some (1, .q, .n 1, f)) := by
  refine ⟨⟨on_enabled ?_, ⟨_, rfl⟩, ?_⟩, on_enabled ?_, _, rfl⟩ <;> decide +kernel
theorem test_float_two_meets :
    (Enabled vecG (.faddF32 px (.n 2) .lane (.n 1) .rd) ∧
      ∃ f, floatTwo vecG (.faddF32 px (.n 2) .lane (.n 1) .rd) = some (.n 2, .lane, .n 1, f)) ∧
    (Enabled vecG (.cvtQ4F32 px .q .lane (.n 1) true) ∧
      ∃ f, floatAmax vecG (.cvtQ4F32 px .q .lane (.n 1) true) = some (.q, .lane, .n 1, true, f)) ∧
    (Enabled vecG (.ffmsF16Bf16 px (.n 2) .lane (.n 1) .bf16 15) ∧
      ∃ f, floatThree vecG (.ffmsF16Bf16 px (.n 2) .lane (.n 1) .bf16 15) = some (.n 2, .lane, .n 1, 15, f)) ∧
    Enabled vecG (.sacc px (.n 2) .lane (.n 1) .z) ∧ readsWrites vecG .lane (.n 1) (.n 2) = true ∧
    readsWrites vecG .lane (.n 1) .q = true ∧ got (readN vecG 15) = true ∧ got (readOld vecG (.n 2)) = true := by
  refine ⟨⟨on_enabled ?_, _, rfl⟩, ⟨on_enabled ?_, _, rfl⟩, ⟨on_enabled ?_, _, rfl⟩, on_enabled ?_, ?_, ?_, ?_, ?_⟩ <;>
    decide +kernel
theorem test_float_pair_meets :
    (Enabled vecG (.faddF64 px 2 (.n 4) (.k 2) .rm) ∧
      ∃ f, floatPair vecG (.faddF64 px 2 (.n 4) (.k 2) .rm) = some (2, .n 4, .k 2, f)) ∧
    Enabled vecG (.ffmaF64 px 30 (.n 4) (.k 0) .rn) ∧ Enabled vecG (.cvtF64F32 px 30 .lane) ∧
    Enabled vecG (.cvtF32F64 px .none (.k 2)) ∧ got (readPair vecG (.n 4)) = true ∧ got (readPair vecG (.k 2)) = true ∧
    got (writePair64 vecG 1 30 fun _ => 0) = true ∧ got (readN vecG 31) = true := by
  refine ⟨⟨on_enabled ?_, _, rfl⟩, on_enabled ?_, on_enabled ?_, on_enabled ?_, ?_, ?_, ?_, ?_⟩ <;> decide +kernel
/-- The largest finite E4M3 value is 448, of code 0x7E; twice it overflows (05 Table 5.4). -/
theorem test_rounding_meets :
    fmtE4m3 ∈ binaryFormats ∧ (Val.fin false 448 0).rat = fmtE4m3.num fmtE4m3.maxFin ∧
    apart (Val.fin true 3 (-1)).rat 0 ≤ fmtE4m3.num fmtE4m3.maxFin ∧
    fmtE4m3.num fmtE4m3.maxFin + (fmtE4m3.num fmtE4m3.maxFin - fmtE4m3.num (fmtE4m3.maxFin - 1)) ≤ apart (Val.fin true 896 0).rat 0 := by
  decide +kernel
/-- 1.0, −1.0, ∞, a quiet and a signalling NaN of FP16. -/
theorem test_exact_meets :
    fmt16 ∈ binaryFormats ∧ (fmt16.decode 0x3C00).finite = true ∧ (fmt16.decode 0xBC00).finite = true ∧
    fmt16.decode 0x7C00 = .inf false ∧ fmt16.decode 0xFC00 = .inf true ∧ (fmt16.decode 0).isZero = true ∧
    (fmt16.decode 0x7E00).isNan = true ∧ (fmt16.decode 0x7C01).isSnan = true := by decide

/-! Words: cross-lane. -/

theorem test_cross_lane_meets :
    (Enabled fullG (.voteUni px 3 2) ∧ ∃ v, voteWord fullG (.voteUni px 3 2) = some (3, v)) ∧
    (Enabled fullG (.ballot px 15 3) ∧ Enabled fullG (.mpopcBelow px .q 3) ∧ Enabled fullG (.mpopcTotal px .q 3)) ∧
    (Enabled fullG (.scanSeg px (.n 2) .lane 3 .maxF32) ∧
      ∃ h, foldWord fullG (.scanSeg px (.n 2) .lane 3 .maxF32) = some (.n 2, .lane, h, .maxF32, false)) ∧
    (Enabled fullG (.red px (.n 2) .lane .addF32) ∧
      ∃ h, foldWord fullG (.red px (.n 2) .lane .addF32) = some (.n 2, .lane, h, .addF32, true)) ∧
    (Enabled fullG (.shflDown px (.n 2) .lane (.n 1)) ∧
      ∃ f, shuffleWord (.shflDown px (.n 2) .lane (.n 1)) = some (.n 2, .lane, .n 1, f)) ∧
    (srcPois fullG .lane = 0 ∧ (act fullG).getLsbD 0 = true ∧ readsWrites fullG .lane (.n 1) (.n 2) = true) ∧
    Enabled fullG (.topk px (.n 2) .lane (.n 1) .maxF32) ∧ Enabled fullG (.topkSeg px (.n 2) .lane (.n 1) .maxS32) := by
  refine ⟨⟨on_enabled ?_, _, rfl⟩, ⟨on_enabled ?_, on_enabled ?_, on_enabled ?_⟩, ⟨on_enabled ?_, _, rfl⟩, ⟨on_enabled ?_, _, rfl⟩,
    ⟨on_enabled ?_, _, rfl⟩, ?_, on_enabled ?_, on_enabled ?_⟩ <;> decide +kernel
/-- A launch of two workgroups of one warp: extents 1, so that g 0 and 1 exist (02 R18). -/
def twoWgs : State :=
  startGroup { fullG with
    f := { fullG.f with k := 1#32 :: List.replicate 15 0#32 }
    launches := tset Launch.none fullG.launches 1
      { curL fullG with hdr := placedHeader + BitVec.ofNat 2048 (1 * 2 ^ (64 + 7) + 32 * 2 ^ 128) } } [0]
theorem test_exchange_meets :
    (on fullG (.xshuf px (.n 2) .lane .z) = true ∧ inHandler fullG.f = false ∧ srcPois fullG .lane = 0) ∧
    (on twoWgs (.xshuf px (.n 2) .lane (.k 0)) = true ∧ kNow twoWgs 0 = 1 ∧ kOk twoWgs 0 = true ∧
      warpExists (curL twoWgs).hdr (twoWgs.w.g ^^^ 1) twoWgs.w.idx = true ∧
      nSplits twoWgs.f = 1 ∧ got (laterResult twoWgs (.n 2)) = true ∧ unitHasRoom twoWgs = true) ∧
    (on fullG (.regroup px (.n 2) .lane) = true ∧ nSplits fullG.f = 1 ∧ (rW fullG).pend = [] ∧
      got (laterResult fullG (.n 2)) = true) := by decide +kernel
/-- Two segments, lanes 0 to 15 and 16 to 31, of FP32 ones (09 R161): each sums to 16.0. -/
theorem test_fold_segments :
    lane (reduceRow .addF32 .rn false false 0xFFFFFFFF 0xFFFFFFFF (segHeads 0xFFFFFFFF 0x00010000) (List.replicate 32 0x3F800000#32)).1 20 =
      0x41800000 ∧
    lane (scanRow .addS32 .rn false false 0xFFFFFFFF 0xFFFFFFFF (segHeads 0xFFFFFFFF 0x00010000) (List.replicate 32 1#32)).1 17 = 2 ∧
    (0xFFFFFFFF : LaneSet).getLsbD 31 = true := by decide +kernel

/-! Words: memory, synchronisation. -/

/-- n4, n5 hold in every lane the address of offset 512 of the slice, n6 that of offset 0 of the allocation (path 3, short
form: offset alone), k0, k1 the same address as n4, n5. -/
def memG : State :=
  inGroup (fun f => { f with k := [512, 0x80000, 1, 4096] ++ List.replicate 12 0#32 })
    (fun w => { w with rows := ((w.rows.set 4 (List.replicate 32 512#32)).set 5 (List.replicate 32 0x80000#32)).set 6 zeroRow })
    id
/-- A load's addresses and places. -/
def loads (s : State) (i : Instr) : Bool :=
  match loadForm s i with
  | some (d, n, _, ra, rl, _) => match ra with
    | .ok a => got (rl a) && (List.range n).all fun j => decide (rowOf s (d + j) < (rW s).rows.length)
    | .error _ => false
  | none => false
/-- A store's values, addresses and places, none of them a register. -/
def stores (s : State) (i : Instr) : Bool :=
  match storeForm s i with
  | some (d, n, _, ra, rl) => match readRun s d n, ra with
    | .ok _, .ok a => match rl a with
      | .ok l => l.all fun x => match x.2 with
        | .reg _ => false
        | .dev _ | .slice .. | .host _ | .peer .. | .own _ | .fill _ | .oob _ => true
      | .error _ => false
    | _, _ => false
  | none => false
theorem test_loads_meet :
    memG.cur = .vec 0 ∧ may memG 0 false false = true ∧ memG.linksDown = [] ∧
    [.ld px 28 4 .b128 31 .acq .sy, .ld px 31 4 .s8 0 .weak .sl, .lds px 28 6 .b128 0 .weak .sl].all
      (fun i => on memG i && loads memG i) = true ∧
    on memG (.ldk px 14 0 .b64 31 .weak .sl) = true ∧ got (readKK memG 0) = true ∧
    got (locate memG (whoCur memG) .ldk (0x8000000000200#64 + BitVec.ofNat 64 (31 * 8)) 8) = true := by decide +kernel
/-- A tensor of 4 words of 4 bytes at the start of device memory, handle 2, and an address pair of coordinate 3. -/
def tensorG : State :=
  let d : Desc := { descOf 0 with
    esize := 2, rank := 1, valid := true, fill := 7
    axes := [{ Axis.none with extm1 := 3, width := 2, stride := 4, toff := 256, cap := 4, count := 1, wcount := 1 }] }
  inGroup id (fun w => { w with
      rows := (w.rows.set 4 (List.replicate 32 3#32)).set 5 (List.replicate 32 (0x00100000 + 2 * 64 : BitVec 32)) })
    (withDesc 2 d [⟨0, 4, 0, 0, 1⟩])
theorem test_tensor_access_meets :
    on tensorG (.ldc px 1 4 .b32 .weak .sl) = true ∧ loads tensorG (.ldc px 1 4 .b32 .weak .sl) = true ∧
    on tensorG (.stc px 1 4 .b32 .weak .sl) = true ∧ stores tensorG (.stc px 1 4 .b32 .weak .sl) = true := by decide +kernel
theorem test_stores_meet :
    memG.cur = .vec 0 ∧ may memG 1 true true = true ∧ unitHasRoom memG = true ∧ memG.memBad = [] ∧ (∀ x ∈ memG.clusters, x.2.bad = []) ∧
    [.st px 28 4 .b128 31 .rel .sy, .st px 31 4 .b8 0 .weak .sl, .sts px 28 6 .b64 0 .weak .sl].all
      (fun i => on memG i && stores memG i) = true ∧
    on memG (.stk px 2 0 .b64 0 .weak .sl) = true ∧ got (readK memG 2) = true ∧ got (readK memG 3) = true ∧
    got (locate memG (whoCur memG) .stk 0x8000000000200#64 8) = true := by decide +kernel
/-- Operands, addresses and places of an atomic of d, a and its number of value registers and bytes. -/
def atoms (s : State) (d a : NReg) (n size : Nat) : Bool :=
  match readRun s d.val n, readAddrs s a 0 with
  | .ok _, .ok l => got (locWord s .atom l size)
  | _, _ => false
theorem test_atomics_meet :
    (∃ f, atomForm (.atomMinS px 30 4 .b64 .acq .dv) = some (30, 4, .b64, f)) ∧
    [.atomMinS px 30 4 .b64 .acq .dv, .atomFadd px 31 4 .weak .sl, .atomCas px 28 4 .b64 .rel .cl,
      .atomXadd px 30 4 .b64 .weak .sl].all (on memG) = true ∧
    atoms memG 30 4 2 8 = true ∧ atoms memG 31 4 1 4 = true ∧ atoms memG 28 4 2 8 = true ∧ atoms memG 30 4 2 8 = true ∧
    atoms memG 30 4 2 16 = true := by
  refine ⟨⟨_, rfl⟩, ?_⟩; decide +kernel
/-- `AtomicsReady`, and the operands and places of every atomic of 32 and 64 bits. -/
theorem test_atomics_complete_meets :
    AtomicsReady memG .rel 0 ∧
    [.atomAdd px 30 4 .b64 .rel .sy, .atomAnd px 30 4 .b64 .rel .sy, .atomOr px 30 4 .b64 .rel .sy, .atomXor px 30 4 .b64 .rel .sy,
      .atomMinS px 30 4 .b64 .rel .sy, .atomMaxS px 30 4 .b64 .rel .sy, .atomMinZ px 30 4 .b64 .rel .sy,
      .atomMaxZ px 30 4 .b64 .rel .sy, .atomExch px 30 4 .b64 .rel .sy, .atomCas px 28 4 .b64 .rel .sy,
      .atomFadd px 31 4 .rel .sy, .atomXadd px 30 4 .b64 .rel .sy].all (on memG) = true ∧
    atoms memG 30 4 2 8 = true ∧ atoms memG 31 4 1 4 = true ∧ atoms memG 30 4 2 16 = true := by
  refine ⟨⟨by decide +kernel, may_access (by decide +kernel), by decide +kernel, by unfold NoLinkDown; decide +kernel,
    by unfold NoErrors; decide +kernel⟩, ?_⟩
  decide +kernel
theorem test_synchronisation_meets :
    ([.barArr px 2 0, .barWt px 4 0, .barTst px 15 0, .fence px .rel .sy].all (on memG) = true ∧ 0 < hNbar (curL memG).hdr ∧
      barBad memG (curWg memG) 0 = false ∧ arrivalsOf (rW memG) (fidOf memG) = false ∧ kOk memG 2 = true ∧ kOk memG 4 = true) ∧
    -- 0, 1 and 2 participants
    ([.nred px 2 4 .addS32, .nred px 4 2 .addS32, .nbar px 4, .nbar px 2].all (on memG) = true ∧ kNow memG 4 = 0 ∧ kNow memG 2 = 1 ∧
      2 ≤ (kNow memG 3).toNat ∧ kOk memG 3 = true ∧ memG.redns = []) ∧
    -- a signal of count 1 and of count 0 to barrier 0 of workgroup 0
    ([.rsig px 4 2, .rsig px 4 5].all (on memG) = true ∧ got (readKK memG 4) = true ∧ kNow memG 5 = 0) ∧
    (on memG (.enq px 0 31) = true ∧ got (locate memG (whoCur memG) .img 0x8000000000200#64 64) = true ∧ may memG 1 true true = true) := by
  decide +kernel
def regionG (n : Word) : State :=
  inGroup (fun f => { f with k := [8192, 0, n] ++ List.replicate 13 0#32 }) id flat
/-- The parts of a region are all reached. -/
def regionOk (s : State) (i : Instr) : Bool :=
  match regionForm 8192 i with
  | some (_, _, unit, step, legal, _) => legal && 8192 % unit == 0 &&
      got (partsFrom s unit step ((kNow s 2).toNat * (unit / step)) 8192 [])
  | none => false
theorem test_regions_meet :
    ([.seal px 0 2, .unseal px 0 2, .cwb px 0 2, .cinv px 0 2].all (fun i => on (regionG 1) i && regionOk (regionG 1) i) = true ∧
      kNow (regionG 1) 2 ≠ 0 ∧ may (regionG 1) 1 true true = true) ∧
    kNow (regionG 0) 2 = 0 ∧ on (regionG 0) (.seal px 0 2) = true := by decide +kernel

/-! Words: tables, tile buffers, the log array. -/

/-- Handle 2 with one axis whose table has one entry of four, held by `o`. k0 names its entry index `j`, k2, k3 the
address of an entry image at offset 512 of the slice, k4 the handle alone. -/
def tableG (o : Option Nat) (j : Nat) : State :=
  let d : Desc :=
    { descOf 0 with
      esize := 2, rank := 1, valid := true, fill := 7
      axes := [{ Axis.none with extm1 := 7, width := 3, owner := o, stride := 4, toff := 256, cap := 4, count := 1, wcount := 1 }] }
  inGroup (fun f => { f with k := [BitVec.ofNat 32 (2 + j * 2 ^ 16), 0, 512, 0x80000, 2] ++ List.replicate 11 0#32 }) id
    fun s => setEntries { withDesc 2 d [⟨0, 4, 0, 0, 1⟩] s with
      slices := wrBytes [] 512 (entryBits ⟨4, 2, 8, 0, 1⟩) 16 } 0 320 [⟨0, 4, 0, 0, 1⟩]
/-- `MayEdit` of handle 2, axis 0, index j. -/
theorem tableG_edit (o : Option Nat) (j : Nat) (h : (o, j) ∈ [(none, 0), (none, 1), (some 0, 0), (some 0, 1)]) :
    MayEdit (tableG o j) 0 2 0 j (axisAt (getDesc (tableG o j) (curCtx (tableG o j)) 2) 0) := by
  simp only [List.mem_cons, Prod.mk.injEq, List.not_mem_nil, or_false] at h
  rcases h with ⟨rfl, rfl⟩ | ⟨rfl, rfl⟩ | ⟨rfl, rfl⟩ | ⟨rfl, rfl⟩ <;>
    exact ⟨⟨_, readK_ok ⟨by decide +kernel, by decide +kernel⟩, by decide +kernel⟩, by decide +kernel⟩
/-- The image read is the entry at 4 to 5. -/
def imageRead (s : State) : Bool :=
  match readKK s 2 with
  | .ok va => match readImage s va 1 with
    | .ok v => entryOf v == ⟨4, 2, 8, 0, 1⟩
    | .error _ => false
  | .error _ => false
theorem test_edits_meet :
    [.axins px 0 2, .axdel px 0, .axset px 0 2, .axrd px 0 2].all (on (tableG none 0)) = true ∧
    [.axins px 0 2, .axset px 0 2].all (on (tableG (some 0) 1)) = true ∧ imageRead (tableG none 1) = true ∧
    imageRead (tableG (some 0) 0) = true ∧ curKey (tableG none 0) = 0 ∧ cntOf (tableG none 0).f 1 < 255 ∧
    got (pieces (tableG none 0) .imgW 0x8000000000200#64 1) = true ∧ (tableG none 0).memBad = [] := by decide +kernel
theorem test_ordered_meets : Ordered (([] : List AxEntry) ++ ⟨4, 2, 8, 0, 1⟩ :: []) ∧
    Ordered ([⟨0, 4, 0, 0, 1⟩] ++ [⟨4, 2, 8, 0, 1⟩]) := by
  simp [Ordered]
theorem test_handles_meet :
    [.thget px 4 2, .thfill px 4 2, .thset px 4 2].all (on (tableG none 0)) = true ∧ kNow (tableG none 0) 4 = 2 ∧
    curCtx (tableG none 0) < 4096 ∧ (getDesc (tableG none 0) (curCtx (tableG none 0)) 2).valid = true ∧
    got (pieces (tableG none 0) .imgW 0x8000000000200#64 16) = true ∧
    (match readImage (tableG none 0) 0x8000000000200#64 16 with
      | .ok v => imageOk v (tableArea (tableG none 0) (curCtx (tableG none 0)))
      | .error _ => false) = true ∧
    (∀ a ∈ (getDesc (tableG none 0) (curCtx (tableG none 0)) 2).axes, a.owner = none) ∧
    may (tableG none 0) 3 true false = true ∧ may (tableG none 0) 1 true false = true ∧ unitHasRoom (tableG none 0) = true := by
  decide +kernel
theorem test_areas_meet : AreasApart (tableG none 0) ∧ (workOf (tableG none 0) (axisAt (getDesc (tableG none 0) 0 2) 0)).length = 1 ∧
    (workOf (tableG (some 0) 1) (axisAt (getDesc (tableG (some 0) 1) 0 2) 0)).length = 1 := by
  unfold AreasApart; decide +kernel
theorem test_publication_meets :
    let s := tableG (some 0) 0
    on s (.axpub px .sy) = true ∧ s.cur = .vec 0 ∧ s.f.lostAxis = false ∧ may s 3 true false = true ∧ s.w.pend = [] ∧
    (getDesc s 0 2).axes.map (·.owner) = [some 0, none, none, none, none, none] := by decide +kernel
/-- Bytes outside every listed one read zero. -/
theorem rdBytes_unlisted (m : Tab Byte) : ∀ (n a : Nat), (∀ p ∈ m, p.1 < a ∨ a + n ≤ p.1) → rdBytes m a n = 0
  | 0, _, _ => rfl
  | n + 1, a, h => by
    have h1 : rdByte m a = 0 := by
      revert h
      unfold rdByte
      induction m with
      | nil => intro _; rfl
      | cons p r ih =>
        obtain ⟨b, v⟩ := p
        intro h
        have hb := h (b, v) List.mem_cons_self
        have ih := ih fun q hq => h q (List.mem_cons_of_mem _ hq)
        have : a ≠ b := by simp only at hb; omega
        simp only [tget, this, if_false]
        split
        · rfl
        · exact ih
    rw [rdBytes, h1, rdBytes_unlisted m n (a + 1) fun p hp => by have := h p hp; omega]
    rfl
/-- Every axis that the fibre holds fits the table area. -/
theorem test_spaces_meet : ∀ h j, h < 4096 → j < 6 →
    (axisAt (getDesc (tableG (some 0) 0) (curCtx (tableG (some 0) 0)) h) j).owner = some (curKey (tableG (some 0) 0)) →
    SpaceFits (tableG (some 0) 0) (axisAt (getDesc (tableG (some 0) 0) (curCtx (tableG (some 0) 0)) h) j) := by
  intro h j hh hj
  by_cases h2 : h = 1 ∨ h = 2
  · have H : ∀ h ∈ [1, 2], ∀ j, j < 6 →
        (axisAt (getDesc (tableG (some 0) 0) (curCtx (tableG (some 0) 0)) h) j).owner = some (curKey (tableG (some 0) 0)) →
        SpaceFits (tableG (some 0) 0) (axisAt (getDesc (tableG (some 0) 0) (curCtx (tableG (some 0) 0)) h) j) := by
      unfold SpaceFits; decide +kernel
    exact H h (by rcases h2 with rfl | rfl <;> decide) j hj
  · have hl : ((tableG (some 0) 0).mem.all fun p => decide (p.1 < 2 ^ 30) || decide (2 ^ 30 + 2 ^ 20 ≤ p.1) ||
        (decide (2 ^ 30 + 256 ≤ p.1) && decide (p.1 < 2 ^ 30 + 768))) = true := by decide +kernel
    have hc : getCtx (tableG (some 0) 0) (curCtx (tableG (some 0) 0)) =
        { Ctx.reset with en := true, hbase := 2 ^ 30, tbase := 2 ^ 31, tsize := 1 } := by decide +kernel
    have hz : rdBytes (tableG (some 0) 0).mem (2 ^ 30 + 256 * h) 256 = 0 := by
      apply rdBytes_unlisted
      intro p hp
      have := List.all_eq_true.1 hl p hp
      simp only [Bool.or_eq_true, Bool.and_eq_true, decide_eq_true_eq] at this
      omega
    have hd : getDesc (tableG (some 0) 0) (curCtx (tableG (some 0) 0)) h = descOf 0 := by
      simp only [getDesc, hc, if_true, descAt, descAddr, hz]
    rw [hd]
    have H : ∀ j, j < 6 → (axisAt (descOf 0) j).owner = none := by decide +kernel
    rw [H j hj]
    intro h; cases h
/-- A table of two entries with a gap, and how a walk reads it. -/
def gapTable : List AxEntry := [⟨2, 3, 0, 0, 2⟩, ⟨8, 2, 8, 0, 4⟩]
def gapRead (j : Nat) : Except Nat AxEntry :=
  match gapTable[j]? with
  | some e => .ok e
  | none => .error 9
theorem test_walk_meets : Ordered gapTable ∧ gapTable.length < 2 ^ 16 ∧ gapTable ≠ [] ∧
    ∀ (j : Nat) (e : AxEntry), gapTable[j]? = some e → gapRead j = .ok e :=
  ⟨by simp [Ordered, gapTable], by decide, by decide, fun j e h => by simp only [gapRead, h]⟩
/-- 17 R302, Table 17.4: the last unit of a reversed entry, a gap, beyond the end, a filled entry read and stored to. -/
theorem test_walk_kinds :
    walkAxis gapRead 2 4 false = .ok (some 0, 0) ∧ walkAxis gapRead 2 2 true = .ok (some 2, 0) ∧
    refusal (walkAxis gapRead 2 5 false) = some 0 ∧ refusal (walkAxis gapRead 2 1 false) = some 0 ∧
    refusal (walkAxis gapRead 2 10 false) = some 1 ∧ walkAxis gapRead 2 9 false = .ok (none, 0) ∧
    refusal (walkAxis gapRead 2 9 true) = some 8 := by
  refine ⟨rfl, rfl, ?_, ?_, ?_, rfl, ?_⟩ <;> decide

/-- The workgroup's one buffer with a slot in a state; what the fibre holds. -/
def bufG (x : SlotSt) (r a : Tab Nat) : State :=
  inGroup (fun f => { f with tbR := r, tbA := a }) id fun s =>
    modWg s (curWg s) fun w => { w with tbufs := [⟨256, 1, 128, [x], 0, 0⟩] }
theorem bufG_has (x : SlotSt) (r a : Tab Nat) (h : x ∈ [SlotSt.empty, .full, .reserved, .acquired]) (hr : r ∈ [[], [(0, 1)]])
    (ha : a ∈ [[], [(0, 1)]]) : HasBuf (bufG x r a) 0 ⟨256, 1, 128, [x], 0, 0⟩ := by
  simp only [List.mem_cons, List.not_mem_nil, or_false] at h hr ha
  rcases h with rfl | rfl | rfl | rfl <;> rcases hr with rfl | rfl <;> rcases ha with rfl | rfl <;>
    (unfold HasBuf; decide +kernel)
theorem test_slot_words_meet :
    (on (bufG .empty [] []) (.tbres px 15 0) = true ∧ heldR (bufG .empty [] []).f 0 = none) ∧
    (on (bufG .reserved [(0, 1)] []) (.tbcom px 0) = true ∧ heldR (bufG .reserved [(0, 1)] []).f 0 = some 0) ∧
    (on (bufG .full [] []) (.tbacq px 15 0) = true ∧ heldA (bufG .full [] []).f 0 = none) ∧
    on (bufG .empty [] []) (.tbacq px 15 0) = true ∧
    (on (bufG .acquired [] [(0, 1)]) (.tbrel px 0) = true ∧ heldA (bufG .acquired [] [(0, 1)]).f 0 = some 0) ∧
    on (bufG .full [] []) (.tbst px 15 0) = true := by decide +kernel
/-- The launch is stage 0 of a pipeline whose buffer 16 it fills and reads. -/
def pipeG : State :=
  inGroup id id fun s => { s with
    launches := tset Launch.none s.launches 1 { curL s with pipe := some 9 }
    pipes := [(9, { Pipeline.none with
      live := true, desc := BitVec.ofNat 2048 (1 + 1 * 2 ^ 4), stages := [1]
      bufs := [⟨0, 4096, 2, 128, 0, 1, [⟨.reserved, 0, []⟩, ⟨.empty, 0, []⟩], true⟩] })] }
theorem pipeG_has : HasPipe pipeG 16 ⟨0, 4096, 2, 128, 0, 1, [⟨.reserved, 0, []⟩, ⟨.empty, 0, []⟩], true⟩ :=
  ⟨by decide, 9, by decide +kernel, by decide +kernel, by decide +kernel, by decide +kernel⟩
theorem test_pipeline_words_meet :
    [.tbres px 15 16, .tbacq px 15 16, .tbcom px 16, .tbrel px 16].all (on pipeG) = true ∧ (curL pipeG).stage = 0 ∧
    (1 : Nat).testBit (curL pipeG).stage = true ∧ 16 ∉ (getWg pipeG (curWg pipeG)).comTb ∧
    16 ∉ (getWg pipeG (curWg pipeG)).relTb := by decide +kernel

/-- A bank of 32 rows of 16 codes of format 0. -/
def bankL : Bank := ⟨true, 0, 0, 32, 0, false, List.replicate 32 (List.replicate 32 0), List.replicate 32 [0], false, false⟩
/-- The frond stream with both sides loaded and accumulator 1 live. -/
def mxG : State :=
  startGroup (modCl (machine 0x3C000000) 0 fun c => { c with
    sideA := ⟨bankL, Bank.none, 0⟩, sideB := ⟨bankL, Bank.none, 0⟩
    accs := [Acc.empty, ⟨.liveL, 0, 0, List.replicate 32 (List.replicate 32 0), 0, false⟩, Acc.empty, Acc.empty] }) [0#32]
theorem test_mx_words_meet :
    let c := getCl mxG (curCl mxG)
    [.mxmul px 0, .mxzero px 3, .mxwait px 0 true, .mxwait px 3 false, .mxmeta px 1 3 .a false, .mxmeta px 1 0 .b true].all (on mxG) =
      true ∧
    (curBank c.sideA).loaded = true ∧ (curBank c.sideA).fmt = (curBank c.sideB).fmt ∧ (curBank c.sideA).kk = (curBank c.sideB).kk ∧
    isPlane (getAcc (accsIssued c) 0) = false ∧ accMatches (accsIssued c) 0 bankL bankL = true ∧ c.ops.length < 8 ∧
    mxG.f.cnt = [0, 0, 0, 0] ∧ accBusy c 3 = false := by decide +kernel
/-- The scratchpad of four lines for the operand of a load: 32 rows of 32 codes. -/
def mxLoadG : State :=
  startGroup { machine 0x3C000000 with
    f := { (machine 0x3C000000).f with k := List.replicate 16 0#32 }
    launches := tset Launch.none (machine 0x3C000000).launches 1
      { curL (machine 0x3C000000) with hdr := placedHeader + BitVec.ofNat 2048 (127 * 2 ^ 208) } } [0#32]
theorem test_mx_load_meets :
    on mxLoadG (.mxlda px 0 .b 1) = true ∧ got (readKK mxLoadG 0) = true ∧
    (let v : Word64 := 0
     (descReserved v (hNtb (curL mxLoadG).hdr) false = false ∧ dFmt v < 4 ∧ descFeature mxLoadG v = false ∧
       descKind v 32 0 = none ∧ got (needRole mxLoadG v false) = true ∧
       dOff v + shapeRows (dShape v) * rowPitch (dFmt v) (dSp v) 32 ≤ (descSpace mxLoadG v false).2 ∧
       dSoff v + shapeRows (dShape v) * rowScales (dFmt v) (dBlk v) 32 * scaleBytes (dFmt v) ≤ (descSpace mxLoadG v false).2) ∧
     bankBusy (getCl mxLoadG (curCl mxLoadG)) .b = false ∧ got (slotReady mxLoadG v false) = true ∧ cntOf mxLoadG.f 1 < 255 ∧
     ((List.range 32).all fun e => (rowCodes mxLoadG (dFmt v) (dSp v) 32
       ((descSpace mxLoadG v false).1 + dOff v + e * rowPitch (dFmt v) (dSp v) 32)).isSome) = true) := by
  decide +kernel
/-- A gather of rows by an index block of zeros: every row is row 0. -/
theorem test_mx_gather_meets :
    on mxLoadG (.mxgat px 0 2 .a 1) = true ∧ kNow mxLoadG 2 = 0 ∧ descKind 0 32 0 = none ∧
    0 + 2 * shapeRows (dShape 0) ≤ hScr (curL mxLoadG).hdr ∧
    rdBytes mxLoadG.slices (curCl mxLoadG * 2 ^ 20 + (getWg mxLoadG (curWg mxLoadG)).off) 2 = 0 := by decide +kernel
theorem test_mx_drain_meets :
    let c := getCl mxG (curCl mxG)
    let s := startGroup { mxG with
      launches := tset Launch.none mxG.launches 1 { curL mxG with hdr := placedHeader + BitVec.ofNat 2048 (127 * 2 ^ 208) } } [0#32]
    on s (.mxdrn px 0 1 true) = true ∧ descReserved 0 (hNtb (curL s).hdr) true = false ∧ got (needRole s 0 true) = true ∧
    got (slotReady s 0 true) = true ∧ accBusy c 1 = false ∧ isPlane (getAcc c.accs 1) = false ∧ (getAcc c.accs 1).st ≠ .empty ∧
    (∀ j ∈ opAccs c.accs (.zero 1), (getAcc c.accs j).poison = false) ∧
    dOff 0 + drainBytes (getAcc c.accs 1) ≤ (descSpace s 0 true).2 ∧ cntOf s.f 2 < 255 ∧ unitHasRoom s = true := by
  decide +kernel

/-! Events: fetching, held failures, accesses. -/

theorem test_agent_meets : agentOfEvent (.packetFetch (.frond 0)) = some (.frond 0) ∧ idle.cur = .vec 0 := by decide +kernel
theorem test_fetch_meets :
    (match codeWords idle (whoCur idle) idle.f.sp.pos.pkt with
      | .ok ws => ws == [0, 0, 0]
      | .error _ => false) = true ∧ idle.f.sp.buf = none ∧
    (match codePlace idle (whoCur idle) idle.f.sp.pos.pkt with
      | .ok (some pa) => pa == 0
      | _ => false) = true ∧ tget 0 (getCl idle (curCl idle)).fbuf (fetchKey idle idle.f.sp.pos.pkt) = 0 ∧
    (∀ u ∈ ({ idle with hist := [{ unitOfCur idle with wr := true, cls := .m, addr := 12, size := 4 }] } : State).hist,
      u.wr = true → u.cls = .m → u.addr + u.size ≤ 0 ∨ 0 + 12 ≤ u.addr) ∧
    (let s : State := { idle with mem := [] }
     refusal (codePlace s (whoCur s) s.f.sp.pos.pkt) = some 0x063 ∧ s.f.trapped = false) := by decide +kernel
theorem test_watchdog_meets :
    let s : State := { idle with w := { idle.w with stall := 1 } }
    s.w.stall ≠ 0 ∧ s.w.stallAt = s.f.cs ∧ (getPart s (curL s).part).wdlg ≠ 0 ∧ s.w.fib = 0 % 4 ∧ s.f.saved = false ∧ s.f.st = .issuing ∧
    s.f.trapped = false := by decide +kernel
/-- A fibre with a failure held. -/
def failG (h : HeldFail) : State := { idle with f := { idle.f with fails := [h] } }
theorem idle_pend : idle.w.pend = [] := by decide +kernel
theorem interruptible_of {s : State} (hp : s.w.pend = []) (h : (s.f.st = .ready ∨ s.f.st = .issuing) ∧ s.f.trapped = false ∧
    s.f.saved = false) : Interruptible s :=
  ⟨h.1, h.2.1, h.2.2, fun p hq => by rw [hp] at hq; exact absurd hq List.not_mem_nil⟩
theorem test_delivery_meets :
    Interruptible (failG ⟨0x1F2, 0, 8, 1, true, false, none, 0⟩) ∧ Interruptible (failG ⟨0x1E1, 0, 0, 1, true, false, none, 0⟩) ∧
    (∃ p, delivers (failG ⟨0x1E1, 0, 0, 1, true, false, none, 0⟩) (.breakpoint (.vec 0)) = some p ∧
      (failG ⟨0x1E1, 0, 0, 1, true, false, none, 0⟩).f.fails.find? p = some ⟨0x1E1, 0, 0, 1, true, false, none, 0⟩) ∧
    (∃ p, delivers (failG ⟨0x1F2, 0, 8, 1, true, false, none, 0⟩) (.scratchpadWriteRefused (.vec 0) 8 1) = some p ∧
      (failG ⟨0x1F2, 0, 8, 1, true, false, none, 0⟩).f.fails.find? p = some ⟨0x1F2, 0, 8, 1, true, false, none, 0⟩) ∧
    Interruptible idle ∧ idle.f.fails = [] ∧ netCause 0x1F6 = true ∧ netCause 0x1E0 = false :=
  ⟨interruptible_of idle_pend (by decide +kernel), interruptible_of idle_pend (by decide +kernel), ⟨_, rfl, by decide +kernel⟩,
    ⟨_, rfl, by decide +kernel⟩, interruptible_of idle_pend (by decide +kernel), by decide +kernel, by decide, by decide⟩
theorem test_release_meets :
    let s : State := { idle with f := { idle.f with st := .waiting [.held 0x1E8 none], trapped := true } }
    heldAgent s ((0 : Nat)) = some s.cur ∧ s.f.st = .waiting [.held 0x1E8 none] := by decide +kernel

/-- A fibre with an access in flight. -/
def pendG (k : PKind) : State :=
  { idle with
    w := { idle.w with pend := [⟨0, 0, k, false, [(5, 1)], 1, [List.replicate 32 7#32], 0, [(15, 9#32)], false, false, none, 0, 0, 0⟩] }
    f := { idle.f with cnt := [1, 1, 0, 1], seq := 1, q := ⟨zeroRow, 1, 0, 1⟩ :: List.replicate 15 QEnt.zero } }
theorem test_performed_meets :
    ((firstDone (pendG .load) (fun k => k == .load)).map (·.kind) = some .load ∧ counterOf (.vec 0) .load = some 0 ∧ fbarSet (pendG .load).f = none ∧
      5 < (pendG .load).w.rows.length ∧ (pendG .load).f.hnd = none ∧ (pendG .load).f.q[0]? = some ⟨zeroRow, 1, 0, 1⟩) ∧
    (firstDone (pendG .store) (fun k => match k with
      | .store | .strm .. => true
      | _ => false)).map (·.kind) = some .store ∧
    ((pendG (.seal [2])).w.pend.find? (fun p => p.fib == fidOf (pendG (.seal [2])) && (match p.kind with
      | .seal _ => true
      | _ => false))).map (·.kind) = some (.seal [2]) ∧
    ((pendG (.unseal [2])).w.pend.find? (fun p => p.fib == fidOf (pendG (.unseal [2])) && (match p.kind with
      | .unseal _ => true
      | _ => false))).map (·.kind) = some (.unseal [2]) ∧
    ((pendG (.cacheOp [])).w.pend.find? (fun p => p.fib == fidOf (pendG (.cacheOp [])) && (match p.kind with
      | .cacheOp _ => true
      | _ => false))).map (·.kind) = some (.cacheOp []) ∧
    ((pendG (.publish true .sy false [])).w.pend.find? (fun p => p.fib == fidOf (pendG (.publish true .sy false [])) &&
      (match p.kind with
      | .publish .. => true
      | _ => false))).map (·.seq) = some 0 := by decide +kernel
/-- A publication of the fibre's oldest access while another fibre's access through older tables is in flight, and not. -/
theorem test_publish_meets :
    anyInFlight (flipAxes (pendG (.publish true .sy false [])) 0) (olderAccesses (flipAxes (pendG (.publish true .sy false [])) 0) .sy) =
      false ∧
    (let s : State := { pendG (.publish true .sy false []) with
      warps := [(1, { Warp.none with live := true, launch := 1, pend := [{ loadInFlight with kind := .store }] })] }
     anyInFlight (flipAxes s 0) (olderAccesses (flipAxes s 0) .sy) = true) := by decide +kernel
theorem test_pass_meets :
    let s := modCl idle 0 fun c => { c with passes := [⟨3, 0, 0, false⟩] }
    (grantOrder (getCl s 0).lastReq).findSome? (fun r => (getCl s 0).passes.find? fun p => p.req == r) = some ⟨3, 0, 0, false⟩ ∧
    2 ≤ tget 0 { s with outst := [(outKey 0 1, 2)] }.outst (outKey 0 1) := by decide +kernel

/-! Events: barriers, exchanges, regroup, reductions, tile buffers, streams. -/

theorem test_arrival_meets : barBad idle (wgKey 1 0) 0 = false ∧ (getWg idle (wgKey 1 0)).live = true ∧ (getWg idle (wgKey 1 0)).saved = false := by decide +kernel
/-- 13 R243: with expectation 3 and two arrived, one more completes a phase; without an expectation arrivals add up. -/
theorem test_arrive_word : arriveWord 0x0000000500020003#64 1 = 0x0000000600000003#64 ∧
    arriveWord 0x0000000500020000#64 1 = 0x0000000500030000#64 ∧ arriveWord 0x00000005FFFF0000#64 1 = 0x00000005FFFF0000#64 := by
  decide +kernel
theorem test_exchange_event_meets :
    let m : XMsg := ⟨1, 1, 0, 0, 0, 0, zeroRow⟩
    let s := modCl idle 0 fun c => { c with xbuf := [m] }
    s.clusters.map Prod.fst = [0] ∧ (getCl s 0).xbuf = [m] ∧ (getWg s (wgKey m.launch m.g)).live = true ∧
    (getWg s (wgKey m.launch m.g)).cluster = 0 ∧ warpKeyOf s (getWg s (wgKey m.launch m.g)) m.idx = some 0 ∧
    heldMessages s 0 < 64 ∧
    (∀ x ∈ s.clusters, x.2.xbuf = if x.1 = 0 then [m] else []) := by decide +kernel
theorem test_exchange_timeout_meets :
    let s : State := { idle with f := { idle.f with st := .waiting [.xshuf 0 0 .q] } }
    xshufOf s.f = some (0, 0, .q) ∧ s.f.saved = false ∧ partnerSaved s 0 = false ∧ s.f.trapped = false ∧
    xshufMatch s = none ∧ xshufMatch { s with f := { s.f with xin := [(0, 0, zeroRow)] } } ≠ none := by decide +kernel
/-- The fibre waits in `regroup`; nobody's records are out. -/
def regroupG : State := checkIn { idle with f := { idle.f with st := .waiting [.regroup .q zeroRow] } }
theorem test_regroup_meets :
    regroupG.cur = .none ∧ participants regroupG (getWg regroupG (wgKey 1 0)) 0 = [0] ∧
    (regroupKey (getF regroupG 0)).isSome = true ∧ (regroupOrder regroupG [0]).length = 1 ∧
    (getF regroupG 0).st = .waiting [.regroup .q zeroRow] := by decide +kernel
theorem test_reduction_meets :
    let r : Redn := ⟨1, 0, false, 1, .addS32, [(0, 0, 5)]⟩
    let s : State := { checkIn { idle with f := { idle.f with st := .waiting [.nred 0 15] } } with redns := [r] }
    s.cur = .none ∧ s.redns.find? (fun r => r.launch == 1 && r.j == 0 && r.bar == false) = some r ∧ r.p ≤ r.con.length ∧
    (getF s 0).st = .waiting [.nred 0 15] ∧ (getF s 0).stopPend = false ∧ (getF s 0).hnd = none ∧ (getF s 0).k.length = 16 := by
  decide +kernel
theorem test_reduction_timeout_meets :
    let r : Redn := ⟨1, 0, true, 2, .addS32, [(0, 0, 0)]⟩
    let s : State := { idle with redns := [r], f := { idle.f with st := .waiting [.nbar 0] } }
    s.f.trapped = false ∧ r.con.map Prod.fst = [0] ∧ r.con.length < r.p ∧ s.f.saved = false ∧
    s.redns.find? (fun r => r.launch == 1 && r.j == 0 && r.bar == true) = some r ∧
    (waitsOf s.f).any (isRednWait 0 true) = true := by decide +kernel
theorem test_tile_apply_meets :
    let o : TbOp := ⟨wgKey 1 0, 0, 0, 0, 0, true⟩
    let s := modWg (modCl idle 0 fun c => { c with tbq := [o] }) (wgKey 1 0) fun w => { w with warps := [] }
    (getCl s 0).tbq = [o] ∧ opReady s o = true ∧ (getWg s o.wg).tbufs[0]? = some ⟨256, 1, 128, [.empty], 0, 0⟩ ∧
    (getWg s o.wg).warps = [] := by decide +kernel
theorem test_stream_data_meets :
    (let s := streamG (boundAt streamRec)
     rcOut (getS s 1).desc = false ∧ (getS s 1).fdone = false ∧ (getS s 1).fetched.length < 128 ∧ rcRag (getS s 1).desc = false ∧
     rcInd (getS s 1).desc = false ∧ (getS s 1).pos + (getS s 1).fetched.length < rcTotal (getS s 1).desc ∧ s.f.saved = false) ∧
    (let e : SElem := ⟨5, false, none, true, false, false, (0, 0, 0), 0⟩
     let s := streamG { boundAt streamRec with fetched := [e], pos := 39 }
     Nat.min (laneCount (act s)) (rcCount streamRec 0 - 39 % rcCount streamRec 0) = 1 ∧ 39 + 1 ≤ rcTotal streamRec ∧
     tokWaits s e.tok = false ∧ 1 ≤ (getS s 1).fetched.length) ∧
    (let s := streamG { boundAt streamRecOut with pos := 39 }
     s.cur = .vec 0 ∧ may s 1 true false = true ∧ unitHasRoom s = true ∧ (getS s 1).pos + laneCount (act s) ≤ rcTotal streamRecOut ∧ (getS s 1).writes + laneCount (act s) ≤ 128 ∧
     got (locate s (whoCur s) .strmW (rcPosAddr streamRecOut 39) (rcSize streamRecOut)) = true) := by decide +kernel

/-! Events: the copy engine and the frond core. -/

/-- The staging registers written for a copy of one row of 128 bytes from offset 1024 to offset 2048 of the slice. -/
def goG : State :=
  { idle with
    f := { idle.f with
      stg := [0x8000000000400#64, 0x8000000000800#64, 0x80 + 1 * 2 ^ 32, 0#64], stgSet := 0xF } }
theorem test_go_meets :
    goCause goG = none ∧ cntOf goG.f 1 < 255 ∧ cntOf goG.f 2 < 255 ∧ (stgBank idle).2 ≠ 0xF ∧ goCause idle = some 0x180 ∧
    idle.f.trapped = false := by decide +kernel

/-- The GO of those values in flight, and a command of them. -/
def goPend : State :=
  { goG with w := { goG.w with pend := [⟨0, 0, .go (goG.f.stg ++ [0#64, 0#64]), false, [], 1, [], 0, [], false, true, none, 0, 0, 0⟩] } }
def cmdOf (running : Bool) (row : Nat) : Cmd :=
  { src := 0x8000000000400#64, dst := 0x8000000000800#64, shape := 0x80 + 1 * 2 ^ 32, flags := 0, fib := 0, num := 0
    wg := wgKey 1 0, tbs := none, row := row, byte := 0, strec := none, idx := none, running := running, held := none
    delivered := false, paid := true, again := false }
def cmdG (c : Cmd) : State :=
  modCl { idle with slices := wrBytes [] 1024 0xABCD 2, f := { idle.f with cnt := [0, 0, 1, 0] } } 0 fun x => { x with cmds := [c] }
theorem test_copy_meets :
    ((firstGo (pendingGos goPend 0)).map (fun p => (p.1, p.2.1.fib)) = some (0, 0) ∧ (getCl goPend 0).cmds.length < 32) ∧
    ((getCl (cmdG (cmdOf false 0)) 0).cmds.find? (fun c => !c.running && c.held.isNone && !cmdStopped (cmdG (cmdOf false 0)) c) =
      some (cmdOf false 0)) ∧
    ((turnCmd (cmdG (cmdOf true 0)) 0 = some (0, cmdOf true 0)) ∧
      (match lineOrFail (modCl (cmdG (cmdOf true 0)) 0 fun x => { x with ceTurn := 1 }) (cmdOf true 0) 0 with
        | .ok (_, src, dst) => src.length == 128 && dst.length == 128
        | .error _ => false) = true ∧ (cmdG (cmdOf true 0)).memBad = [] ∧
      (∀ x ∈ (cmdG (cmdOf true 0)).clusters, x.2.bad = [])) ∧
    ((getCl (cmdG (cmdOf true 1)) 0).cmds.find? (fun c => c.running && c.held.isNone && c.over && !cmdStopped (cmdG (cmdOf true 1)) c) =
      some (cmdOf true 1)) ∧
    (cmdG (cmdOf false 0)).f.st ≠ .ended ∧ cmdStopped (cmdG (cmdOf false 0)) (cmdOf false 0) = false ∧
    (getCl (cmdG (cmdOf false 0)) 0).cmds[0]? = some (cmdOf false 0) := by decide +kernel
theorem test_copy_delivery_meets : Interruptible (failG ⟨0x185, 5, 0, 0, false, false, none, 0⟩) ∧
    (failG ⟨0x185, 5, 0, 0, false, false, none, 0⟩).f.fails.find? (fun h => decide (0x183 ≤ h.cause ∧ h.cause ≤ 0x187)) = some ⟨0x185, 5, 0, 0, false, false, none, 0⟩ :=
  ⟨interruptible_of idle_pend (by decide +kernel), by decide +kernel⟩
/-- A copy run by the default order: the row stands at its destination (16 R289). -/
theorem test_copy_line :
    (match exec (.copyLineTransfer 0) (cmdG (cmdOf true 0)) with
      | .next t => rdBytes t.slices 2048 4 == 0xABCD && (getCl t 0).cmds.map (·.row) == [1]
      | .fault _ => false
      | .refused _ => false) = true := by decide +kernel

/-- Nobody's records are out; the frond core of cluster 0 is free. -/
def freeFrond : State := modCl (checkIn idle) 0 fun c => { c with frondWg := none }
theorem test_fstart_meets :
    let s := modCl idle 0 fun c => { c with frondWg := none }
    (getCl s (curCl s)).frondWg ≠ some (curWg s) ∧ (getCl s (curCl s)).frondQ = [] ∧ waitingStart s (curCl s) = none ∧
    s.w.pend = [] ∧ (getCl idle (curCl idle)).frondWg = some (curWg idle) ∧
    (let t := modCl idle 0 fun c => { c with frondQ := List.replicate 16 (wgKey 1 0, 0#64) }
     16 ≤ (getCl t (curCl t)).frondQ.length ∧ may t 1 true false = true) := by decide +kernel
theorem test_frond_start_meets :
    let s := modCl freeFrond 0 fun c => { c with frondQ := [(wgKey 1 0, 0x0000000700000002#64)] }
    (getCl s 0).frondWg = none ∧ (getCl s 0).frondQ = [(wgKey 1 0, 0x0000000700000002#64)] ∧ waitingStart s 0 = none ∧
    s.cur = .none ∧ (getPart s (getL s (getWg s (wgKey 1 0)).launch).part).pre < 2 := by decide +kernel
theorem test_frond_end_meets :
    let s := checkIn { machine 0x3C000000 with f := { (machine 0x3C000000).f with st := .ended } }
    (getCl s 0).frondWg = some (wgKey 1 0) ∧ s.cur = .none ∧ (getF s (fibKey (.frond 0))).st = .ended ∧
    (getF s (fibKey (.frond 0))).cnt = [0, 0, 0, 0] ∧ (getW s (fibKey (.frond 0) / 4)).pend = [] ∧ (getCl s 0).roles = [] := by
  decide +kernel
/-- The frond stream of cluster 0 with a load in progress and operations in the sequencer. -/
def mxS (l : List MxOp) : State :=
  modCl { machine 0x3C000000 with f := { (machine 0x3C000000).f with cnt := [1, 1, 1, 0] } } 0 fun c => { c with
    load := some ⟨.b, bankL, none, 0, 0, 0, none, 0⟩, ops := l
    accs := [Acc.empty, ⟨.liveL, 0, 0, List.replicate 32 (List.replicate 32 0), 0, false⟩, Acc.empty, Acc.empty] }
/-- A bank of format Q8 with two rows of one group of 32 codes 1, scales 0. -/
def bankQ : Bank := ⟨true, 2, 0, 32, 0, false, [List.replicate 32 1, List.replicate 32 2], [[0], [0]], false, false⟩
theorem test_mx_events_meet :
    ((mxS []).cur = .frond 0 ∧ (getCl (mxS []) 0).frondWg = some (wgKey 1 0) ∧ (getCl (mxS []) 0).load.isSome = true) ∧
    nextOp (getCl (mxS [.zero 3]) 0) true = some (0, .zero 3) ∧
    nextOp (getCl (mxS [.mul 1 bankL bankL 0 0 ⟨0, 0⟩]) 0) true = some (0, .mul 1 bankL bankL 0 0 ⟨0, 0⟩) ∧
    (nextOp (getCl (mxS [.mul 3 bankQ bankQ 0 0 ⟨0, 0⟩]) 0) true = some (0, .mul 3 bankQ bankQ 0 0 ⟨0, 0⟩) ∧ 2 ≤ bankQ.fmt ∧
      planesOf bankQ = 1 ∧ (getCl (mxS []) 0).accs.length = 4 ∧ groupLen bankQ.blk * 1 ≤ (bankQ.codes.getD 1 []).length) ∧
    nextOp (getCl (mxS [.drain 1 0 true none]) 0) false = some (0, .drain 1 0 true none) ∧ (mxS []).memBad = [] := by
  decide +kernel
/-- 11 R208: one group of 32 products 2 × 2 sums to 128. -/
theorem test_mx_group_sum :
    (match exec (.mxOperationComplete 0) (mxS [.mul 3 bankQ bankQ 0 0 ⟨0, 0⟩]) with
      | .next t => ((getAcc (getCl t 0).accs 3).vals.getD 1 []).getD 1 0 == 128
      | .fault _ => false
      | .refused _ => false) = true := by decide +kernel

/-! Events: placement, launches, queues. -/

/-- 24 R400's example: counts (5, 0, 9, 2, 0, 3, 1, 4) on clusters 20 to 29. -/
theorem test_apportion_example :
    apportion [20, 21, 22, 23, 24, 25, 26, 27, 28, 29] [5, 0, 9, 2, 0, 3, 1, 4] =
      [(0, [20, 21]), (2, [22, 23, 24]), (3, [25]), (5, [26]), (6, [27]), (7, [28, 29])] ∧
    apportion [20, 21] [1, 1, 1] = [(0, [20]), (1, [21]), (2, [20])] ∧ apportion [20] [0, 0] = [] := by decide
/-- An accepted launch of one work item on partition 0 with nothing placed. -/
def launchS : State :=
  { checkIn idle with
    fibs := [], warps := [], wgs := []
    launches := [(1, { Launch.none with live := true, hdr := placedHeader, comp := 1 })] }
theorem test_placement_meets :
    (getL launchS 1).live = true ∧ (getL launchS 1).empty = false ∧ (getL launchS 1).cancelled = false ∧
    (getL launchS 1).pipe = none ∧ (getPart launchS (getL launchS 1).part).pre = 0 ∧ (∀ x ∈ launchS.launches, x.1 < 1 → placement launchS x.1 = none) ∧
    nextWg (getL launchS 1).hdr (getL launchS 1).nextG = some 0 ∧ (candidates launchS 1 0).head? = some 0 ∧
    (placeOn launchS 1 0 0).isSome = true ∧ (placeWarp launchS 1 0 0 0).isSome = true ∧ launchS.cur = .none ∧
    0 < hNfib (getL launchS 1).hdr := by decide +kernel
/-- The placed fibre starts with fmode of the header and one live lane (06 R108, 02 R19). -/
theorem test_placement_result :
    (match exec (.workgroupPlacement 1) launchS with
      | .next t => (getF t 0).st == .ready && (getF t 0).fmode == 1 && (getF t 0).live == 0xFFFFFFFF#32 &&
          (getW t 0).base == 0 && (getWg t (wgKey 1 0)).live
      | .fault _ => false
      | .refused _ => false) = true := by decide +kernel
/-- A workgroup whose one warp has retired, its slot still reserved. -/
theorem test_release_group_meets :
    let s := modWg { freeFrond with warps := [(0, { Warp.none with live := true, launch := 1, resv := 32, retired := true })] }
      (wgKey 1 0) fun w => { w with warps := [] }
    s.cur = .none ∧ (getWg s (wgKey 1 0)).live = true ∧ (getWg s (wgKey 1 0)).warps = [] ∧ (getCl s 0).frondWg = none ∧
    (getCl s 0).frondQ = [] ∧ (getCl s 0).tbq = [] ∧ retiredSlots s 0 1 0 = [0] := by decide +kernel
theorem test_retire_meets :
    let s := checkIn { idle with f := { idle.f with st := .ended } }
    s.cur = .none ∧ (getW s 0).live = true ∧ (getW s 0).retired = false ∧ (getW s 0).pend = [] ∧ (getF s 0).st = .ended ∧ (getF s 0).cnt = [0, 0, 0, 0] ∧
    (getF s 1).st = .absent ∧ (getF s 2).st = .absent ∧ (getF s 3).st = .absent := by decide +kernel
/-- Stage 0 of an apportioned pipeline on clusters 3 and 4, batch 0 recorded without tokens, or no batch recorded. -/
def apS (b : Option Batch) : State :=
  { launchS with
    launches := [(1, { Launch.none with live := true, hdr := placedHeader, comp := 1, pipe := some 9, clusters := [3, 4], batch := b })]
    pipes := [(9, { Pipeline.none with live := true, desc := BitVec.ofNat 2048 (1 + 2 ^ 4 + 2 ^ 9 + 2 * 2 ^ 21), stages := [1], placed := true
                                       bufs := [⟨0, 4096, 2, 128, 0, 0, [⟨.empty, 0, []⟩, ⟨.empty, 0, []⟩], true⟩] })]
    mem := (withDesc 2 { flatDesc with
      esize := 2
      axes := [{ Axis.none with extm1 := 7, width := 32, stride := 4, toff := 68, cap := 4, count := 1, wcount := 1 }] }
      [⟨0, 0x400000, 0, 0, 1⟩] (flat launchS)).mem }
theorem test_batch_meets :
    let s := apS none
    let l := getL s 1
    l.pipe = some 9 ∧ nextWg l.hdr l.nextG = some 0 ∧ apportioned s 1 = true ∧ l.clusters ≠ [] ∧ l.batch = none ∧ eligible s 1 0 = true ∧
    (∀ e, e < pNexp (getP s 9).desc → (countAt s l (pAph (getP s 9).desc) e).isSome = true) := by decide +kernel
theorem test_not_created_meets :
    let s := apS (some ⟨0, [0], []⟩)
    let l := getL s 1
    (getP s 9).live = true ∧ apportioned s 1 = true ∧ (getPart s l.part).pre = 0 ∧ eligible s 1 0 = true ∧
    batchOf l.hdr 0 = 0 ∧ expertOf l.hdr 0 = 0 ∧ l.skipped = [] ∧ 0 < taskReach s 1 := by decide +kernel
theorem test_completion_meets :
    let c : Comp := { Comp.none with live := true, launches := [1], cause := 0x153, ncause := 1, tag := 7 }
    let s : State := { launchS with comps := [(1, c)], launches := [(1, { Launch.none with live := true, empty := true })] }
    (getC s 1).live = true ∧ (getC s 1).more = false ∧ (getC s 1).tt = none ∧ launchDone s 1 = true ∧ starves s 1 = false ∧
    c.cause < 2 ^ 9 ∧ c.ncause < 2 ^ 8 ∧ c.site < 2 ^ 16 ∧ c.orig < 2 ^ 9 ∧ c.drops < 2 ^ 32 := by decide +kernel
theorem test_completion_record_meets :
    let s : State := flat (checkIn idle)
    (match locatePkt s 0 (getCtx s 0).part true 0x100#64 32 with
      | .ok (.dev pa) => pa == 0x100
      | _ => false) = true := by decide +kernel
/-- A warp whose fibre 0 asks for 40 rows; core 0 has room. -/
def growS : State := checkIn { idle with w := { idle.w with rg := [(0, 0, 40, 0)] } }
theorem test_grow_meets :
    oldestGrow growS 0 = some (0, 40, 0) ∧
    (∀ x ∈ (getW growS 0).rg, 0 ≤ x.2.2.2) ∧
    runFree (coreRuns growS 0 0) (getW growS 0).base (roundUp8 40) = true ∧ growS.cur = .none ∧
    (let s : State := { growS with warps := [(0, { getW growS 0 with base := 1000 })] }
     runFree (coreRuns s 0 0) (getW s 0).base (roundUp8 40) = false ∧ fitRun (coreRuns s 0 0) (roundUp8 40) = some 0) := by
  decide +kernel
theorem test_eviction_meets :
    let s : State := { growS with fibs := growS.fibs.map fun x => (x.1, { x.2 with st := .waiting [.stop] }) }
    (∀ j ∈ resident s 0, rgBlocked s j = true) ∧ (∃ j ∈ resident s 0, (getW s j).rg ≠ []) ∧
    youngest s (resident s 0) = some 0 := by decide +kernel
theorem test_restore_slot_meets :
    let s0 := checkIn { idle with w := { idle.w with resv := 0 }, f := { idle.f with saved := true } }
    let s := modCore s0 0 fun c => { c with evicted := [⟨0, 32, []⟩] }
    (getCore s 0).evicted = [⟨0, 32, []⟩] ∧ (getW s 0).live = true ∧ fitRun (coreRuns s 0 0) 32 = some 0 ∧
    oldestGrow s 0 = none ∧
    (getF s 0).saved = true ∧ (getF s 0).st ≠ .absent := by decide +kernel
theorem test_row_words_meet : [.rgrow px 32, .rgrow px 1, .rshrink px 32, .rshrink px 1].all (on vecG) = true ∧
    inHandler vecG.f = false ∧ (rW vecG).rows.length = 32 ∧ vecG.w.rows.length = 32 ∧ vecG.w.pend = [] := by decide +kernel

/-- A launch header's bytes, a packet of a type, and queue 0 with that packet at its head: the host ring at 0x10000, the
device ring at 0x20000, the header at 0x30000. -/
def pktOf (ty : Nat) (a v : Nat) : Nat := ty + 7 * 2 ^ 32 + a * 2 ^ 64 + v * 2 ^ 128
def queueS (pkt : Nat) (hdr : BitVec 2048) (g : Queue → Queue) : State :=
  let x : Queue := { Queue.reset with qctl := 0x1081, qbase := 0x10000, dqbase := 0x20000, tail := 1 }
  let s : State := { flat (checkIn idle) with stage := 5 }
  { s with
    mem := wrBytes (wrBytes s.mem 0x10000 pkt 64) 0x30000 hdr.toNat 256
    queues := [(0, g x)] }
theorem test_tail_meets :
    let s := queueS 0 0 id
    s.stage = 5 ∧ ((1 : Word) - (getQ s 0).head).toNat ≤ hostRing (getQ s 0) ∧
    ((getQ s 0).tail - (getQ s 0).head).toNat ≤ ((1 : Word) - (getQ s 0).head).toNat ∧
    (16 : Word).toNat ≤ hostRing (getQ s 0) ∧ hostRing (getQ s 0) < (17 : Word).toNat ∧
    ((0 : Word) - (getQ s 0).head).toNat < ((getQ s 0).tail - (getQ s 0).head).toNat := by decide +kernel
theorem test_head_meets :
    (let x := getQ (queueS 0 0 id) 0
     x.ahead = [] ∧ x.tail ≠ x.head ∧ x.dtail = x.dhead) ∧
    (let x := getQ (queueS 0 0 fun x => { x with dtail := 1, devRun := 8 }) 0
     x.ahead = [] ∧ x.tail ≠ x.head ∧ 8 ≤ x.devRun ∧ x.dtail ≠ x.dhead) ∧
    (let x := getQ (queueS 0 0 fun x => { x with dtail := 1, devRun := 7 }) 0
     x.ahead = [] ∧ x.dtail ≠ x.dhead ∧ x.devRun < 8) := by decide +kernel
/-- The type under which queue 0's head packet from the host ring is taken. -/
def takes (s : State) (ty : Nat) : Bool :=
  match headOf s 0 ty with
  | some (.host, _) => true
  | _ => false
theorem test_packets_meet :
    takes (queueS (pktOf 0 0 0) 0 id) 0 = true ∧ takes (queueS (pktOf 3 0x8000 5) 0 id) 3 = true ∧
    takes (queueS (pktOf 4 0x8000 0) 0 id) 4 = true ∧ takes (queueS (pktOf 9 0 0) 0 id) 5 = true ∧
    pktWord (queueS (pktOf 3 0x8000 5) 0 id) 0 (BitVec.ofNat 512 (pktOf 3 0x8000 5)) true = some (.dev 0x8000) ∧
    (pktWord (queueS (pktOf 4 0x8000 0) 0 id) 0 (BitVec.ofNat 512 (pktOf 4 0x8000 0)) false).isSome = true := by decide +kernel
theorem test_packet_holds_meet :
    (let s := queueS (pktOf 4 0x8000 5) 0 id
     servedType s (BitVec.ofNat 512 (pktOf 4 0x8000 5)) = 4 ∧ waitHolds s 0 (BitVec.ofNat 512 (pktOf 4 0x8000 5)) = false ∧
     (headPkt s 0).isSome = true) ∧
    (let s : State := { queueS 0x100 0 id with comps := [(4, { Comp.none with live := true })] }
     (headPkt s 0).map (fun p => p.2.getLsbD 8) = some true ∧ ∃ c ∈ s.comps, c.2.live = true ∧ c.2.queue = 0) := by decide +kernel
/-- The header that a LAUNCH or LAUNCH_INDIRECT packet names is read and is legal; nothing rejects the launch. -/
theorem test_launch_meets :
    let s := queueS (pktOf 1 0x30000 0) placedHeader id
    takes s 1 = true ∧ readTable s (qCtx (getQ s 0)) (qPart (getQ s 0)) 0x30000 = some placedHeader ∧ ctxServes s 0 = true ∧
    (readTv s (qCtx (getQ s 0)) (qPart (getQ s 0)) placedHeader).isSome = true ∧ headerCause placedHeader = none ∧
    hPipe placedHeader = 0 ∧ feature s 16 = true := by decide +kernel
/-- 19 R336: a mode of rm = 0 is malformed (0x140); 129 rows are out of range (0x142). -/
theorem test_launch_rejected_meets :
    headerCause (placedHeader - BitVec.ofNat 2048 (2 ^ 32)) = some 0x140 ∧
    headerCause (placedHeader + BitVec.ofNat 2048 (97 * 2 ^ 192)) = some 0x142 ∧
    takes (queueS (pktOf 1 0x30000 0) (placedHeader - BitVec.ofNat 2048 (2 ^ 32)) id) 1 = true := by decide +kernel
theorem test_indirect_meets :
    let s := queueS (pktOf 2 0x30000 0 + 7 * 2 ^ 224) placedHeader id
    takes s 2 = true ∧ s.cur = .none ∧ (readRec s 0 placedHeader).isSome = true ∧
    readTable s (qCtx (getQ s 0)) (qPart (getQ s 0)) 0x30000 = some placedHeader := by decide +kernel
theorem test_step_limit_meets :
    let p : Prol := ⟨0, placedHeader, 0, 0, [], 0, 65537, 4⟩
    let s : State := { queueS 0 0 (fun x => { x with prol := some p }) with
      comps := [(4, { Comp.none with live := true, more := true })]
      fibs := [(fibKey (.prol 0), { Fibre.none with st := .ended })] }
    (getQ s 0).prol = some p ∧ 65536 < p.words ∧ s.cur = .none ∧ (getF s (fibKey (.prol 0))).st = .ended ∧
    (getW s (fibKey (.prol 0) / 4)).pend = [] ∧ (getC s p.comp).live = true ∧ (getC s p.comp).cause = 0 := by decide +kernel
theorem test_overflow_meets :
    let s0 := queueS 0 0 id
    let l : Launch := { getL s0 1 with overflow := [(0, 3)] }
    let s : State := { s0 with launches := [(1, l)] }
    ringRoom (getQ s 0) = true ∧ qDlsz (getQ s 0) = 4 ∧
    s.launches.find? (fun p => p.2.live && p.2.overflow.any fun o => o.1 == 0) = some (1, l) ∧ getL s 1 = l ∧
    l.overflow.find? (fun o => o.1 == 0) = some (0, 3) ∧ got (ovfAt s l 3 false) = true := by decide +kernel
/-- Entry 0 of period 1000 ns and phase 0 for queue 0, its packet at 0x40000, at time 2500. -/
def ttS (e : TtEntry) : State := { queueS 0 0 id with tt := [(0, e)], timens := 2500 }
def ttE (w0 : Word64) (last : Option Nat) : TtEntry := ⟨w0, 0, 1000, 0x40000, last, none⟩
theorem test_time_triggered_meets :
    ttDue (ttS (ttE 1 none)) (getTt (ttS (ttE 1 none)) 0) = some 2 ∧ ttRunning (ttS (ttE 1 none)) 0 = false ∧
    (match locatePkt (ttS (ttE 1 none)) 0 (getCtx (ttS (ttE 1 none)) 0).part false (0x40000#64 &&& 0x3FFFFFFFFFFFFF#64) 64 with
      | .ok _ => true
      | .error _ => false) = true ∧
    (let s : State := { ttS (ttE 1 (some 0)) with comps := [(4, { Comp.none with live := true, tt := some 0 })] }
     ttDue s (getTt s 0) = some 2 ∧ ttRunning s 0 = true ∧ (getTt s 0).w0.getLsbD 1 = false ∧ (getTt s 0).last = some 0) := by
  decide +kernel
theorem test_time_entry_meets :
    let s := ttS (ttE 0 none)
    s.stage = 5 ∧ ttValid (getTt s 0) = false ∧ ttRefused s (getTt s 0) 1 = false ∧ ttRefused s (getTt s 0) 0x100 = true ∧
    ttValid (getTt (ttS (ttE 1 none)) 0) = true := by decide +kernel
theorem test_cancellation_meets :
    let s : State := { checkIn idle with comps := [(4, { Comp.none with live := true, launches := [1] })] }
    (getC s 4).live = true ∧ s.cur = .none ∧ (getQ s (getC s 4).queue).prol = none ∧
    (∀ y ∈ s.warps, ∀ k ∈ slotFibres y.1, heldAxes s (getL s y.2.launch).ctx k = []) ∧ owedAcks s 1 = [] := by decide +kernel

/-! Events: scheduling, pre-emption, network, host, reset. -/

theorem test_port_meets :
    let s := fun (b : Nat) => modCl idle 0 fun c => { c with portq := [(3, 0, 0)], buckets := List.replicate 16 b }
    (getCl (s 3) 0).portq = [(3, 0, 0)] ∧ 3 ≤ (getCl (s 3) 0).buckets.getD (getCl (s 3) 0).part 0 ∧
    (getCl (s 2) 0).buckets.getD (getCl (s 2) 0).part 0 < 3 := by decide +kernel
theorem test_refill_meets :
    let s := modPart idle 0 fun x => { x with next := 0x500200 }
    (newShares s |> fun t => (getPart t (getCl s 191).part).en) = true ∧ (getCl s 191).part < (getCl s 191).buckets.length := by decide +kernel
theorem test_throttle_meets : (getCl idle 191).cong < 64 ∧
    64 ≤ (getCl (modCl idle 191 fun c => { c with cong := 64 }) (767 / 4)).cong := by decide +kernel
theorem test_congestion_meets :
    let s : State := { idle with netq := [(16, 3, ⟨0, 2, [16 * 8], .none, 0, 0, 0, 0⟩)] }
    (∀ o, o < 26 → congestion s ((2 + 0 / 32) * 8 + 0 / 4 % 8) o ≤ 2) ∧
    ∃ o, o < 26 ∧ congestion s ((2 + 0 / 32) * 8 + 0 / 4 % 8) o = 2 := by decide +kernel
/-- A pipeline of two stages, the second with both clusters. -/
theorem test_reassign_meets :
    let q : Pipeline := { Pipeline.none with live := true, desc := BitVec.ofNat 2048 2, stages := [1, 2], placed := true }
    let l : Launch := { Launch.none with live := true, hdr := placedHeader, pipe := some 9 }
    let s : State := { launchS with
      pipes := [(9, q)], launches := [(1, l), (2, { l with stage := 1, clusters := [3, 4] })] }
    s.pipes = [(9, q)] ∧ (getL s 1).part = 0 ∧ eligibleLeft s 1 ≠ 0 ∧ eligibleLeft s 2 ≠ 0 ∧ (getL s 1).clusters = [] ∧
    2 ≤ (getL s 2).clusters.length ∧ lowestIdle s 2 = some 3 := by decide +kernel
theorem test_cluster_part_meets :
    (0x15#64).toNat % 16 ≠ (getCl idle 0).part ∧ (0x10#64).toNat % 16 = (getCl idle 0).part ∧
    (let s := modCl launchS 7 fun c => { c with newPart := some 5 }
     (getCl s 7).newPart = some 5 ∧ clusterEmpty s 7 = true) ∧
    clusterEmpty (modCl (checkIn idle) 0 fun c => { c with newPart := some 5 }) 0 = false := by decide +kernel
/-- Stage 5 with partition 0 in a state. -/
def preS (n : Nat) (l : List Ev) : State :=
  modPart { checkIn idle with stage := 5 } 0 fun x => { x with pre := n, arrivals := l }
theorem test_preemption_meets :
    (preS 0 []).stage = 5 ∧ (preS 0 []).cur = .none ∧ partWarps (preS 0 []) 0 = [0] ∧ (getF (preS 0 []) 0).st ≠ .absent ∧
    (getPart (preS 1 []) 0).pre ≠ 0 ∧ (getPart (preS 3 []) 0).pre = 3 ∧ (getPart (preS 4 []) 0).pre = 4 ∧
    (getPart (preS 3 []) 0).arrivals = [] ∧ (getW (preS 3 []) 0).resv ≠ 0 ∧
    (let s := preS 3 [.arrival 1 0 0 1 .none]
     3 ≤ (getPart s 0).pre ∧ (getPart s 0).arrivals = [.arrival 1 0 0 1 .none] ∧ (getWg s (wgKey 1 0)).live = true ∧
     barBad s (wgKey 1 0) 0 = false) ∧
    (∀ y ∈ (preS 0 []).clusters, y.2.portq = [] ∧ ∀ c ∈ y.2.cmds, c.running = true → c.paid = false) ∧
    (getPart (preS 2 []) 0).pre < 3 := by decide +kernel
theorem test_network_meets :
    (79 * 8 + 7) / 64 < 10 ∧ (79 * 8 + 7) / 8 % 8 ≠ 0 % 8 ∧ ((72 * 8) / 8 % 8 = 0 % 8 ∧ (72 * 8) / 64 ≠ 0 / 8) ∧ (16 * 8 + 3) / 8 = 16 ∧
    (let p : NetPkt := ⟨0, 2, [17 * 8], .vec 0, 0, 0, 0, 0⟩
     let s : State := { idle with netq := [(16, 3, p)] }
     s.gated.contains 16 = false ∧ inputHeads s 16 3 = [p] ∧ 17 * 8 ≠ lostBranch ∧
     branchFree s 16 (nextOut 16 (17 * 8)) p = true ∧ outRouter 16 (nextOut 16 (17 * 8)) = some 17) ∧
    (let s : State := { idle with gated := [17] }
     s.gated.contains 17 = true) := by decide +kernel
theorem test_link_meets :
    (let s : State := { idle with retries := [(16 * 64 + 1, 16)] }
     16 ≤ tget 0 s.retries (16 * 64 + 1) ∧ s.linksDown.contains (16 * 64 + 1) = false ∧ s.netq = []) ∧
    (let p : NetPkt := ⟨2, 2, [17 * 8], .vec 0, 0, 0, 0, 0⟩
     let s : State := { idle with retries := [(16 * 64 + 1, 16)], netq := [(16, 3, p)] }
     16 ≤ tget 0 s.retries (16 * 64 + 1) ∧ nextOut ((16 * 64 + 1) / 64) (17 * 8) = (16 * 64 + 1) % 64 ∧
     p.sender = s.cur ∧ 17 * 8 ≠ lostBranch) ∧ tget 0 idle.retries 5 < 16 := by decide +kernel
theorem test_gate_allowed_meets :
    let s : State := { idle with clusters := [], launches := [], wgs := [], warps := [], fibs := [], parts := [(0, { Part.reset with netcfg := 0x10000 })] }
    s.gated.contains 79 = false ∧ onTree s 79 = false ∧ s.netq = [] ∧
    (∀ c, c < 192 → (2 + c / 32) * 8 + c / 4 % 8 = 79 → (getPart s (getCl s c).part).netcfg.getLsbD 16 = true) := by
  decide +kernel
theorem test_peer_meets :
    let s : State := { idle with expwin := 0x2C00 }
    windowAt s 16 8 true false = some 16 ∧ windowAt s 16 8 true true = some 16 ∧ windowAt idle 16 8 true false = none ∧
    s.memBad = [] ∧ s.cacheBad = [] := by decide +kernel
theorem test_host_meets :
    isLichen (.qctl 31) = false ∧ State.reset.stage ≠ 5 ∧
    (let s : State := { State.reset with stage := 5 }
     s.stage = 5 ∧ (getQ s 31).qctl.getLsbD 0 = false ∧ s.attBusy = false ∧ (getCtx s 63).en = false ∧ s.accepted = false ∧
     s.bar2En = false ∧ (0x80#64).getLsbD 7 = true ∧ (0x40#64).getLsbD 6 = true ∧ (0x4#64).getLsbD 2 = true) ∧
    (let s := queueS 0 0 id
     (getQ s 0).qctl.getLsbD 0 = true ∧ s.stage = 5) ∧
    (let s := modCl idle 191 fun c => { c with single := [9] }
     (getCl s 191).single = [9] ∧ (getCl s 191).passes = []) ∧
    (let s : State := { State.reset with bar2En := true, sealMap := [(1, true)] }
     inArea s 0 = false ∧ inArea s (0 + 8 - 1) = false ∧ sealed s 0 = false ∧ sealed s (0 + 8 - 1) = false ∧
     inArea s 4096 = false ∧ inArea s (4096 + 8 - 1) = false ∧ sealed s 4096 = true ∧ s.memBad = [] ∧ s.cacheBad = []) := by decide +kernel
theorem test_context_meets :
    let s : State := { State.reset with
      stage := 5, parts := [(0, { Part.reset with pmem := [BitVec.ofNat 64 (2 ^ 20 + 1023 * 2 ^ 10), 0, 0, 0] })]
      mem := wrBytes (wrBytes [] 0x100000 (descBits flatDesc) 256) 0x100100 (descBits flatDesc) 256 }
    let s1 := modCtx s 0 fun x => { x with hbase := 0x100000, tbase := 0x40000000, tsize := 1 }
    ctxOk s { getCtx s 0 with part := 0 } = false ∧ ctxOk s1 { getCtx s1 0 with part := 0 } = true ∧
    Memory.wf s1.mem = true := by decide +kernel
theorem test_pmem_meets :
    (0x100#64).toNat % 2 ^ 21 / 2 ^ 10 % 2 ^ 10 < (0x100#64).toNat % 2 ^ 21 % 2 ^ 10 ∧
    (2 ^ 20 + 3 * 2 ^ 10 + 2) % 2 ^ 10 ≤ (2 ^ 20 + 3 * 2 ^ 10 + 2) / 2 ^ 10 % 2 ^ 10 ∧
    ((List.range 16).all fun q => (getPart State.reset q).pmem.all fun r => !pmemClash (2 ^ 20 + 3 * 2 ^ 10 + 2) r.toNat) = true ∧
    ((getPart idle 0).pmem.any fun r => pmemClash (2 ^ 20 + 3 * 2 ^ 10 + 2) r.toNat) = true := by decide +kernel
theorem test_attestation_meets : { State.reset with attBusy := true }.attBusy = true ∧ State.reset.attBusy = false := by decide
theorem test_record_meets :
    let s : State := { State.reset with errctl := 0x4, errbase := 0x1000 }
    ((s.errtail - errHead s).toNat < errSize s) ∧
    errSize { s with errtail := BitVec.ofNat 32 (errSize s) } ≤
      (({ s with errtail := BitVec.ofNat 32 (errSize s) } : State).errtail - errHead s).toNat := by decide +kernel
theorem test_power_meets :
    (let s : State := { State.reset with power := false }
     s.power = false ∧ s.evq.find? isPower = none) ∧
    (let s : State := { State.reset with power := false, evq := [.env (.powerGood 0)] }
     s.evq.find? isPower = some (.env (.powerGood 0))) ∧ State.reset.hot.contains 3 = false := by decide +kernel
theorem test_reset_memories : MemoriesWf State.reset ∧ MemoriesWf idle := by unfold MemoriesWf; decide +kernel
theorem test_step_answers :
    (match step idle with
      | .next _ => true
      | .fault _ => false
      | .refused _ => false) = true := by decide +kernel
/-! Premises of clauses on waits, losses and saves. -/

/-- A unit of 4 bytes of device memory by the fibre of a slot. -/
def mu (slot po addr : Nat) (rd wr : Bool) (o : MOrd) (old val : Nat) : MUnit :=
  { ag := 4 * slot, wg := 1, cl := 0, seq := po, po := po, cls := .m, addr := addr, size := 4, rd := rd, wr := wr, fence := false
    val := val, old := old, ord := o, scope := .dv, lane := 0, off := 0, sx := false, via := .m }
/-- A fence of that fibre. -/
def muFence (slot po : Nat) (o : MOrd) : MUnit := { mu slot po 0 false false o 0 0 with fence := true, cls := .sync }
theorem test_release_words_meet :
    tbWaits memG (curKey memG) = false ∧ got (regsInOrder memG [(0, .dev 4096)]) = true ∧ got (regsInOrder memG []) = true := by
  decide +kernel
/-- A store to a peer in flight; a load that is over has returned what it wrote. -/
theorem test_settled_failure_meets :
    let st : MUnit := { mu 0 0 64 false true .weak 0 5 with cls := .e 1 }
    let ld : MUnit := { mu 1 0 64 true false .weak 0 5 with cls := .e 1 }
    let s : State := { pendG .store with hist := [ld, st] }
    failedAccess s 1 = some 0 ∧ s.w.pend[0]?.map (·.seq) = some 0 ∧ readsSettled s (peerUnit s 0 1) = true ∧
    readsSettled { s with hist := [st] } (peerUnit s 0 1) = false := by decide +kernel
theorem test_released_open_meets :
    let s : State := { idle with stage := 5, f := { idle.f with st := .waiting [.held 0x1E8 none], trapped := true } }
    s.stage = 5 ∧ heldAgent s 0 = some s.cur ∧ ({ s with stage := 4 } : State).stage ≠ 5 := by decide +kernel
theorem test_sealing_meets :
    let s := pendG (.seal [2])
    sealWaits s [2] = false ∧ heldByWait s (curKey s) 0 = false ∧
    (let t : State := { s with
       w := { s.w with pend := s.w.pend ++ [{ loadInFlight with kind := .store, seq := 3 }] }
       hist := [{ mu 0 0 8192 false true .weak 0 5 with seq := 3 }] }
     sealWaits t [2] = true) ∧
    castDown s = false ∧ castDown { s with linksDown := (List.range 5120) } = true ∧ fbarSet s.f = none ∧
    heldByWait (pendG (.unseal [2])) 0 0 = false ∧ heldByWait (pendG (.cacheOp [2])) 0 0 = false := by decide +kernel
theorem test_saved_message_meets :
    let m : XMsg := ⟨1, 1, 0, 0, 0, 0, zeroRow⟩
    let s := modWg (modCl idle 0 fun c => { c with xbuf := [m] }) (wgKey 1 0) fun w => { w with saved := true }
    (getWg s (wgKey 1 0)).saved = true ∧ (getWg s (wgKey 1 0)).live = true ∧ (getWg s (wgKey 1 0)).cluster = 0 ∧
    warpKeyOf s (getWg s (wgKey 1 0)) 0 = some 0 ∧ arrivalRoom s 1 = true ∧ (getCl s 0).xbuf = [m] ∧
    (∀ x ∈ s.clusters, x.2.xbuf = if x.1 = 0 then [m] else []) := by decide +kernel
/-- A fibre that waits in an exchange, with the image of its group. -/
def imageG : State :=
  { idle with
    f := { idle.f with st := .waiting [.xshuf 0 0 .q] }
    w := { idle.w with images := [⟨0, idle.f, idle.w.rows, [], [], [], [], [(5, 1)]⟩] } }
theorem test_image_meets :
    (imageOf imageG.w (fidOf imageG)).map (fun im => (im.f.trapped, im.pend)) = some (false, []) ∧ xshufMatch imageG = none ∧
    xshufOf imageG.f = some (0, 0, .q) ∧ partnerSaved imageG 0 = false ∧ 5 < imageG.w.rows.length ∧ imageOf idle.w 0 = none := by
  decide +kernel
theorem test_lost_result_meets :
    let r : Redn := ⟨1, 0, false, 2, .addS32, [(0, 0, 5), (256 * 4, 4, 7)]⟩
    resultLost idle r (0, 0, 5) = false ∧ resultLost { idle with linksDown := List.range 5120 } r (256 * 4, 4, 7) = true ∧
    (getWg idle (wgKey (getW idle 0).launch (getW idle 0).g)).saved = false ∧ (r.con.map Prod.fst).Nodup := by decide +kernel
theorem test_start_behind_go_meets :
    (∃ p ∈ goPend.w.pend, p.fib = fidOf goPend ∧ ∃ x, p.kind = .go x) ∧ cntOf goPend.f 1 < 255 ∧
    fenceHolds goPend true = false ∧ (∀ p ∈ idle.w.pend, p.fib ≠ fidOf idle) := by
  refine ⟨⟨_, List.mem_singleton.2 rfl, rfl, _, rfl⟩, ?_, ?_, ?_⟩ <;> decide +kernel
/-- Tasks 0 and 1 of an expert without work: 0 has retired, 1 has not. -/
theorem test_skipped_meets :
    let s := apS (some ⟨0, [0], []⟩)
    let l := getL s 1
    (∀ x ∈ s.launches, x.1 ≤ 1 → placePipe s x.1 = s) ∧ skippable s 1 = some 0 ∧ nextWg l.hdr l.nextG = some 0 ∧ l.skipped = [] ∧
    (let t : State := { s with launches := [(1, { l with skipped := [0], hdr := l.hdr + BitVec.ofNat 2048 (2 ^ 71 + 2 ^ 133) })] }
     (skippable t 1).isSome = true ∧ skippable t 1 ≠ nextWg (getL t 1).hdr (getL t 1).nextG) := by
  decide +kernel
theorem test_evicted_rows_meet :
    strmOut growS 0 = false ∧ (∀ r ∈ (getW growS 0).rows, r.length = 32) ∧ slotRuns growS 0 = true ∧ evictable growS 0 = true ∧
    (let s := checkIn (pendG (.strm 1 1))
     strmOut s 0 = true) ∧
    evictable (checkIn idle) 0 = false := by decide +kernel
theorem test_join_stage_meets :
    let q : Pipeline := { Pipeline.none with live := true, stages := [1, 2] }
    let l : Launch := { Launch.none with live := true, part := 5, pipe := some 9 }
    let s : State := modCl { launchS with pipes := [(9, q)], launches := [(1, { l with clusters := [3] }), (2, l)] } 7 fun c =>
      { c with newPart := some 5 }
    let u : State := { s with launches := s.launches.map fun l =>
      (l.1, { l.2 with clusters := l.2.clusters.filter fun c => c != 7 }) }
    s.pipes = [(9, q)] ∧ (getL s 1).part = 5 ∧ leastStage u q.stages = some 2 ∧ clusterEmpty s 7 = true ∧
    (∀ x ∈ launchS.pipes, x.2.live = false) := by decide +kernel
/-- One save in shadow storage, of a partition with memory. -/
theorem test_save_areas_meet :
    let y : Cluster := { Cluster.reset with saves := [⟨false, wgKey 1 0, 64, 0, 0, 0⟩] }
    let s : State := { preS 3 [] with clusters := [(0, y)] }
    s.clusters = [(0, y)] ∧ y.saves.map (·.slot) = [false] ∧ (getL s (wgKey 1 0 / 2 ^ 64)).part = 0 ∧ partTop (getPart s 0) ≠ 0 ∧
    (getPart (preS 5 []) 0).pre = 5 ∧ (preS 5 []).cur = .none ∧ tget 0 (preS 3 []).outst (outKey 1152 1) ≤ 65535 ∧
    warpKeyOf (preS 3 []) (getWg (preS 3 []) (wgKey 1 0)) 0 = some 0 ∧ (getF (preS 3 []) 0).exLost ≠ some (1, 0) := by decide +kernel
theorem test_saved_stream_meets :
    let s := modPart { checkIn (machine 0x3C000000) with stage := 5 } 0 fun x => { x with pre := 0 }
    12288 ∈ partWarps s 0 ∧ (getF s (4 * 12288)).st ≠ .absent ∧
    (∀ y ∈ s.clusters, y.2.portq = [] ∧ ∀ c ∈ y.2.cmds, c.running = true → c.paid = false) := by decide +kernel
theorem test_injection_meets :
    let p : NetPkt := ⟨0, 64 * 250, [17 * 8], .vec 0, 0, 0, 0, 0⟩
    (∀ x ∈ idle.netq, isLost x = false) ∧ (∀ o ∈ pktOuts 16 { p with payload := 64 }, outRoom idle 16 o { p with payload := 64 } = true) ∧
    ∃ o ∈ pktOuts 16 p, outRoom idle 16 o p = false := by decide +kernel
theorem test_manifest_meets :
    manifestStands { State.reset with stage := 5 } = true ∧ manifestStands State.reset = false ∧
    manifestStands { State.reset with stage := 7, fcode := 5 } = false ∧ manifestStands { State.reset with stage := 7, fcode := 6 } = true ∧
    bootEnd true State.reset = 0 ∧ bootEnd true { State.reset with bootEnds := [3] } = 3 ∧ bootEnd false { State.reset with bootEnds := [3] } = 0 ∧
    bootEnd false { State.reset with bootEnds := [7] } = 7 := by
  decide +kernel
theorem test_lanes_of_prologues_meet :
    let p : Prol := ⟨0, placedHeader, 0, 0, [], 0, 65537, 4⟩
    (prolLanes (queueS 0 0 fun x => { x with prol := some p })).any (· < 0) = false := by decide +kernel
theorem test_pending_slot_meets :
    let s : State := { ttS (ttE 0x83 (some 0)) with comps := [(4, { Comp.none with live := true, tt := some 0 })] }
    ttDue s (getTt s 0) = some 2 ∧ ttFirst (getTt s 0) = 1 ∧ ttRunning s 0 = true ∧ ttPend (getTt s 0) = true ∧
    ttValid (getTt s 0) = true ∧ ttRefused s (getTt s 0) 1 = false := by decide +kernel

/-- A cluster's route to the fold, to another cluster and to code in a memory slice, up and down. -/
theorem test_route_down_meets :
    let far : State := { memG with cur := .vec 1024 }
    let cut : State := { far with linksDown := List.range 5120 }
    linkLost far (agentPort far.cur) (foldPort far far.w.launch) = false ∧
    linkLost cut (agentPort cut.cur) (foldPort cut cut.w.launch) = true ∧
    on cut (.nred px 2 3 .addS32) = true ∧ on far (.nbar px 3) = true ∧ tbWaits cut (curKey cut) = false ∧
    arrivalsOf (rW cut) (fidOf cut) = false ∧
    linkLost cut (clusterPort 4) (clusterPort 0) = true ∧ linkLost far (clusterPort 4) (clusterPort 0) = false ∧
    linkLost cut (clusterPort 0) (clusterPort 0) = false := by decide +kernel
theorem test_fetch_down_meets :
    let cut : State := { idle with linksDown := List.range 5120 }
    (match codePlace idle (whoCur idle) idle.f.sp.pos.pkt with
     | .ok (some pa) => !routeDown idle (.dev pa) && routeDown cut (.dev pa)
     | _ => false) = true ∧ idle.f.sp.buf = none ∧
    ([2].any fun g => routeDown cut (.dev (4096 * g))) = true ∧ ([2].any fun g => routeDown idle (.dev (4096 * g))) = false := by
  decide +kernel

/-! The memory consistency model (15). -/

/-- 15 Table 15.7: each of two fibres stores to one word and then loads the other's; both loads return 0. The rules permit it,
but for `fence.strong` between each store and load. -/
theorem test_store_buffering :
    permitted [mu 1 1 64 false true .weak 0 1, mu 0 3 64 true false .weak 0 0, mu 0 2 0 false true .weak 0 1, mu 1 4 0 true false .weak 0 0] =
      true ∧
    permitted [mu 1 1 64 false true .strong 0 1, muFence 1 2 .strong, mu 0 5 64 true false .strong 0 0, muFence 0 4 .strong,
      mu 0 3 0 false true .strong 0 1, mu 1 6 0 true false .strong 0 0] = false := by decide +kernel
/-- 15 Table 15.6: data stored, then a flag; the flag is seen and the data are not. Permitted of weak accesses, forbidden where
the flag is stored with `.rel` and loaded with `.acq`. -/
theorem test_message_passing :
    permitted [mu 1 2 64 true false .weak 0 0, mu 0 1 64 false true .weak 0 1, mu 0 0 0 false true .weak 0 1, mu 1 3 0 true false .weak 0 0] =
      true ∧
    permitted [mu 1 2 64 true false .acq 0 0, mu 0 1 64 false true .rel 0 1, mu 0 0 0 false true .weak 0 1, mu 1 3 0 true false .weak 0 0] =
      false := by decide +kernel
/-- A load in flight of fibre 0 that read 5, which slot 1's fibre stored over 0; nobody's records are out. -/
def readS : State :=
  checkIn { idle with
    mem := wrBytes idle.mem 4096 5 4
    w := { idle.w with pend := [⟨0, 1, .load, false, [(5, 1)], 1, [List.replicate 32 5#32], 0, [], false, false, none, 0, 0, 0⟩] }
    hist := [mu 0 1 4096 true false .weak 0 0, mu 1 0 4096 false true .weak 0 5] }
/-- 15 R267, R276: the memory system may let it take place before the store: it then returns 0, memory stays. -/
theorem test_load_moved :
    ((getW (memoryDoes readS (.move 0 1)) 0).pend.map fun p => lane (p.data.getD 0 zeroRow) 0) = [0] ∧
    rdBytes (memoryDoes readS (.move 0 1)).mem 4096 4 = 5 := by decide +kernel

end Sys2Proof.Tests
end

section
/-! Placing a warp: what its slot and its fibres hold afterwards (02 R25, 06 R98, R105). -/

namespace Sys2Proof.Machine

/-! A fibre's and a warp's record read back. The tables need not be in canonical form. -/

/-- An entry that is there stays when a higher key is set, even to the default. -/
theorem tget_tset_of_lt {α : Type} [DecidableEq α] {d : α} {j k : Nat} (v : α) (hjk : j < k) (t : Tab α)
    (hj : tget d t j ≠ d) : tget d (tset d t k v) j = tget d t j := by
  induction t with
  | nil => exact absurd rfl hj
  | cons p r ih =>
    obtain ⟨a, w⟩ := p
    rcases Nat.lt_trichotomy j a with hja | rfl | haj
    · exact absurd (by simp [tget, hja, Nat.ne_of_lt hja]) hj
    · simp [tset, tget, Nat.not_lt.2 (Nat.le_of_lt hjk), Nat.ne_of_gt hjk]
    · have tail (x : α) (q : Tab α) : tget d ((a, x) :: q) j = tget d q j := by
        simp [tget, Nat.ne_of_gt haj, Nat.not_lt.2 (Nat.le_of_lt haj)]
      rw [tail] at hj ⊢
      rcases Nat.lt_trichotomy k a with hka | rfl | hak
      · omega
      · omega
      · simp only [tset, Nat.not_lt.2 (Nat.le_of_lt hak), Nat.ne_of_gt hak, if_false, tail, ih hj]

theorem getF_setF_self (s : State) (k : Nat) {x : Fibre} (hx : x ≠ Fibre.none) : getF (setF s k x) k = x := by
  by_cases hk : k = fibKey s.cur
  · subst hk
    simp [getF]
  · rw [setF_other s hk, getF, if_neg hk]
    exact tget_tset_self_of_ne _ _ hx

theorem getF_setF_of_lt {s : State} {j k : Nat} (x : Fibre) (hjk : j < k) (hj : getF s j ≠ Fibre.none) :
    getF (setF s k x) j = getF s j := by
  by_cases hk : k = fibKey s.cur
  · have hjc : j ≠ fibKey s.cur := hk ▸ Nat.ne_of_lt hjk
    simp [hk, getF, hjc]
  · rw [setF_other s hk]
    by_cases hjc : j = fibKey s.cur
    · simp [getF, hjc]
    · simp only [getF, if_neg hjc] at hj ⊢
      exact tget_tset_of_lt x hjk _ hj

theorem getW_setW_self (s : State) (k : Nat) {x : Warp} (hx : x ≠ Warp.none) : getW (setW s k x) k = x := by
  by_cases hk : k = fibKey s.cur / 4
  · subst hk
    simp [getW]
  · rw [setW_other s hk, getW, if_neg hk]
    exact tget_tset_self_of_ne _ _ hx

@[simp] theorem getW_setF (s : State) (k j : Nat) (x : Fibre) : getW (setF s k x) j = getW s j := by
  simp [getW]
@[simp] theorem getW_modCore (s : State) (c j : Nat) (u : Core → Core) : getW (modCore s c u) j = getW s j := rfl
@[simp] theorem getW_dropFbuf (s : State) (c j : Nat) (ks : List Nat) : getW (dropFbuf s c ks) j = getW s j := rfl
@[simp] theorem getW_modWg (s : State) (k j : Nat) (u : Wg → Wg) : getW (modWg s k u) j = getW s j := rfl
@[simp] theorem getF_modWg (s : State) (k j : Nat) (u : Wg → Wg) : getF (modWg s k u) j = getF s j := rfl

/-! The fibres of a slot set one after another, in rising order. -/

/-- The fibres `fs` of slot i set to the records `r`. -/
def setFibres (s : State) (i : Nat) (r : Nat → Fibre) (fs : List Nat) : State :=
  fs.foldl (fun t f => setF t (4 * i + f) (r f)) s

theorem setFibres_cons (s : State) (i : Nat) (r : Nat → Fibre) (f : Nat) (fs : List Nat) :
    setFibres s i r (f :: fs) = setFibres (setF s (4 * i + f) (r f)) i r fs := rfl

@[simp] theorem getW_setFibres (s : State) (i : Nat) (r : Nat → Fibre) (fs : List Nat) (j : Nat) :
    getW (setFibres s i r fs) j = getW s j := by
  induction fs generalizing s with
  | nil => rfl
  | cons f fs ih => rw [setFibres_cons, ih, getW_setF]

/-- Setting later fibres leaves one that is there. -/
theorem getF_setFibres_of_lt {s : State} {i f : Nat} (r : Nat → Fibre) {fs : List Nat} (hlt : ∀ e ∈ fs, f < e)
    (hf : getF s (4 * i + f) ≠ Fibre.none) : getF (setFibres s i r fs) (4 * i + f) = getF s (4 * i + f) := by
  induction fs generalizing s with
  | nil => rfl
  | cons e fs ih =>
    obtain ⟨he, hfs⟩ := List.forall_mem_cons.1 hlt
    have hstep : getF (setF s (4 * i + e) (r e)) (4 * i + f) = getF s (4 * i + f) :=
      getF_setF_of_lt (r e) (by omega) hf
    rw [setFibres_cons, ih hfs (hstep ▸ hf), hstep]

theorem getF_setFibres_self (s : State) (i : Nat) {r : Nat → Fibre} {fs : List Nat} (hfs : fs.Pairwise (· < ·)) {f : Nat}
    (hmem : f ∈ fs) (hf : r f ≠ Fibre.none) : getF (setFibres s i r fs) (4 * i + f) = r f := by
  induction fs generalizing s with
  | nil => exact absurd hmem List.not_mem_nil
  | cons e fs ih =>
    obtain ⟨hlt, hpw⟩ := List.pairwise_cons.1 hfs
    rw [setFibres_cons]
    rcases List.mem_cons.1 hmem with rfl | hmem
    · have hset : getF (setF s (4 * i + f) (r f)) (4 * i + f) = r f := getF_setF_self s _ hf
      rw [getF_setFibres_of_lt r hlt (hset.symm ▸ hf), hset]
    · exact ih _ hpw hmem

/-! The records of a new fibre and a new warp. -/

theorem newFibre_st {h : BitVec 2048} {f : Nat} (hf : f < hNfib h) (g : Nat) (m : LaneSet) :
    (newFibre h g f m).st = .ready := by
  simp [newFibre, Nat.not_le.2 hf]

/-- 06 R105. -/
theorem newFibre_k {h : BitVec 2048} {f : Nat} (hf : f < hNfib h) (g : Nat) (m : LaneSet) :
    (newFibre h g f m).k = (List.range 14).map (hPar h) ++ [BitVec.ofNat 32 g, 0] := by
  simp [newFibre, Nat.not_le.2 hf]

theorem newFibre_ne_none {h : BitVec 2048} {f : Nat} (hf : f < hNfib h) (g : Nat) (m : LaneSet) :
    newFibre h g f m ≠ Fibre.none := fun he =>
  absurd ((newFibre_st hf g m).symm.trans (congrArg Fibre.st he)) (by decide)

/-- The record of warp k of workgroup g placed on a core at rows b. -/
def startWarp (s : State) (launch g core k b : Nat) : Warp :=
  let h := (getL s launch).hdr
  { Warp.none with
    live := true, fresh := true, launch := launch, g := g, idx := k, nfib := hNfib h
    rows := startRows (hRegs h) (widsOf h g k), base := b, resv := roundUp8 (hRegs h), order := (getCore s core).nextOrder
    wid := widsOf h g k }

theorem startWarp_ne_none (s : State) (launch g core k b : Nat) : startWarp s launch g core k b ≠ Warp.none := fun he =>
  absurd (congrArg Warp.live he) Bool.noConfusion

/-! Placement. -/

/-- Slot i of a cluster taken by warp k of workgroup g, its fibres not yet set. -/
def occupySlot (s : State) (launch g cl k i b : Nat) : State :=
  let core := cl * 4 + k % 4
  dropFbuf
    (modCore (setW (takeOut s core launch) i (startWarp s launch g core k b)) core fun c =>
      { c with nextOrder := c.nextOrder + 1 })
    cl [4 * i, 4 * i + 1, 4 * i + 2, 4 * i + 3]

/-- Warp k of workgroup g placed in slot i at rows b. -/
def placedAt (s : State) (launch g cl k i b : Nat) : State :=
  let h := (getL s launch).hdr
  modWg (setFibres (occupySlot s launch g cl k i b) i (fun f => newFibre h g f (warpLanes h g k)) [0, 1, 2, 3])
    (wgKey launch g) fun x => { x with warps := x.warps ++ [i] }

/-- What a placement has found, and the state it leaves. -/
theorem placeWarp_eq_some {s t : State} {launch g cl k : Nat} (h : placeWarp s launch g cl k = some t) :
    let core := cl * 4 + k % 4
    ∃ i b, (coreSlots core).find? (fun i => !(getW s i).live) = some i ∧
      fitRun (coreRuns s core 100000) (roundUp8 (hRegs (getL s launch).hdr)) = some b ∧
      coreHeld s core = false ∧ outFits s core launch = true ∧ t = placedAt s launch g cl k i b := by
  simp only [placeWarp] at h
  split at h
  next i b hi hb =>
    split at h
    next => cases h
    next hroom =>
      simp only [Bool.or_eq_true, Bool.not_eq_true', not_or, Bool.not_eq_true, Bool.not_eq_false] at hroom
      obtain ⟨hheld, hout⟩ := hroom
      exact ⟨i, b, hi, hb, hheld, hout, (Option.some.inj h).symm⟩
  next => cases h

theorem getW_placedAt (s : State) (launch g cl k i b : Nat) :
    getW (placedAt s launch g cl k i b) i = startWarp s launch g (cl * 4 + k % 4) k b := by
  simp only [placedAt, occupySlot, getW_modWg, getW_setFibres, getW_dropFbuf, getW_modCore]
  exact getW_setW_self _ _ (startWarp_ne_none s launch g _ k b)

theorem getF_placedAt (s : State) (launch g cl k i b : Nat) {f : Nat} (hf4 : f < 4)
    (hf : f < hNfib (getL s launch).hdr) :
    getF (placedAt s launch g cl k i b) (4 * i + f) =
      newFibre (getL s launch).hdr g f (warpLanes (getL s launch).hdr g k) := by
  have hmem : f ∈ [0, 1, 2, 3] := List.mem_range.2 hf4
  exact getF_setFibres_self _ i (by decide) hmem (newFibre_ne_none hf g _)

/-- Settles O51: the warp takes the free slot that the placement found, and each of its fibres is a new fibre. -/
theorem fibreStart : Obligations.FibreStart := by
  intro s t launch g cl k f _ _ hplace hf4 hf
  obtain ⟨i, b, hslot, -, -, -, rfl⟩ := placeWarp_eq_some hplace
  refine ⟨i, List.mem_of_find?_eq_some hslot, ?_⟩
  rw [getW_placedAt, getF_placedAt s launch g cl k i b hf4 hf, newFibre_k hf]
  refine ⟨rfl, rfl, rfl, fun j hj => ?_, rfl, rfl, rfl⟩
  rw [List.getElem?_append_left (by simpa using hj), List.getElem?_map, List.getElem?_range hj, Option.map_some]

end Sys2Proof.Machine
end

section
/-! Folds and rankings over lanes (09 R159 to R162). -/

namespace Sys2Proof.Machine

/-! Lane sets and rows read back. -/

theorem inSet_setOf (p : Nat → Bool) {l : Nat} (hl : l < 32) : inSet (setOf p) l = p l := by
  have upTo (n : Nat) : inSet ((List.range n).foldl (fun acc j => if p j then acc ||| (1#32 <<< j) else acc) 0#32) l =
      (decide (l < n) && p l) := by
    induction n with
    | zero => simp [inSet]
    | succ n ih =>
      have bit : (1#32 <<< n).getLsbD l = decide (l = n) := by
        rw [← BitVec.twoPow_eq, BitVec.getLsbD_twoPow]
        grind
      rw [List.range_succ, List.foldl_append, List.foldl_cons, List.foldl_nil]
      unfold inSet at ih ⊢
      split
      next hp => rw [BitVec.getLsbD_or, ih, bit]; grind
      next hp => rw [ih]; grind
  rw [setOf, upTo 32, decide_eq_true hl, Bool.true_and]

theorem setOf_congr {p q : Nat → Bool} (h : ∀ l, l < 32 → p l = q l) : setOf p = setOf q :=
  BitVec.eq_of_getLsbD_eq fun l hl => (inSet_setOf p hl).trans ((h l hl).trans (inSet_setOf q hl).symm)

theorem mem_lanesOf {s : LaneSet} {l : Nat} : l ∈ lanesOf s ↔ l < 32 ∧ inSet s l = true := by
  simp [lanesOf]

theorem pairwise_lanesOf (s : LaneSet) : (lanesOf s).Pairwise (· < ·) :=
  List.pairwise_lt_range.filter _

/-- In a rising list a member stands behind the smaller ones. -/
theorem getElem?_length_filter_lt {js : List Nat} (h : js.Pairwise (· < ·)) {l : Nat} (hl : l ∈ js) :
    js[(js.filter fun j => decide (j < l)).length]? = some l := by
  obtain ⟨s, t, rfl⟩ := List.append_of_mem hl
  obtain ⟨-, ht, hs⟩ := List.pairwise_append.1 h
  have below : s.filter (fun j => decide (j < l)) = s :=
    List.filter_eq_self.2 fun j hj => decide_eq_true (hs j hj l List.mem_cons_self)
  have above : (l :: t).filter (fun j => decide (j < l)) = [] :=
    List.filter_eq_nil_iff.2 fun j hj => by
      rw [decide_eq_true_eq, Nat.not_lt]
      rcases List.mem_cons.1 hj with rfl | hj
      · exact Nat.le_refl j
      · exact Nat.le_of_lt (List.rel_of_pairwise_cons ht hj)
  rw [List.filter_append, below, above, List.append_nil, List.getElem?_append_right (Nat.le_refl _), Nat.sub_self]
  rfl

theorem find?_beq_of_mem {k : Nat} {js : List Nat} (h : k ∈ js) : js.find? (· == k) = some k := by
  cases hf : js.find? (· == k) with
  | none => exact absurd (beq_self_eq_true k) (List.find?_eq_none.1 hf k h)
  | some j => simpa using List.find?_some hf

theorem lane_rowGen (f : Nat → Word) {l : Nat} (hl : l < 32) : lane (rowGen f) l = f l := by
  simp [lane, rowGen, hl]

theorem lowestLane_eq_iff {s : LaneSet} {l : Nat} (hl : l < 32) (hs : inSet s l = true) :
    l = lowestLane s ↔ ∀ j, j < l → inSet s j = false := by
  constructor
  · intro h
    cases hf : (List.range 32).find? (inSet s) with
    | none => exact absurd hs (List.find?_eq_none.1 hf l (List.mem_range.2 hl))
    | some i =>
      obtain rfl : l = i := by rw [h, lowestLane, hf, Option.getD_some]
      simpa using (List.find?_range_eq_some.1 hf).2.2
  · intro h
    have : (List.range 32).find? (inSet s) = some l := by
      rw [List.find?_range_eq_some]
      exact ⟨hs, List.mem_range.2 hl, by simpa using h⟩
    simp [lowestLane, this]

/-! Segments (R159). -/

/-- Lane l is active and begins a segment: set in the mask, or the lowest active lane. -/
def opensSegment (act m : LaneSet) (l : Nat) : Bool :=
  act.getLsbD l && (m.getLsbD l || (List.range l).all fun j => !act.getLsbD j)

theorem inSet_segHeads (act m : LaneSet) {l : Nat} (hl : l < 32) :
    inSet (segHeads act m) l = opensSegment act m l := by
  rw [segHeads, inSet_setOf _ hl, opensSegment]
  cases ha : inSet act l with
  | false => rw [inSet] at ha; simp [ha]
  | true =>
    have hlow : (l == lowestLane act) = (List.range l).all fun j => !act.getLsbD j := by
      rw [Bool.eq_iff_iff, beq_iff_eq, lowestLane_eq_iff hl ha]
      simp [inSet]
    rw [hlow, ← inSet, ha]
    rfl

theorem segBegin_succ (act m : LaneSet) (l : Nat) :
    segBegin act m (l + 1) = if opensSegment act m (l + 1) then l + 1 else segBegin act m l := rfl

theorem segBegin_of_opens {act m : LaneSet} {l : Nat} (h : opensSegment act m l = true) : segBegin act m l = l := by
  cases l with
  | zero => rfl
  | succ l => rw [segBegin_succ, if_pos h]

theorem segBegin_le (act m : LaneSet) (l : Nat) : segBegin act m l ≤ l := by
  induction l with
  | zero => exact Nat.le_refl 0
  | succ l ih => rw [segBegin_succ]; split <;> omega

theorem exists_lower_of_not_opens {act m : LaneSet} {l : Nat} (ha : act.getLsbD l = true)
    (h : opensSegment act m l = false) : ∃ j, j < l ∧ act.getLsbD j = true := by
  rw [opensSegment, ha, Bool.true_and, Bool.or_eq_false_iff] at h
  simpa using h.2

/-- From the lowest active lane on, the lane found does begin a segment. -/
theorem opensSegment_segBegin {act : LaneSet} (m : LaneSet) {l : Nat} (h : ∃ j, j ≤ l ∧ act.getLsbD j = true) :
    opensSegment act m (segBegin act m l) = true := by
  induction l with
  | zero =>
    obtain ⟨j, hj, ha⟩ := h
    obtain rfl : j = 0 := by omega
    simp [segBegin, opensSegment, ha]
  | succ l ih =>
    cases hopen : opensSegment act m (l + 1) with
    | true => rw [segBegin_of_opens hopen, hopen]
    | false =>
      rw [segBegin_succ, hopen]
      refine ih ?_
      cases ha : act.getLsbD (l + 1) with
      | true => simpa [Nat.lt_succ_iff] using exists_lower_of_not_opens ha hopen
      | false =>
        obtain ⟨j, hj, haj⟩ := h
        exact ⟨j, Nat.le_of_lt_succ (Nat.lt_of_le_of_ne hj fun he => by simp [he, ha] at haj), haj⟩

theorem segHeadOf_segHeads (act m : LaneSet) {l : Nat} (hl : l < 32) :
    segHeadOf act (segHeads act m) l = segBegin act m l := by
  have heads {j : Nat} (hj : j < 32) : (inSet act j && inSet (segHeads act m) j) = opensSegment act m j := by
    rw [inSet_segHeads act m hj, inSet, opensSegment, ← Bool.and_assoc, Bool.and_self]
  induction l with
  | zero => cases h : (inSet act 0 && inSet (segHeads act m) 0) <;> simp [segHeadOf, segBegin, h]
  | succ l ih =>
    rw [segBegin_succ, ← ih (by omega), segHeadOf, List.range_succ, List.filter_append, List.getLast?_append,
      List.filter_cons, List.filter_nil, heads hl]
    cases opensSegment act m (l + 1)
    · rfl
    · rfl

/-! The scan (R160). -/

/-- The lanes of lane l's segment up to l. -/
def segUpTo (act m : LaneSet) (l : Nat) : List Nat :=
  (List.range (l + 1)).filter fun j => act.getLsbD j && decide (segBegin act m l ≤ j)

theorem segUpTo_of_opens {act m : LaneSet} {l : Nat} (h : opensSegment act m l = true) : segUpTo act m l = [l] := by
  have ha : act.getLsbD l = true := (Bool.and_eq_true_iff.1 h).1
  have below : (List.range l).filter (fun j => act.getLsbD j && decide (l ≤ j)) = [] := by
    rw [List.filter_eq_nil_iff]
    intro j hj
    simp [List.mem_range.1 hj]
  rw [segUpTo, segBegin_of_opens h, List.range_succ, List.filter_append, below]
  simp [ha]

theorem segUpTo_succ_of_not_opens {act m : LaneSet} {l : Nat} (h : opensSegment act m (l + 1) = false) :
    segUpTo act m (l + 1) = segUpTo act m l ++ if act.getLsbD (l + 1) then [l + 1] else [] := by
  have hle : segBegin act m l ≤ l + 1 := Nat.le_succ_of_le (segBegin_le act m l)
  rw [segUpTo, List.range_succ, List.filter_append, segBegin_succ, h, List.filter_cons, List.filter_nil, segUpTo]
  simp only [Bool.false_eq_true, if_false, hle, decide_true, Bool.and_true]

theorem segUpTo_ne_nil {act : LaneSet} (m : LaneSet) {l : Nat} (h : ∃ j, j ≤ l ∧ act.getLsbD j = true) :
    segUpTo act m l ≠ [] := by
  have ha : act.getLsbD (segBegin act m l) = true := (Bool.and_eq_true_iff.1 (opensSegment_segBegin m h)).1
  refine List.ne_nil_of_mem (a := segBegin act m l) ?_
  simp [segUpTo, ha, Nat.lt_succ_of_le (segBegin_le act m l)]

section
variable (o : RedOp) (md : RMode) (fi fo : Bool) (act live m heads : LaneSet) (a : Row)

/-- The elements of a list of lanes folded from the left. -/
def foldLanes : List Nat → Word
  | [] => 0#32
  | j :: r => r.foldl (fun t k => (o.combine md fo t (o.read fi (lane a k))).1) (o.read fi (lane a j))

theorem foldLanes_concat {js : List Nat} (h : js ≠ []) (l : Nat) :
    foldLanes o md fi fo a (js ++ [l]) = (o.combine md fo (foldLanes o md fi fo a js) (o.read fi (lane a l))).1 := by
  cases js with
  | nil => exact absurd rfl h
  | cons j r => exact List.foldl_append ..

theorem scanAt_eq (l : Nat) : scanAt o md fi fo act m a l = foldLanes o md fi fo a (segUpTo act m l) := rfl

variable {act m} in
theorem scanAt_of_opens {l : Nat} (h : opensSegment act m l = true) :
    scanAt o md fi fo act m a l = o.read fi (lane a l) := by
  rw [scanAt_eq, segUpTo_of_opens h]
  rfl

variable {act m} in
theorem scanAt_succ_of_inactive {l : Nat} (h : act.getLsbD (l + 1) = false) :
    scanAt o md fi fo act m a (l + 1) = scanAt o md fi fo act m a l := by
  have hopen : opensSegment act m (l + 1) = false := by rw [opensSegment, h]; rfl
  rw [scanAt_eq, segUpTo_succ_of_not_opens hopen, h, scanAt_eq]
  simp

variable {act m} in
theorem scanAt_succ_of_active {l : Nat} (h : act.getLsbD (l + 1) = true) (hopen : opensSegment act m (l + 1) = false)
    (hlow : ∃ j, j ≤ l ∧ act.getLsbD j = true) :
    scanAt o md fi fo act m a (l + 1) =
      (o.combine md fo (scanAt o md fi fo act m a l) (o.read fi (lane a (l + 1)))).1 := by
  rw [scanAt_eq, segUpTo_succ_of_not_opens hopen, if_pos h, foldLanes_concat _ _ _ _ _ (segUpTo_ne_nil m hlow), scanAt_eq]

/-- `scanRow` at one lane: the elements so far, the running value of the open segment, the flags so far. -/
def scanStep (acc : List Word × Option Word × Flags) (l : Nat) : List Word × Option Word × Flags :=
  let x := o.read fi (lane a l)
  match (if inSet heads l then none else acc.2.1) with
  | none => (acc.1 ++ [x], some x, acc.2.2)
  | some t =>
    let r := o.combine md fo t x
    (acc.1 ++ [r.1], some r.1, if inSet live l then acc.2.2 ||| r.2 else acc.2.2)

theorem scanRow_eq :
    (scanRow o md fi fo act live heads a).1 =
      rowGen fun l => ((lanesOf act).foldl (scanStep o md fi fo live heads a) ([], none, 0#8)).1.getD
        ((lanesOf act).filter fun j => decide (j < l)).length 0#32 := rfl

theorem scanStep_of_head {l : Nat} (h : inSet heads l = true) (acc : List Word × Option Word × Flags) :
    scanStep o md fi fo live heads a acc l = (acc.1 ++ [o.read fi (lane a l)], some (o.read fi (lane a l)), acc.2.2) := by
  rw [scanStep, h]
  rfl

theorem scanStep_of_some {l : Nat} (h : inSet heads l = false) {acc : List Word × Option Word × Flags} {t : Word}
    (ht : acc.2.1 = some t) :
    scanStep o md fi fo live heads a acc l =
      (acc.1 ++ [(o.combine md fo t (o.read fi (lane a l))).1], some (o.combine md fo t (o.read fi (lane a l))).1,
        if inSet live l then acc.2.2 ||| (o.combine md fo t (o.read fi (lane a l))).2 else acc.2.2) := by
  rw [scanStep, h, ht]
  rfl

/-- What `scanRow` holds once the lanes below n are done: the scan at the active ones, the last one's value running. -/
def ScannedTo (n : Nat) (acc : List Word × Option Word × Flags) : Prop :=
  acc.1 = ((List.range n).filter (inSet act)).map (scanAt o md fi fo act m a) ∧
    ∀ k, n = k + 1 → (∃ j, j ≤ k ∧ act.getLsbD j = true) → acc.2.1 = some (scanAt o md fi fo act m a k)

variable {o md fi fo act m a}

theorem ScannedTo.scanStep_eq {n : Nat} (hn : n < 32) (ha : act.getLsbD n = true) {acc : List Word × Option Word × Flags}
    (h : ScannedTo o md fi fo act m a n acc) :
    ∃ f, scanStep o md fi fo live (segHeads act m) a acc n =
      (acc.1 ++ [scanAt o md fi fo act m a n], some (scanAt o md fi fo act m a n), f) := by
  cases hopen : opensSegment act m n with
  | true =>
    have hhead : inSet (segHeads act m) n = true := (inSet_segHeads act m hn).trans hopen
    exact ⟨_, by rw [scanStep_of_head _ _ _ _ _ _ _ hhead, scanAt_of_opens _ _ _ _ _ hopen]⟩
  | false =>
    have hhead : inSet (segHeads act m) n = false := (inSet_segHeads act m hn).trans hopen
    obtain ⟨j, hj, haj⟩ := exists_lower_of_not_opens ha hopen
    obtain ⟨k, rfl⟩ : ∃ k, n = k + 1 := ⟨n - 1, by omega⟩
    have hlow : ∃ j, j ≤ k ∧ act.getLsbD j = true := ⟨j, Nat.le_of_lt_succ hj, haj⟩
    exact ⟨_, by rw [scanStep_of_some _ _ _ _ _ _ _ hhead (h.2 k rfl hlow), scanAt_succ_of_active _ _ _ _ _ ha hopen hlow]⟩

theorem scannedTo_foldl {n : Nat} (hn : n ≤ 32) :
    ScannedTo o md fi fo act m a n
      (((List.range n).filter (inSet act)).foldl (scanStep o md fi fo live (segHeads act m) a) ([], none, 0#8)) := by
  induction n with
  | zero => exact ⟨rfl, fun k hk => by omega⟩
  | succ n ih =>
    specialize ih (by omega)
    rw [ScannedTo, List.range_succ, List.filter_append, List.filter_cons, List.filter_nil]
    cases ha : inSet act n with
    | true =>
      obtain ⟨f, hf⟩ := ih.scanStep_eq (live := live) hn ha
      simp only [if_true, List.foldl_append, List.foldl_cons, List.foldl_nil, hf, ih.1, List.map_append, List.map_cons,
        List.map_nil, true_and]
      rintro k hk -
      obtain rfl : n = k := by omega
      rfl
    | false =>
      simp only [Bool.false_eq_true, if_false, List.append_nil, ih.1, true_and]
      rintro k hk ⟨j, hj, haj⟩
      obtain rfl : n = k := by omega
      have hjn : j ≠ n := fun he => by simp [← he, inSet, haj] at ha
      obtain ⟨i, rfl⟩ : ∃ i, n = i + 1 := ⟨n - 1, by omega⟩
      rw [scanAt_succ_of_inactive _ _ _ _ _ ha]
      exact ih.2 i rfl ⟨j, by omega, haj⟩

/-- R160: an active lane's element of the scan. -/
theorem lane_scanRow {l : Nat} (hl : l < 32) (ha : act.getLsbD l = true) :
    lane (scanRow o md fi fo act live (segHeads act m) a).1 l = scanAt o md fi fo act m a l := by
  have hmem : l ∈ lanesOf act := mem_lanesOf.2 ⟨hl, ha⟩
  rw [scanRow_eq, lane_rowGen _ hl, lanesOf, (scannedTo_foldl live (Nat.le_refl 32)).1, ← lanesOf,
    List.getD_eq_getElem?_getD, List.getElem?_map, getElem?_length_filter_lt (pairwise_lanesOf act) hmem]
  rfl
end

/-! The reduction (R161). -/

section
variable (o : RedOp) (md : RMode) (fi fo : Bool) (act live m seg : LaneSet) (a : Row)

theorem fst_treeJoin {x y : Option Word × Flags} {k i : Nat} (hx : x.1 = treeNode o md fi fo seg a k (2 * i))
    (hy : y.1 = treeNode o md fi fo seg a k (2 * i + 1)) :
    (treeJoin o md fo x y).1 = treeNode o md fi fo seg a (k + 1) i := by
  rw [treeNode, ← hx, ← hy]
  obtain ⟨x, f⟩ := x
  obtain ⟨y, g⟩ := y
  cases x with
  | none => rfl
  | some x => cases y <;> rfl

theorem map_fst_treeLevel (k p : Nat) {i : Nat} {l : List (Option Word × Flags)}
    (h : l.map Prod.fst = (List.range' (2 * i) (2 * p)).map (treeNode o md fi fo seg a k)) :
    (treeLevel o md fo l).map Prod.fst = (List.range' i p).map (treeNode o md fi fo seg a (k + 1)) := by
  induction p generalizing i l with
  | zero =>
    obtain rfl : l = [] := by simpa using h
    rfl
  | succ p ih =>
    rw [Nat.mul_succ, List.range'_succ, List.range'_succ, List.map_cons, List.map_cons] at h
    obtain ⟨x, l, rfl, hx, h⟩ := List.map_eq_cons_iff.1 h
    obtain ⟨y, l, rfl, hy, h⟩ := List.map_eq_cons_iff.1 h
    rw [treeLevel, List.map_cons, fst_treeJoin o md fi fo seg a hx hy, ih (i := i + 1) h, List.range'_succ, List.map_cons]

theorem fst_treeFold (n k : Nat) {l : List (Option Word × Flags)}
    (h : l.map Prod.fst = (List.range' 0 (2 ^ k)).map (treeNode o md fi fo seg a n)) :
    (treeFold o md fo k l).1 = treeNode o md fi fo seg a (n + k) 0 := by
  induction k generalizing n l with
  | zero =>
    obtain ⟨x, l, rfl, hx, -⟩ := List.map_eq_cons_iff.1 h
    exact hx
  | succ k ih =>
    rw [treeFold, ih (n + 1) (map_fst_treeLevel o md fi fo seg a n (2 ^ k) (by rwa [← Nat.pow_succ'])), Nat.add_right_comm,
      Nat.add_assoc]

theorem isSome_treeNode_succ (k i : Nat) :
    (treeNode o md fi fo seg a (k + 1) i).isSome =
      ((treeNode o md fi fo seg a k (2 * i)).isSome || (treeNode o md fi fo seg a k (2 * i + 1)).isSome) := by
  rw [treeNode]
  cases treeNode o md fi fo seg a k (2 * i) with
  | none => rfl
  | some x => cases treeNode o md fi fo seg a k (2 * i + 1) <;> rfl

/-- A node above a lane of the segment is there. -/
theorem isSome_treeNode {j : Nat} (hj : seg.getLsbD j = true) (k : Nat) :
    (treeNode o md fi fo seg a k (j / 2 ^ k)).isSome = true := by
  induction k with
  | zero => simp [treeNode, hj]
  | succ k ih =>
    have half : j / 2 ^ (k + 1) = j / 2 ^ k / 2 := by rw [Nat.pow_succ, Nat.div_div_eq_div_mul]
    rw [isSome_treeNode_succ, Bool.or_eq_true, half]
    rcases Nat.mod_two_eq_zero_or_one (j / 2 ^ k) with h | h
    · exact .inl (by rwa [show 2 * (j / 2 ^ k / 2) = j / 2 ^ k by omega])
    · exact .inr (by rwa [show 2 * (j / 2 ^ k / 2) + 1 = j / 2 ^ k by omega])

theorem some_fst_reduceLanes {j : Nat} (hj : seg.getLsbD j = true) :
    some (reduceLanes o md fi fo seg a).1 = treeNode o md fi fo seg a 5 0 := by
  have leaves : ((List.range 32).map fun l =>
      if inSet seg l then (some (o.read fi (lane a l)), (0#8 : Flags)) else (none, 0#8)).map Prod.fst =
      (List.range' 0 (2 ^ 5)).map (treeNode o md fi fo seg a 0) := by
    rw [List.map_map, ← List.range_eq_range']
    refine List.map_congr_left fun l _ => ?_
    rw [Function.comp_apply, treeNode, inSet]
    split <;> rfl
  have root : j / 2 ^ 5 = 0 := Nat.div_eq_of_lt (BitVec.lt_of_getLsbD hj)
  have hsome := root ▸ isSome_treeNode o md fi fo seg a hj 5
  obtain ⟨v, hv⟩ := Option.isSome_iff_exists.1 hsome
  rw [reduceLanes, fst_treeFold o md fi fo seg a 0 5 leaves, hv]
  rfl

/-- R161: an active lane's element of the reduction is its segment's fold. -/
theorem lane_reduceRow {l : Nat} (hl : l < 32) (ha : act.getLsbD l = true) :
    lane (reduceRow o md fi fo act live (segHeads act m) a).1 l =
      (reduceLanes o md fi fo (setOf fun j => act.getLsbD j && segBegin act m j == segBegin act m l) a).1 := by
  have hopen := opensSegment_segBegin m ⟨l, Nat.le_refl l, ha⟩
  have hlt : segBegin act m l < 32 := Nat.lt_of_le_of_lt (segBegin_le act m l) hl
  have hmem : segBegin act m l ∈ lanesOf (segHeads act m) := mem_lanesOf.2 ⟨hlt, (inSet_segHeads act m hlt).trans hopen⟩
  have heads : segLanes act (segHeads act m) (segBegin act m l) =
      setOf fun j => act.getLsbD j && segBegin act m j == segBegin act m l :=
    setOf_congr fun j hj => by
      rw [segHeadOf_segHeads act m hj, segHeadOf_segHeads act m hlt, segBegin_of_opens hopen, inSet]
  rw [reduceRow, lane_rowGen _ hl, segHeadOf_segHeads act m hl, List.find?_map]
  have found : (lanesOf (segHeads act m)).find? (· == segBegin act m l) = some (segBegin act m l) :=
    find?_beq_of_mem hmem
  simp only [Function.comp_def, found, heads, Option.map_some, Option.getD_some]
end

/-! What a fold combines (R160). -/

theorem minMax_max {w : Nat} (s : Bool) (x y : BitVec w) :
    minMax s true x y = if (if s then x.slt y else x.ult y) then y else x := by
  rw [minMax]
  generalize (if s then x.slt y else x.ult y) = lt
  cases lt <;> rfl

/-- On a tie the operands are one value, so either way of asking delivers it. -/
theorem minMax_min {w : Nat} (s : Bool) (x y : BitVec w) :
    minMax s false x y = if (if s then y.slt x else y.ult x) then y else x := by
  rw [minMax]
  cases s with
  | true =>
    have tie : x.toInt = y.toInt → x = y := BitVec.eq_of_toInt_eq
    simp only [if_true, BitVec.slt]
    grind
  | false =>
    have tie : x.toNat = y.toNat → x = y := BitVec.eq_of_toNat_eq
    simp only [BitVec.ult]
    grind

/-! The order of a ranking (R162): the model's key orders as the FP32 values do. -/

/-- A code without its sign. -/
def f32Mag (x : Word) : Nat := (x &&& 0x7FFFFFFF#32).toNat

/-- The exponent of a finite magnitude, in steps above the smallest. -/
def f32Step (mag : Nat) : Nat := mag / 2 ^ 23 - 1

/-- A finite magnitude's value in units of the smallest subnormal. -/
def f32Units (mag : Nat) : Nat := (mag - 2 ^ 23 * f32Step mag) * 2 ^ f32Step mag

theorem f32Units_lt {m n : Nat} (h : m < n) : f32Units m < f32Units n := by
  have hstep : f32Step m ≤ f32Step n := Nat.sub_le_sub_right (Nat.div_le_div_right (Nat.le_of_lt h)) 1
  rcases Nat.eq_or_lt_of_le hstep with he | hlt
  · rw [f32Units, f32Units, ← he]
    refine Nat.mul_lt_mul_of_pos_right ?_ (Nat.two_pow_pos _)
    unfold f32Step at he ⊢
    omega
  · have hm : m - 2 ^ 23 * f32Step m < 2 ^ 24 := by unfold f32Step; omega
    have hn : 2 ^ 23 ≤ n - 2 ^ 23 * f32Step n := by unfold f32Step at hlt ⊢; omega
    calc f32Units m < 2 ^ 24 * 2 ^ f32Step m := Nat.mul_lt_mul_of_pos_right hm (Nat.two_pow_pos _)
      _ = 2 ^ 23 * 2 ^ (f32Step m + 1) := by rw [Nat.pow_succ (m := f32Step m)]; omega
      _ ≤ f32Units n := Nat.mul_le_mul hn (Nat.pow_le_pow_right (by decide) hlt)

theorem f32Mag_eq (x : Word) : f32Mag x = x.toNat % 2 ^ 31 := by
  rw [f32Mag, BitVec.toNat_and]
  exact Nat.and_two_pow_sub_one_eq_mod _ 31

theorem decode_fmt32 (x : Word) :
    fmt32.decode x.toNat =
      if 0x7F7FFFFF < f32Mag x then
        if f32Mag x = 0x7F800000 then .inf x.msb else .nan (decide (f32Mag x % 2 ^ 23 < 2 ^ 23 / 2))
      else .fin x.msb (f32Mag x - 2 ^ 23 * f32Step (f32Mag x)) ((f32Step (f32Mag x) : Int) - 149) := by
  have sign : (x.toNat / 2 ^ (fmt32.width - 1) % 2 == 1) = x.msb := by
    rw [BitVec.msb_eq_decide, Bool.eq_iff_iff, beq_iff_eq, decide_eq_true_eq]
    have : x.toNat < 2 ^ 32 := x.isLt
    simp only [fmt32]
    omega
  have mag : x.toNat % 2 ^ (fmt32.width - 1) = f32Mag x := (f32Mag_eq x).symm
  simp only [Fmt.decode, sign, mag]
  simp only [fmt32, f32Step, Nat.reduceSub, Nat.reducePow, Nat.reduceLT, decide_true, Bool.true_and, beq_iff_eq]
  generalize f32Mag x = n
  have hn : 2 ^ 23 * (n / 2 ^ 23) + n % 2 ^ 23 = n := Nat.div_add_mod n (2 ^ 23)
  split
  · rfl
  · split
    · congr 1 <;> omega
    · congr 1 <;> omega

theorem isNan_decode_fmt32 (x : Word) : (fmt32.decode x.toNat).isNan = decide (0x7F800000 < f32Mag x) := by
  rw [decode_fmt32]
  split
  next =>
    split
    next h => rw [h]; rfl
    next => exact (decide_eq_true (by omega)).symm
  next => exact (decide_eq_false (by omega)).symm

/-- A signed magnitude as one number, −0 below +0. -/
def signedRank (neg : Bool) (n : Nat) : Int := if neg then -(n : Int) - 1 else n

theorem signedRank_lt_iff (s t : Bool) {f : Nat → Nat} (hf : ∀ {i j}, i < j → f i < f j) (m n : Nat) :
    signedRank s (f m) < signedRank t (f n) ↔ signedRank s m < signedRank t n := by
  have lt_iff (i j : Nat) : f i < f j ↔ i < j := by
    refine ⟨fun h => Nat.lt_of_not_le fun hji => ?_, hf⟩
    rcases Nat.eq_or_lt_of_le hji with rfl | hji
    · exact Nat.lt_irrefl _ h
    · exact Nat.lt_asymm h (hf hji)
  have hmn := lt_iff m n
  have hnm := lt_iff n m
  unfold signedRank
  cases s <;> cases t <;> simp only [Bool.false_eq_true, if_true, if_false] <;> omega

theorem signedRank_lt (s t : Bool) (m n : Nat) :
    (let x : Int := if s then -(m : Int) else m
     let y : Int := if t then -(n : Int) else n
     decide (x < y) || (x == y && s && !t)) = decide (signedRank s m < signedRank t n) := by
  rw [Bool.eq_iff_iff]
  unfold signedRank
  cases s <;> cases t <;>
    simp only [Bool.false_eq_true, if_true, if_false, Bool.not_true, Bool.not_false, Bool.and_true, Bool.and_false,
      Bool.or_false, Bool.or_eq_true, beq_iff_eq, decide_eq_true_eq] <;>
    omega

theorem vLt_fin (s t : Bool) (m n i j : Nat) :
    vLt (.fin s m ((i : Int) - 149)) (.fin t n ((j : Int) - 149)) =
      decide (signedRank s (m * 2 ^ i) < signedRank t (n * 2 ^ j)) := by
  have low : (if (i : Int) - 149 ≤ (j : Int) - 149 then (i : Int) - 149 else j - 149) = ((min i j : Nat) : Int) - 149 := by
    split <;> omega
  have shift (u : Nat) : ((u : Int) - 149 - (((min i j : Nat) : Int) - 149)).toNat = u - min i j := by omega
  have units (v u : Nat) (hu : min i j ≤ u) : v * 2 ^ u = v * 2 ^ (u - min i j) * 2 ^ min i j := by
    rw [Nat.mul_assoc, ← Nat.pow_add, Nat.sub_add_cancel hu]
  have mono {u v : Nat} (h : u < v) : u * 2 ^ min i j < v * 2 ^ min i j := Nat.mul_lt_mul_of_pos_right h (Nat.two_pow_pos _)
  rw [units m i (Nat.min_le_left i j), units n j (Nat.min_le_right i j),
    decide_eq_decide.2 (signedRank_lt_iff s t (f := (· * 2 ^ min i j)) mono (m * 2 ^ (i - min i j)) (n * 2 ^ (j - min i j)))]
  simp only [vLt, low, shift]
  exact signedRank_lt ..

theorem key_maxF32 (x : Word) :
    TopOp.maxF32.key x = if 0x7F800000 < f32Mag x then -(0x100000000 : Int) else signedRank x.msb (f32Mag x) := rfl

theorem neg_two_pow_lt_signedRank {s : Bool} {n : Nat} (h : n ≤ 0x7F800000) : -(0x100000000 : Int) < signedRank s n := by
  unfold signedRank
  split <;> omega

theorem vLt_decode_fmt32 {x y : Word} (hx : f32Mag x ≤ 0x7F800000) (hy : f32Mag y ≤ 0x7F800000) :
    vLt (fmt32.decode x.toNat) (fmt32.decode y.toNat) =
      decide (signedRank x.msb (f32Mag x) < signedRank y.msb (f32Mag y)) := by
  rw [decode_fmt32, decode_fmt32]
  rcases Nat.eq_or_lt_of_le hx with hx | hx <;> rcases Nat.eq_or_lt_of_le hy with hy | hy
  · rw [if_pos (by omega), if_pos hx, if_pos (by omega), if_pos hy, hx, hy]
    cases x.msb <;> cases y.msb <;> rfl
  · rw [if_pos (by omega), if_pos hx, if_neg (by omega), hx]
    rw [Bool.eq_iff_iff, decide_eq_true_eq]
    unfold signedRank
    cases x.msb <;> cases y.msb <;>
      simp only [vLt, Bool.false_eq_true, if_true, if_false, true_iff, false_iff] <;>
      omega
  · rw [if_neg (by omega), if_pos (by omega), if_pos hy, hy]
    rw [Bool.eq_iff_iff, decide_eq_true_eq]
    unfold signedRank
    cases x.msb <;> cases y.msb <;>
      simp only [vLt, Bool.false_eq_true, Bool.not_true, Bool.not_false, if_true, if_false, true_iff, false_iff] <;>
      omega
  · rw [if_neg (by omega), if_neg (by omega), vLt_fin]
    exact decide_eq_decide.2 (signedRank_lt_iff _ _ f32Units_lt _ _)

/-- The model ranks by a key: it orders elements as R162 does. -/
theorem ranksAbove_eq (o : TopOp) (x y : Word) : ranksAbove o x y = decide (o.key y < o.key x) := by
  cases o with
  | maxS32 => rfl
  | maxZ32 => simp [ranksAbove, TopOp.key]
  | maxF32 =>
    rw [ranksAbove, isNan_decode_fmt32, isNan_decode_fmt32, key_maxF32, key_maxF32]
    by_cases hx : 0x7F800000 < f32Mag x <;> by_cases hy : 0x7F800000 < f32Mag y
    · simp [hx, hy]
    · simp [hx, hy, Int.le_of_lt (neg_two_pow_lt_signedRank (s := y.msb) (Nat.not_lt.1 hy))]
    · simp [hx, hy, neg_two_pow_lt_signedRank (s := x.msb) (Nat.not_lt.1 hx)]
    · simp [hx, hy, vLt_decode_fmt32 (Nat.not_lt.1 hy) (Nat.not_lt.1 hx)]

/-! The ranking (R162). -/

/-- A ranked entry, its key and its lane, stands before another. -/
def RanksBefore (p q : Int × Nat) : Prop := q.1 < p.1 ∨ p.1 = q.1 ∧ p.2 < q.2

theorem rankInsert_perm (k : Int) (l : Nat) (ps : List (Int × Nat)) : (rankInsert k l ps).Perm ((k, l) :: ps) := by
  induction ps with
  | nil => exact .refl _
  | cons p ps ih =>
    rw [rankInsert]
    split
    · exact .refl _
    · exact (ih.cons p).trans (.swap ..)

theorem pairwise_rankInsert {k : Int} {l : Nat} {ps : List (Int × Nat)} (hlow : ∀ p ∈ ps, p.2 < l)
    (h : ps.Pairwise RanksBefore) : (rankInsert k l ps).Pairwise RanksBefore := by
  induction ps with
  | nil => exact List.pairwise_singleton ..
  | cons p ps ih =>
    obtain ⟨hp, hps⟩ := List.pairwise_cons.1 h
    rw [rankInsert]
    split
    next hk =>
      refine List.pairwise_cons.2 ⟨fun q hq => ?_, h⟩
      rcases List.mem_cons.1 hq with rfl | hq
      · exact .inl hk
      · have := hp q hq
        unfold RanksBefore at this
        exact .inl (by dsimp only; omega)
    next hk =>
      refine List.pairwise_cons.2 ⟨fun q hq => ?_, ih (fun q hq => hlow q (.tail _ hq)) hps⟩
      rcases List.mem_cons.1 ((rankInsert_perm k l ps).mem_iff.1 hq) with rfl | hq
      · have := hlow p List.mem_cons_self
        unfold RanksBefore
        dsimp only
        omega
      · exact hp q hq

/-- The lanes of a rising list, inserted one after another, stand ranked. -/
theorem foldl_rankInsert (g : Nat → Int) {js : List Nat} (hjs : js.Pairwise (· < ·)) {ps : List (Int × Nat)}
    (hlow : ∀ p ∈ ps, ∀ j ∈ js, p.2 < j) (hps : ps.Pairwise RanksBefore) :
    (js.foldl (fun acc l => rankInsert (g l) l acc) ps).Pairwise RanksBefore ∧
      (js.foldl (fun acc l => rankInsert (g l) l acc) ps).Perm (js.map (fun l => (g l, l)) ++ ps) := by
  induction js generalizing ps with
  | nil => exact ⟨hps, .refl _⟩
  | cons j js ih =>
    obtain ⟨hj, hjs⟩ := List.pairwise_cons.1 hjs
    have hlow' : ∀ p ∈ rankInsert (g j) j ps, ∀ i ∈ js, p.2 < i := by
      intro p hp i hi
      rcases List.mem_cons.1 ((rankInsert_perm (g j) j ps).mem_iff.1 hp) with rfl | hp
      · exact hj i hi
      · exact hlow p hp i (.tail _ hi)
    obtain ⟨hsorted, hperm⟩ := ih hjs hlow' (pairwise_rankInsert (fun p hp => hlow p hp j List.mem_cons_self) hps)
    exact ⟨hsorted, hperm.trans (((rankInsert_perm (g j) j ps).append_left _).trans List.perm_middle)⟩

/-- R162: a lane stands before another in the ranking of a row's elements. -/
def laneBefore (o : TopOp) (a : Row) (x y : Nat) : Bool :=
  ranksAbove o (lane a x) (lane a y) || (!ranksAbove o (lane a y) (lane a x) && decide (x < y))

theorem laneBefore_iff (o : TopOp) (a : Row) (x y : Nat) :
    laneBefore o a x y = true ↔ RanksBefore (o.key (lane a x), x) (o.key (lane a y), y) := by
  simp only [laneBefore, ranksAbove_eq, RanksBefore, Bool.or_eq_true, Bool.and_eq_true, Bool.not_eq_true',
    decide_eq_true_eq, decide_eq_false_iff_not]
  omega

theorem laneBefore_asymm {o : TopOp} {a : Row} {x y : Nat} (h : laneBefore o a x y = true) :
    laneBefore o a y x = false := by
  rw [laneBefore_iff] at h
  rw [← Bool.not_eq_true, laneBefore_iff]
  unfold RanksBefore at *
  omega

theorem rankLanes_perm (o : TopOp) (s : LaneSet) (a : Row) : (rankLanes o s a).Perm (lanesOf s) := by
  have h := (foldl_rankInsert (fun l => o.key (lane a l)) (pairwise_lanesOf s) (ps := []) (by simp) .nil).2
  simpa [rankLanes, Function.comp_def] using h.map Prod.snd

theorem pairwise_rankLanes (o : TopOp) (s : LaneSet) (a : Row) :
    (rankLanes o s a).Pairwise (laneBefore o a · · = true) := by
  obtain ⟨hsorted, hperm⟩ := foldl_rankInsert (fun l => o.key (lane a l)) (pairwise_lanesOf s) (ps := []) (by simp) .nil
  have key (p) (hp : p ∈ (lanesOf s).foldl (fun acc l => rankInsert (o.key (lane a l)) l acc) []) :
      (o.key (lane a p.2), p.2) = p := by
    obtain ⟨l, -, rfl⟩ := List.mem_map.1 (List.append_nil _ ▸ hperm.mem_iff.1 hp)
    rfl
  rw [rankLanes, List.pairwise_map]
  exact hsorted.imp_of_mem fun hp hq h => (laneBefore_iff ..).2 (by rwa [key _ hp, key _ hq])

/-- In a list ordered by an asymmetric relation, the member at i has i members before it. -/
theorem countP_getElem_of_pairwise {r : Nat → Nat → Bool} (asymm : ∀ {x y}, r x y = true → r y x = false) {js : List Nat}
    (h : js.Pairwise (r · · = true)) {i : Nat} (hi : i < js.length) : js.countP (fun j => r j js[i]) = i := by
  have irrefl (x : Nat) : r x x = false := by
    cases hx : r x x with
    | false => rfl
    | true => exact hx.symm.trans (asymm hx)
  induction js generalizing i with
  | nil => exact absurd hi (Nat.not_lt_zero i)
  | cons x js ih =>
    obtain ⟨hx, hjs⟩ := List.pairwise_cons.1 h
    cases i with
    | zero =>
      have none_before : js.countP (fun j => r j x) = 0 :=
        List.countP_eq_zero.2 fun j hj => by simp [asymm (hx j hj)]
      simp [irrefl, none_before]
    | succ i =>
      have hi : i < js.length := Nat.lt_of_succ_lt_succ hi
      simp [hx _ (List.getElem_mem hi), ih hjs hi]

/-- The one member with n members before it is the n-th of the ordered list. -/
theorem find?_countP_eq {r : Nat → Nat → Bool} (asymm : ∀ {x y}, r x y = true → r y x = false) {js group : List Nat}
    (h : js.Pairwise (r · · = true)) (hp : js.Perm group) (n : Nat) :
    (group.find? fun c => group.countP (fun j => r j c) == n) = js[n]? := by
  have place {c : Nat} (hc : c ∈ group) : ∃ i, ∃ hi : i < js.length, js[i] = c ∧ group.countP (fun j => r j c) = i := by
    obtain ⟨i, hi, rfl⟩ := List.getElem_of_mem (hp.mem_iff.2 hc)
    exact ⟨i, hi, rfl, (hp.countP_eq _).symm.trans (countP_getElem_of_pairwise asymm h hi)⟩
  cases hf : group.find? fun c => group.countP (fun j => r j c) == n with
  | some c =>
    obtain ⟨i, hi, rfl, hcount⟩ := place (List.mem_of_find?_eq_some hf)
    obtain rfl : i = n := hcount.symm.trans (by simpa using List.find?_some hf)
    exact (List.getElem?_eq_getElem hi).symm
  | none =>
    refine (List.getElem?_eq_none (Nat.le_of_not_lt fun hn => ?_)).symm
    have hmem : js[n] ∈ group := hp.mem_iff.1 (List.getElem_mem hn)
    have hcount : group.countP (fun j => r j js[n]) = n :=
      (hp.countP_eq _).symm.trans (countP_getElem_of_pairwise asymm h hn)
    exact List.find?_eq_none.1 hf _ hmem (beq_iff_eq.2 hcount)

/-- The active lanes of the aligned group that starts at a lane. -/
def rankGroup (act : LaneSet) (base size : Nat) : List Nat :=
  ((List.range size).map (base + ·)).filter fun j => act.getLsbD j

theorem mem_rankGroup {act : LaneSet} {base size j : Nat} :
    j ∈ rankGroup act base size ↔ (∃ i, i < size ∧ base + i = j) ∧ act.getLsbD j = true := by
  simp [rankGroup]

theorem nodup_rankGroup (act : LaneSet) (base size : Nat) : (rankGroup act base size).Nodup :=
  ((List.pairwise_map.2 (List.pairwise_lt_range.imp (Nat.add_lt_add_left · base))).filter _).imp Nat.ne_of_lt

theorem lanesOf_perm_rankGroup (act : LaneSet) (l : Nat) {size : Nat} (hsize : 0 < size) :
    (lanesOf (setOf fun j => inSet act j && j / size * size == l / size * size)).Perm
      (rankGroup act (l / size * size) size) := by
  refine (List.perm_ext_iff_of_nodup ((pairwise_lanesOf _).imp Nat.ne_of_lt) (nodup_rankGroup ..)).2 fun j => ?_
  rw [mem_rankGroup, mem_lanesOf]
  constructor
  · rintro ⟨hj, hin⟩
    rw [inSet_setOf _ hj, Bool.and_eq_true, beq_iff_eq] at hin
    obtain ⟨ha, hbase⟩ := hin
    exact ⟨⟨j % size, Nat.mod_lt j hsize, by rw [← hbase, Nat.div_add_mod']⟩, ha⟩
  · rintro ⟨⟨i, hi, rfl⟩, ha⟩
    have hj : l / size * size + i < 32 := BitVec.lt_of_getLsbD ha
    have hbase : (l / size * size + i) / size = l / size := by
      rw [Nat.add_comm, Nat.add_mul_div_right i _ hsize, Nat.div_eq_of_lt hi, Nat.zero_add]
    exact ⟨hj, by rw [inSet_setOf _ hj, hbase, inSet, ha, beq_self_eq_true, Bool.and_self]⟩

theorem ite_lt_min_length_eq (ranks : List Nat) (n k : Nat) (rest : Word) :
    (if n < min k ranks.length then BitVec.ofNat 32 (ranks.getD n 0) else rest) =
      ranks[n]?.elim rest fun c => if n < k then BitVec.ofNat 32 c else rest := by
  rcases Nat.lt_or_ge n ranks.length with hn | hn
  · rw [List.getElem?_eq_getElem hn, Option.elim_some, List.getD_eq_getElem?_getD, List.getElem?_eq_getElem hn,
      Option.getD_some]
    simp only [Nat.lt_min, hn, and_true]
  · rw [List.getElem?_eq_none hn, Option.elim_none, if_neg (by omega)]

/-- R162: in lane base + j lands the active lane of the group that has j lanes before it. -/
theorem lane_topkRow (o : TopOp) {size : Nat} (hsize : 0 < size) (k : Nat) (act : LaneSet) (a : Row) {l : Nat} (hl : l < 32) :
    lane (topkRow o size k act a) l =
      ((rankGroup act (l / size * size) size).find? fun c =>
          (rankGroup act (l / size * size) size).countP (fun j => laneBefore o a j c) == l - l / size * size).elim 0xFFFFFFFF#32
        fun c => if l - l / size * size < k then BitVec.ofNat 32 c else 0xFFFFFFFF#32 := by
  have hperm := (rankLanes_perm o _ a).trans (lanesOf_perm_rankGroup act l hsize)
  rw [find?_countP_eq laneBefore_asymm (pairwise_rankLanes o _ a) hperm, topkRow, lane_rowGen _ hl]
  exact ite_lt_min_length_eq ..

/-- Settles O32: the scan by the running value of the open segment, the reduction level by level of the tree, the ranking
by the number of lanes before each ranked one. -/
theorem foldValues : Obligations.FoldValues := by
  refine ⟨fun md fo x y => ⟨rfl, ?_, ?_, ?_, ?_, rfl, rfl, rfl⟩, fun md fi fo act m a l hl ha => ⟨fun o => ⟨?_, ?_⟩, ?_⟩⟩
  · simp [RedOp.combine, minMax_max, BitVec.slt]
  · simp [RedOp.combine, minMax_min, BitVec.slt]
  · simp [RedOp.combine, minMax_max, BitVec.ult]
  · simp [RedOp.combine, minMax_min, BitVec.ult]
  · exact lane_scanRow act hl ha
  · rw [lane_reduceRow _ _ _ _ _ _ _ _ hl ha]
    refine some_fst_reduceLanes o md fi fo _ a (j := l) ?_
    rw [← inSet, inSet_setOf _ hl, ha, beq_self_eq_true, Bool.and_self]
  · intro o e k _
    refine (lane_topkRow o (Nat.two_pow_pos e) k act a hl).trans ?_
    simp only [rankGroup, laneBefore]
    generalize List.find? _ _ = found
    cases found <;> rfl

end Sys2Proof.Machine
end

section
/-! Apportioning clusters to the experts of a batch (24 R400). -/

namespace Sys2Proof.Machine

/-! The experts with work, and the parts that the quotients give them. -/

/-- X of R400: the experts with tokens, in increasing order. -/
def expertsWithWork (counts : List Nat) : List Nat :=
  (List.range counts.length).filter fun e => decide (0 < counts.getD e 0)

/-- Clusters of expert e before the largest remainders are served: one, and the floor of its part of the `r` others. -/
def floorShare (r : Nat) (counts : List Nat) (e : Nat) : Nat := 1 + r * counts.getD e 0 / counts.sum

/-- What the quotient of expert e leaves over, in parts of one cluster over the sum of the counts. -/
def remainderOf (r : Nat) (counts : List Nat) (e : Nat) : Nat := r * counts.getD e 0 % counts.sum

theorem pairwise_expertsWithWork (counts : List Nat) : (expertsWithWork counts).Pairwise (· < ·) :=
  List.pairwise_lt_range.filter _

theorem sum_map_expertsWithWork (counts : List Nat) :
    ((expertsWithWork counts).map (counts.getD · 0)).sum = counts.sum := by
  have sum_filter (js : List Nat) : ((js.filter fun e => decide (0 < counts.getD e 0)).map (counts.getD · 0)).sum =
      (js.map (counts.getD · 0)).sum := by
    induction js with
    | nil => rfl
    | cons j js ih => by_cases hj : 0 < counts.getD j 0 <;> grind
  have getD_range : (List.range counts.length).map (counts.getD · 0) = counts :=
    List.ext_getElem (by simp) fun i _ hi => by simp [hi]
  rw [expertsWithWork, sum_filter, getD_range]

theorem sum_eq_zero_iff_expertsWithWork (counts : List Nat) : counts.sum = 0 ↔ expertsWithWork counts = [] := by
  constructor
  · intro h
    refine List.filter_eq_nil_iff.2 fun e he hpos => ?_
    have hzero := List.sum_eq_zero_iff_forall_eq_nat.1 h _ (List.getElem_mem (List.mem_range.1 he))
    simp [List.getD_eq_getElem?_getD, List.mem_range.1 he, hzero] at hpos
  · intro h
    rw [← sum_map_expertsWithWork, h, List.map_nil, List.sum_nil]

/-- The floors and the remainders together are one cluster for each expert and the `r` others, in parts of one over the
sum of the counts. -/
theorem sum_floorShare_add_sum_remainderOf (r : Nat) (counts : List Nat) :
    counts.sum * ((expertsWithWork counts).map (floorShare r counts)).sum +
      ((expertsWithWork counts).map (remainderOf r counts)).sum =
    counts.sum * (expertsWithWork counts).length + counts.sum * r := by
  have each (e : Nat) : counts.sum * floorShare r counts e + remainderOf r counts e =
      counts.sum + r * counts.getD e 0 := by
    rw [floorShare, remainderOf, Nat.mul_add, Nat.mul_one, Nat.add_assoc, Nat.div_add_mod]
  have sum_each (js : List Nat) :
      counts.sum * (js.map (floorShare r counts)).sum + (js.map (remainderOf r counts)).sum =
        counts.sum * js.length + r * (js.map (counts.getD · 0)).sum := by
    induction js with
    | nil => simp only [List.map_nil, List.sum_nil, List.length_nil, Nat.mul_zero]
    | cons j js ih =>
      have := each j
      simp only [List.map_cons, List.sum_cons, List.length_cons, Nat.mul_add, Nat.mul_one]
      omega
  rw [sum_each, sum_map_expertsWithWork, Nat.mul_comm r]

theorem sum_remainderOf_le (r : Nat) {counts : List Nat} (hpos : 0 < counts.sum) (js : List Nat) :
    (js.map (remainderOf r counts)).sum ≤ counts.sum * js.length := by
  induction js with
  | nil => exact Nat.zero_le _
  | cons j js ih =>
    have : remainderOf r counts j < counts.sum := Nat.mod_lt _ hpos
    simp only [List.map_cons, List.sum_cons, List.length_cons, Nat.mul_add, Nat.mul_one]
    omega

/-- Rounding down gives away no more clusters than there are, and keeps back at most one for each expert with work. -/
theorem sum_floorShare_bounds (r : Nat) {counts : List Nat} (hwork : expertsWithWork counts ≠ []) :
    ((expertsWithWork counts).map (floorShare r counts)).sum ≤ (expertsWithWork counts).length + r ∧
    r ≤ ((expertsWithWork counts).map (floorShare r counts)).sum := by
  have hpos : 0 < counts.sum := Nat.pos_of_ne_zero (mt (sum_eq_zero_iff_expertsWithWork counts).1 hwork)
  have htotal := sum_floorShare_add_sum_remainderOf r counts
  have hrem := sum_remainderOf_le r hpos (expertsWithWork counts)
  constructor
  · refine Nat.le_of_mul_le_mul_left ?_ hpos
    rw [Nat.mul_add]
    omega
  · refine Nat.le_of_mul_le_mul_left ?_ hpos
    omega

/-! The largest remainders. -/

/-- Expert e is served before expert f: its remainder is larger, or the remainders are equal and e is the lower. -/
def ServedBefore (rem : Nat → Nat) (e f : Nat) : Prop := rem f < rem e ∨ (rem f = rem e ∧ e < f)

/-- What the search for the largest remainder has found among the experts `js`. -/
def IsLargestLeft (rem : Nat → Nat) (taken js : List Nat) : Option Nat → Prop
  | none => ∀ f ∈ js, f ∈ taken
  | some b => b ∈ js ∧ b ∉ taken ∧ ∀ f ∈ js, f ∉ taken → f = b ∨ ServedBefore rem b f

theorem isLargestLeft_largestLeft (r : Nat) (counts taken : List Nat) {js : List Nat} (hjs : js.Pairwise (· < ·)) :
    IsLargestLeft (remainderOf r counts) taken js (largestLeft r counts.sum counts js taken) := by
  obtain ⟨seen, rfl⟩ : ∃ seen : List Nat, js = seen.reverse := ⟨js.reverse, js.reverse_reverse.symm⟩
  induction seen with
  | nil => exact fun _ h => absurd h List.not_mem_nil
  | cons e seen ih =>
    rw [List.reverse_cons] at hjs ⊢
    obtain ⟨hpre, -, hlt⟩ := List.pairwise_append.1 hjs
    have hlt (f : Nat) (hf : f ∈ seen.reverse) : f < e := hlt f hf e (List.mem_singleton_self e)
    specialize ih hpre
    rw [largestLeft, List.foldl_append, List.foldl_cons, List.foldl_nil, ← largestLeft]
    generalize largestLeft r counts.sum counts seen.reverse taken = best at ih ⊢
    by_cases he : e ∈ taken
    · rw [if_pos (List.contains_iff_mem.2 he)]
      cases best <;> grind [IsLargestLeft]
    · rw [if_neg (mt List.contains_iff_mem.1 he)]
      cases best with
      | none => grind [IsLargestLeft]
      | some b =>
        obtain ⟨hb, hleft, hfirst⟩ := ih
        dsimp only
        split
        next hmore => grind [IsLargestLeft, ServedBefore, remainderOf]
        next hless => grind [IsLargestLeft, ServedBefore, remainderOf]

/-- The experts chosen so far: each once, and each before every expert not chosen. -/
structure ChosenFirst (rem : Nat → Nat) (xs chosen : List Nat) : Prop where
  nodup : chosen.Nodup
  subset : chosen ⊆ xs
  before : ∀ x ∈ chosen, ∀ y ∈ xs, y ∉ chosen → ServedBefore rem x y

theorem ChosenFirst.nil (rem : Nat → Nat) (xs : List Nat) : ChosenFirst rem xs [] := by
  constructor <;> simp

theorem ChosenFirst.cons {rem : Nat → Nat} {xs chosen : List Nat} (h : ChosenFirst rem xs chosen) {e : Nat}
    (he : IsLargestLeft rem chosen xs (some e)) : ChosenFirst rem xs (e :: chosen) := by
  obtain ⟨hmem, hnew, hfirst⟩ := he
  refine ⟨List.nodup_cons.2 ⟨hnew, h.nodup⟩, List.cons_subset.2 ⟨hmem, h.subset⟩, fun x hx y hy hout => ?_⟩
  obtain ⟨hne, hold⟩ := not_or.1 (mt List.mem_cons.2 hout)
  rcases List.mem_cons.1 hx with rfl | hx
  · exact (hfirst y hy hold).resolve_left hne
  · exact h.before x hx y hy hold

/-- As many experts are chosen as are asked for, while there are so many. -/
theorem chosenFirst_remainders (r : Nat) (counts : List Nat) {xs : List Nat} (hxs : xs.Pairwise (· < ·)) (k : Nat) :
    ∀ taken, ChosenFirst (remainderOf r counts) xs taken → k + taken.length ≤ xs.length →
      ChosenFirst (remainderOf r counts) xs (remainders r counts.sum counts xs k taken) ∧
      (remainders r counts.sum counts xs k taken).length = k + taken.length := by
  induction k with
  | zero => exact fun taken h _ => ⟨h, (Nat.zero_add _).symm⟩
  | succ k ih =>
    intro taken h hk
    have hlargest := isLargestLeft_largestLeft r counts taken hxs
    rw [remainders]
    cases hfound : largestLeft r counts.sum counts xs taken with
    | none =>
      rw [hfound] at hlargest
      have := List.Nodup.length_le_of_subset (hxs.imp Nat.ne_of_lt) hlargest
      omega
    | some e =>
      rw [hfound] at hlargest
      obtain ⟨hchosen, hlength⟩ := ih (e :: taken) (h.cons hlargest) (by rw [List.length_cons]; omega)
      exact ⟨hchosen, by rw [hlength, List.length_cons]; omega⟩

/-- Clusters of expert e once the experts `more` are served one more each. -/
def shareWith (more : List Nat) (r : Nat) (counts : List Nat) (e : Nat) : Nat :=
  floorShare r counts e + if more.contains e then 1 else 0

theorem shareWith_eq_succ_iff {more : List Nat} {r : Nat} {counts : List Nat} {e : Nat} :
    shareWith more r counts e = floorShare r counts e + 1 ↔ e ∈ more := by
  simp [shareWith]

theorem shareWith_eq_floorShare_iff {more : List Nat} {r : Nat} {counts : List Nat} {e : Nat} :
    shareWith more r counts e = floorShare r counts e ↔ e ∉ more := by
  simp [shareWith]

/-- The chosen experts are as many clusters more. -/
theorem ChosenFirst.sum_map_shareWith {rem : Nat → Nat} {xs chosen : List Nat} (h : ChosenFirst rem xs chosen)
    (hxs : xs.Nodup) (r : Nat) (counts : List Nat) :
    (xs.map (shareWith chosen r counts)).sum = (xs.map (floorShare r counts)).sum + chosen.length := by
  have sum_shareWith (js : List Nat) : (js.map (shareWith chosen r counts)).sum =
      (js.map (floorShare r counts)).sum + (js.filter chosen.contains).length := by
    induction js with
    | nil => rfl
    | cons j js ih => by_cases hj : chosen.contains j <;> grind [shareWith]
  have hperm : (xs.filter chosen.contains).Perm chosen :=
    (List.perm_ext_iff_of_nodup (hxs.filter _) h.nodup).2 fun e => by
      rw [List.mem_filter, List.contains_iff_mem]
      exact and_iff_right_of_imp (@h.subset e)
  rw [sum_shareWith, hperm.length_eq]

/-! Dealing and sharing. -/

theorem map_fst_dealClusters (cl xs : List Nat) (share : Nat → Nat) :
    (dealClusters cl (xs.map fun e => (e, share e))).map Prod.fst = xs := by
  induction xs generalizing cl with
  | nil => rfl
  | cons e xs ih => rw [List.map_cons, dealClusters, List.map_cons, ih]

/-- Each expert is dealt as many clusters as its share says, while there are so many. -/
theorem length_of_mem_dealClusters {cl xs : List Nat} {share : Nat → Nat} (h : (xs.map share).sum ≤ cl.length)
    {x : Nat × List Nat} (hx : x ∈ dealClusters cl (xs.map fun e => (e, share e))) : x.2.length = share x.1 := by
  induction xs generalizing cl with
  | nil => exact absurd hx List.not_mem_nil
  | cons e xs ih =>
    rw [List.map_cons, List.sum_cons] at h
    rw [List.map_cons, dealClusters, List.mem_cons] at hx
    rcases hx with rfl | hx
    · exact List.length_take_of_le (by omega)
    · exact ih (by rw [List.length_drop]; omega) hx

theorem flatMap_dealClusters (cl xs : List Nat) (share : Nat → Nat) :
    (dealClusters cl (xs.map fun e => (e, share e))).flatMap Prod.snd = cl.take (xs.map share).sum := by
  induction xs generalizing cl with
  | nil => rfl
  | cons e xs ih => rw [List.map_cons, dealClusters, List.flatMap_cons, ih, List.map_cons, List.sum_cons, List.take_add]

theorem map_fst_shareClusters (cl xs : List Nat) : (shareClusters cl xs).map Prod.fst = xs :=
  List.ext_getElem (by simp [shareClusters]) fun i _ hi => by simp [shareClusters, hi]

/-- The i-th expert has cluster i modulo their number. -/
theorem getElem?_shareClusters {cl xs : List Nat} (hcl : cl ≠ []) {i e : Nat} (hi : xs[i]? = some e) :
    (shareClusters cl xs)[i]? = some (e, [cl.getD (i % cl.length) 0]) := by
  have hpos := List.length_pos_iff.2 hcl
  obtain ⟨hlt, rfl⟩ := List.getElem?_eq_some_iff.1 hi
  have hmod : i % cl.length < cl.length := Nat.mod_lt i hpos
  simp [shareClusters, hlt, hmod, Nat.max_eq_left hpos]

/-! The three cases of `apportion`. -/

section
variable {cl counts : List Nat}

theorem apportion_of_no_work (h : expertsWithWork counts = []) : apportion cl counts = [] :=
  if_pos (List.sum_eq_foldl_nat.symm.trans ((sum_eq_zero_iff_expertsWithWork counts).2 h))

theorem apportion_of_more_experts (h : cl.length < (expertsWithWork counts).length) :
    apportion cl counts = shareClusters cl (expertsWithWork counts) := by
  have hwork : expertsWithWork counts ≠ [] := List.ne_nil_of_length_pos (Nat.zero_lt_of_lt h)
  rw [apportion, ← List.sum_eq_foldl_nat, if_neg (mt (sum_eq_zero_iff_expertsWithWork counts).1 hwork)]
  exact if_pos h

/-- Where the clusters suffice, each expert is dealt its floor, and one more where it is chosen; no cluster is left. -/
theorem apportion_of_enough_clusters (hwork : expertsWithWork counts ≠ [])
    (h : (expertsWithWork counts).length ≤ cl.length) {r : Nat} (hr : r = cl.length - (expertsWithWork counts).length) :
    ∃ more, ChosenFirst (remainderOf r counts) (expertsWithWork counts) more ∧
      ((expertsWithWork counts).map (shareWith more r counts)).sum = cl.length ∧
      apportion cl counts = dealClusters cl ((expertsWithWork counts).map fun e => (e, shareWith more r counts e)) := by
  have hxs := pairwise_expertsWithWork counts
  obtain ⟨hle, hge⟩ := sum_floorShare_bounds r hwork
  obtain ⟨hmore, hlength⟩ := chosenFirst_remainders r counts hxs
    (cl.length - ((expertsWithWork counts).map (floorShare r counts)).sum) [] (.nil ..) (by rw [List.length_nil]; omega)
  refine ⟨_, hmore, ?_, ?_⟩
  · rw [hmore.sum_map_shareWith (hxs.imp Nat.ne_of_lt), hlength, List.length_nil]
    omega
  · subst hr
    rw [apportion, ← List.sum_eq_foldl_nat, if_neg (mt (sum_eq_zero_iff_expertsWithWork counts).1 hwork)]
    simp only [← List.sum_eq_foldl_nat]
    exact if_neg (Nat.not_lt.2 h)

end

/-- Settles O50: the rounding down leaves at most one cluster for each expert with work, so the search serves an expert
for each cluster left, and the dealing ends with the last cluster. -/
theorem apportioning : Obligations.Apportioning := by
  intro cl counts xs r n base
  refine ⟨apportion_of_no_work, fun hcl hfew => ?_, fun hmany hwork => ?_⟩
  · rw [apportion_of_more_experts hfew]
    exact ⟨map_fst_shareClusters cl xs, fun i e hi => getElem?_shareClusters hcl hi⟩
  · obtain ⟨more, hmore, hsum, heq⟩ := apportion_of_enough_clusters hwork hmany (r := r) rfl
    have hfst := heq ▸ map_fst_dealClusters cl (expertsWithWork counts) (shareWith more r counts)
    have hlen {x : Nat × List Nat} (hx : x ∈ apportion cl counts) : x.2.length = shareWith more r counts x.1 :=
      length_of_mem_dealClusters (Nat.le_of_eq hsum) (heq ▸ hx)
    refine ⟨hfst, ?_, fun x hx => ?_, fun x hx y hy hxl hyl => ?_⟩
    · rw [heq, flatMap_dealClusters, hsum, List.take_length]
    · rw [hlen hx]
      by_cases hin : x.1 ∈ more
      · exact .inr (shareWith_eq_succ_iff.2 hin)
      · exact .inl (shareWith_eq_floorShare_iff.2 hin)
    · rw [hlen hx] at hxl
      rw [hlen hy] at hyl
      exact hmore.before x.1 (shareWith_eq_succ_iff.1 hxl) y.1 (hfst ▸ List.mem_map_of_mem hy)
        (shareWith_eq_floorShare_iff.1 hyl)

end Sys2Proof.Machine
end
